-- ==== Sys2Proof/Word.lean ====
section
/-! DEFINITION. The word types of the block: bytes, the 64-bit dictionary word, and the wider words the
manual numbers bit by bit (an entry, a flit, a microword). -/

namespace Sys2Proof

/-- A byte on any port. -/
abbrev Byte := BitVec 8

/-- A dictionary word (R384), an FPA (R33) or any other 64-bit value. -/
abbrev W64 := BitVec 64

/-- An entry (R89), a marker or refuge record (R215, R362), a Cairn record (R403) or the data of a line. -/
abbrev W512 := BitVec 512

/-- A line slot as it stands on flash (R141). -/
abbrev Slot := BitVec 560

/-- A Col flit (R241). -/
abbrev Flit := BitVec 1024

/-- A microword (R291). -/
abbrev Microword := BitVec 160

/-- Bits [hi:lo] of a word, as a natural number. -/
def bitsOf {n : Nat} (w : BitVec n) (hi lo : Nat) : Nat :=
  (w.extractLsb' lo (hi + 1 - lo)).toNat

/-- A natural number placed at bit lo of a word. -/
def place (n : Nat) (lo v : Nat) : BitVec n :=
  BitVec.ofNat n v <<< lo

end Sys2Proof
end

