-- ==== Sys2Proof/Syntax.lean ====
section
/-! DEFINITION. The commands of the block, one constructor of Instr for each row of the opcode table, and the records
some of them carry from outside: what a die answered at bring-up, what training measured, what recovery read from flash.
A command stands for one event at a port, at a die or at a timer; its operands are what that event brings with it. -/

namespace Sys2Proof

/-- A DIE_FEATURE row is admitted at the Gate (enter) and later run on its LUN (run), which brings the four parameter
bytes the die returned, P1 in [7:0] (R111, R348). -/
inductive FeatStep where
  | enter (q : Nat)
  | run (spur ctx : Nat) (params : BitVec 32)
deriving DecidableEq, Repr

/-- Where a die's parameter data put the fields of a row address, as bit positions, and how many cycles it takes (R331). -/
structure RowPlan where
  cycles : Nat := 0
  pageAt : Nat := 0
  planeAt : Nat := 0
  blockAt : Nat := 0
  lunAt : Nat := 0
deriving DecidableEq, Repr

/-- What one LUN position of a channel answered at bring-up (R342, R343): the LUN field value, whether the CE carries a
signature, whether a parameter page copy passed its CRC, and what that page declares. -/
structure DieReport where
  lun : Nat
  answered : Bool := false
  paramOk : Bool := false
  id : W64 := 0
  /-- 0 none, 1 NV-DDR3, 2 NV-LPDDR4, 3 Toggle -/
  iface : Nat := 0
  /-- bit b set: bin b declared for that interface -/
  bins : Nat := 0
  physPage : Nat := 0
  planes : Nat := 0
  blocks : Nat := 0
  pages : Nat := 0
  bits : Nat := 0
  required : Bool := false
  /-- READ STATUS ENHANCED and RESET LUN declared -/
  enhanced : Bool := false
  resets : Bool := false
  lunFeatures : Bool := false
  /-- READ PAGE MULTI-PLANE, MULTI-PLANE PROGRAM and MULTI-PLANE ERASE declared -/
  multiRead : Bool := false
  multiProgram : Bool := false
  multiErase : Bool := false
  /-- READ DQ TRAINING, WRITE DQ TRAINING and ZQ CALIBRATION LONG declared -/
  readDq : Bool := false
  writeDq : Bool := false
  zq : Bool := false
  /-- duty-cycle training of its output declared (R345) -/
  dutyCycle : Bool := false
  row : RowPlan := {}
  /-- sets of planes, as masks, that the parameter data do not declare for a multi-plane operation, and whether the blocks of one
  operation are free of address restrictions (R343) -/
  barred : List Nat := []
  anyBlocks : Bool := false
  /-- read-retry options the die declares, 0 when it declares no read-retry feature -/
  dieOptions : Nat := 0
  tBers : Nat := 0
  tProg : Nat := 0
  tR : Nat := 0
  tCcs : Nat := 0
  tFeat : Nat := 0
deriving DecidableEq, Repr

/-- Full training of one CE at one bin (R345): the narrowest read eye in taps and whether verification matched. -/
structure EyeReport where
  ce : Nat
  bin : Nat
  eye : Nat
  verified : Bool
deriving DecidableEq, Repr

/-- One bit of a tracking pass (R346, R347): did the centre burst pass, and the direction of the better side
(0 none, 1 up, 2 down). -/
structure TrackBurst where
  bit : Nat
  centre : Bool
  toward : Nat
deriving DecidableEq, Repr

/-- One record page of a refuge block (R361, R362), written or read: its LUN, block (2 or 3) and page on plane 0, its header, the
record of line 0 and the payload of lines 1 on. rung says where in the ladder its lines decode when it is read: rung 0 or 1, or the
step of a read-retry option of the die (R463). -/
structure RefugePage where
  lun : Nat
  block : Nat
  page : Nat
  header : W512
  record : W512
  payload : List W512
  rung : Nat
deriving DecidableEq, Repr

/-- What has arrived for the first unit in transfer on a port: a slot, and of a unit longer than a slot (a header, R155) the bytes
after it. -/
structure Received where
  slot : Slot
  rest : List Byte
deriving DecidableEq, Repr

/-- One page of a damage scan (R373): its FPA and the lines that failed the ladder, and whether it has a valid header. -/
structure ScanPage where
  fpa : W64
  failing : Nat
  header : Bool
deriving DecidableEq, Repr

/-- One marker record read from a flag block of a LUN (R220), with the flag block and the page it stands in, and where in the
ladder its line decodes (R463). -/
structure MarkerFound where
  lun : Nat
  block : Nat
  page : Nat
  /-- the page has a valid header -/
  header : Bool
  record : W512
  rung : Nat
deriving DecidableEq, Repr

/-- What a ridge's recovery has read from flash when it reaches step 4 of R371. -/
structure RidgeFound where
  ridge : Nat
  pages : List RefugePage
  /-- the highest EPOCH of any page header read -/
  headerEpoch : Nat
  markers : List MarkerFound
  /-- the handle and the TARGET of the header of each granule page read -/
  granules : List (BitVec 32 × W64)
  scan : List ScanPage
  /-- (LUN, plane) pairs of the standby set whose erase failed -/
  badStandby : List (Nat × Nat)
deriving DecidableEq, Repr

/-- One line of a granule page as recovery read it: the stored data with META0 and META1, and where in the ladder it decodes
(R463), or a line lost. -/
structure RefugeLine where
  data : BitVec 528
  lost : Bool
  rung : Nat
deriving DecidableEq, Repr

/-- One granule page of a unit under restoration (R364, R374): the LUN it was read from, the plane offset in the unit, and its
lines; header false when the page has no valid header. -/
structure RefugeGranule where
  lun : Nat
  plane : Nat
  header : Bool
  lines : List RefugeLine
deriving DecidableEq, Repr

/-- The islands and memories whose self-test ends on their own (R447, R376). -/
inductive SelfTest where
  | ports
  | decoder (d : Nat)
  | ledge (r : Nat)
  | spurStores (sp : Nat)
  | dictionary
  | keyPort
  | log
deriving DecidableEq, Repr


/-- The commands of the block: one constructor per row of the opcode table. -/
inductive Instr where
  /-- DOORBELL_WRITE (R56). -/
  | doorbellWrite (off len : Nat) (data : BitVec 128)
  /-- TREAD (R429). -/
  | tread (off len tag : Nat)
  /-- FETCH_TURN (R67). -/
  | fetchTurn
  /-- ENTRY_FETCH_RESPONSE (R67). -/
  | entryFetchResponse (tag : Nat) (err : Bool) (data : List W512)
  /-- LINE_READ (R115). -/
  | lineRead (q : Nat)
  /-- SECTOR_READ (R129). -/
  | sectorRead (q : Nat)
  /-- PAGE_READ (R129). -/
  | pageRead (q : Nat)
  /-- GATHER_LINE_READ (R99). -/
  | gatherLineRead (q : Nat)
  /-- LINE_WRITE (R185). -/
  | lineWrite (q : Nat)
  /-- UNIT_OPEN (R182). -/
  | unitOpen (q : Nat)
  /-- UNIT_COMMIT (R192). -/
  | unitCommit (q : Nat)
  /-- PAGE_PROGRAM (R197). -/
  | pageProgram (q : Nat)
  /-- ERASE (R208). -/
  | erase (q : Nat)
  /-- COPYBACK (R225). -/
  | copyback (q : Nat)
  /-- SCRUB_RANGE (R233). -/
  | scrubRange (q : Nat)
  /-- REPAIR_SERVE (R258). -/
  | repairServe (q : Nat)
  /-- FENCE (R75). -/
  | fence (q : Nat)
  /-- GET_FEATURES (R348). -/
  | getFeatures (step : FeatStep)
  /-- SET_FEATURES (R348). -/
  | setFeatures (step : FeatStep)
  /-- LUN_GET_FEATURES (R348). -/
  | lunGetFeatures (step : FeatStep)
  /-- LUN_SET_FEATURES (R348). -/
  | lunSetFeatures (step : FeatStep)
  /-- INTEGRATOR_OPCODE (R93). -/
  | integratorOpcode (q : Nat)
  /-- HOLD_TIMEOUT (R16). -/
  | holdTimeout (n : Nat)
  /-- DESCRIPTOR_POP (R21). -/
  | descriptorPop (spur ctx : Nat)
  /-- RETIRE_ENTRY (R70). -/
  | retireEntry (q : Nat)
  /-- STATUS_WRITE_RESPONSE (R70). -/
  | statusWriteResponse (tag : Nat) (err : Bool)
  /-- DONE_WORD_TIMER (R71). -/
  | doneWordTimer (q : Nat)
  /-- DONE_WORD_RESPONSE (R71). -/
  | doneWordResponse (tag : Nat) (err : Bool)
  /-- QUEUE_ENABLE (R62). -/
  | queueEnable (mid q : Nat)
  /-- QUEUE_DISABLE (R63). -/
  | queueDisable (mid q : Nat)
  /-- QUEUE_OFF (R63). -/
  | queueOff (q : Nat)
  /-- QERR_WRITE (R61). -/
  | qerrWrite (mid q v : Nat)
  /-- WATERMARK_WRITE (R88). -/
  | watermarkWrite (mid q v : Nat)
  /-- POOL_PEAK_WRITE (R68). -/
  | poolPeakWrite (mid v : Nat)
  /-- FENCE_COMPLETE (R75). -/
  | fenceComplete (q : Nat)
  /-- NOTICE_RING_ENABLE (R80). -/
  | noticeRingEnable (mid n : Nat)
  /-- NOTICE_RING_DISABLE (R80). -/
  | noticeRingDisable (mid n : Nat)
  /-- NOTICE_RECORD_WRITE (R81). -/
  | noticeRecordWrite (n : Nat)
  /-- NOTICE_RECORD_RESPONSE (R82). -/
  | noticeRecordResponse (tag : Nat) (err : Bool)
  /-- TAIL_WORD_RESPONSE (R81). -/
  | tailWordResponse (tag : Nat) (err : Bool)
  /-- MESSAGE_WRITE_RESPONSE (R82). -/
  | messageWriteResponse (tag : Nat) (err : Bool)
  /-- MSG_HOLDOFF_EXPIRY (R83). -/
  | msgHoldoffExpiry (n : Nat)
  /-- HEAD_WORD_REREAD (R81). -/
  | headWordReread (n : Nat)
  /-- HEAD_WORD_RESPONSE (R81). -/
  | headWordResponse (tag : Nat) (err : Bool) (v : W64)
  /-- REGION_ENABLE (R40). -/
  | regionEnable (mid r : Nat)
  /-- REGION_DISABLE (R41). -/
  | regionDisable (mid r : Nat)
  /-- REGION_STOPPED (R41). -/
  | regionStopped (r : Nat)
  /-- TV_STATE_WRITE (R44). -/
  | tvStateWrite (mid r v : Nat)
  /-- GAP_MOVE_COMMIT (R46). -/
  | gapMoveCommit (r lun : Nat)
  /-- PORT_PHASE_SELECT (R124). -/
  | portPhaseSelect (spur port : Nat)
  /-- STATUS_POLL (R128). -/
  | statusPoll (lun : Nat) (byte : Byte)
  /-- BUSY_TIMEOUT (R333). -/
  | busyTimeout (lun us : Nat)
  /-- ARRAY_READ_DONE (R120). -/
  | arrayReadDone (lun : Nat)
  /-- SLOT_RECEIVED (R147). -/
  | slotReceived (spur port : Nat) (slot : Received)
  /-- READ_DATA_WRITE_RESPONSE (R97). -/
  | readDataWriteResponse (tag : Nat) (err : Bool)
  /-- HOLD_WINDOW_EXPIRY (R123). -/
  | holdWindowExpiry (entry : Nat)
  /-- RESUME_RUN_ELAPSED (R132). -/
  | resumeRunElapsed (lun : Nat)
  /-- SUSPEND_OBSERVED (R340). -/
  | suspendObserved (lun : Nat)
  /-- SUSPEND_POLL_TIMEOUT (R340). -/
  | suspendPollTimeout (lun us : Nat)
  /-- SUSPEND_WINDOW_EXPIRY (R133). -/
  | suspendWindowExpiry (lun : Nat)
  /-- RESUME_ISSUE (R133). -/
  | resumeIssue (lun : Nat)
  /-- DECODER_ASSIGN (R23). -/
  | decoderAssign (ridge : Nat)
  /-- DECODER_WAIT_TIMEOUT (R164). -/
  | decoderWaitTimeout (ridge : Nat)
  /-- OUTER_DECODE_DONE (R154). -/
  | outerDecodeDone (island dec : Nat)
  /-- THRESHOLDS_SET (R165). -/
  | thresholdsSet (lun : Nat)
  /-- CHASE_DECODE_DONE (R162). -/
  | chaseDecodeDone (island dec : Nat)
  /-- STEP_ZERO_RESTORED (R161). -/
  | stepZeroRestored (lun : Nat)
  /-- TALUS_SYNC (R169). -/
  | talusSync
  /-- POISON_REMOVE (R175). -/
  | poisonRemove (mid : Nat)
  /-- LINE_STORE (R186). -/
  | lineStore (handle : BitVec 32)
  /-- UNIT_COMMITTED (R192). -/
  | unitCommitted (handle : BitVec 32)
  /-- SECTOR_SEALED (R194). -/
  | sectorSealed (ridge engine : Nat)
  /-- WL_FILL_EXPIRY (R195). -/
  | wlFillExpiry (handle : BitVec 32)
  /-- PROGRAM_START (R180). -/
  | programStart (handle : BitVec 32)
  /-- DATA_IN_SEGMENT_DONE (R22). -/
  | dataInSegmentDone (spur port : Nat)
  /-- PROGRAM_RESULT (R198). -/
  | programResult (lun failMask : Nat) (byte : Byte)
  /-- UNIT_RELEASE (R201). -/
  | unitRelease (handle : BitVec 32)
  /-- ERASE_COMMAND_ISSUE (R209). -/
  | eraseCommandIssue (lun : Nat)
  /-- INTENT_MARKER_RESULT (R218). -/
  | intentMarkerResult (lun : Nat) (byte : Byte)
  /-- ERASE_RESULT (R210). -/
  | eraseResult (lun failMask : Nat) (byte : Byte)
  /-- DONE_MARKER_RESULT (R221). -/
  | doneMarkerResult (lun : Nat) (byte : Byte)
  /-- HE_REMOVE (R222). -/
  | heRemove (mid : Nat)
  /-- PROBE_RESULT (R224). -/
  | probeResult (lun : Nat) (zeros : List Nat)
  /-- SCRUB_STEP_DUE (R227). -/
  | scrubStepDue (r : Nat)
  /-- SCRUB_PAGE_ASSESSED (R229). -/
  | scrubPageAssessed (spur ctx : Nat)
  /-- LINK_ENABLE (R251). -/
  | linkEnable (mid l : Nat)
  /-- LINK_DISABLE (R251). -/
  | linkDisable (mid l : Nat)
  /-- HELLO_TIMER (R251). -/
  | helloTimer (l : Nat)
  /-- HELLO (R251). -/
  | hello (l : Nat) (flit : Flit)
  /-- OPEN (R250). -/
  | openFrame (l : Nat) (flit : Flit)
  /-- LINE (R250). -/
  | lineFrame (l : Nat) (flit : Flit)
  /-- COMMIT (R250). -/
  | commitFrame (l : Nat) (flit : Flit)
  /-- DISCARD (R250). -/
  | discardFrame (l : Nat) (flit : Flit)
  /-- PAGE (R250). -/
  | pageFrame (l : Nat) (flit : Flit) (data : List Flit) (tail : Flit)
  /-- ERASE_FRAME (R250). -/
  | eraseFrame (l : Nat) (flit : Flit)
  /-- COPY (R250). -/
  | copyFrame (l : Nat) (flit : Flit)
  /-- DEGRADE (R254). -/
  | degradeFrame (l : Nat) (flit : Flit)
  /-- REPAIR_REQ (R257). -/
  | repairReq (l : Nat) (flit : Flit)
  /-- REPAIR (R259). -/
  | repairFrame (l : Nat) (flit : Flit) (data : List Flit) (tail : Flit)
  /-- ACK (R247). -/
  | ack (l : Nat) (flit : Flit)
  /-- CREDIT_TIMEOUT (R244). -/
  | creditTimeout (l : Nat)
  /-- REPLAY_TIMEOUT (R245). -/
  | replayTimeout (l seq : Nat)
  /-- HOP_DEADLINE (R248). -/
  | hopDeadline (l seq pos : Nat)
  /-- REPAIR_TIMEOUT (R257). -/
  | repairTimeout (id : BitVec 32)
  /-- LANES_DOWN (R251). -/
  | lanesDown (l : Nat)
  /-- MIRROR_RESYNC (R252). -/
  | mirrorResync (mid r : Nat)
  /-- MIRROR_SYNCED (R252). -/
  | mirrorSynced (mid r : Nat)
  /-- MIRROR_DEGRADE (R252). -/
  | mirrorDegrade (mid r : Nat)
  /-- LOAD (R271). -/
  | load (mid : Nat)
  /-- DERIVE (R272). -/
  | derive (mid : Nat)
  /-- KEY_LOCK_RETRY (R270). -/
  | keyLockRetry
  /-- LOCK_TIMEOUT (R270). -/
  | lockTimeout
  /-- KEY_ACCESS_ACK (R435). -/
  | keyAccessAck (err : Bool) (rdata : BitVec 32)
  /-- KEY_ACCESS_TIMEOUT (R435). -/
  | keyAccessTimeout
  /-- KEY_STATUS_POLL (R271). -/
  | keyStatusPoll
  /-- OP_TIMEOUT (R273). -/
  | opTimeout
  /-- ERASE_SLOT (R267). -/
  | eraseSlot (mid v : Nat)
  /-- KEY_CACHE_FILL (R268). -/
  | keyCacheFill (ridge slot gen : Nat)
  /-- TAG_VERIFY_DONE (R282). -/
  | tagVerifyDone (ridge engine : Nat)
  /-- MICROWORD_EXECUTE (R291). -/
  | microwordExecute (spur : Nat)
  /-- CONTEXT_TIMER_EXPIRY (R292). -/
  | contextTimerExpiry (spur ctx : Nat)
  /-- WATCHDOG_EXPIRY (R296). -/
  | watchdogExpiry (spur : Nat)
  /-- SPARE_TAKEOVER (R318). -/
  | spareTakeover (spur ready : Nat)
  /-- SPARE_CLOCK_SWITCHED (R20). -/
  | spareClockSwitched (g : Nat)
  /-- REARM (R320). -/
  | rearm (mid g : Nat)
  /-- IMAGE_CMD (R309). -/
  | imageCmd (mid v : Nat)
  /-- IMAGE_LOAD_COMPLETE (R309). -/
  | imageLoadComplete
  /-- SPUR_ENABLE (R321). -/
  | spurEnable (mid sp : Nat)
  /-- SPUR_DISABLE (R321). -/
  | spurDisable (mid sp : Nat)
  /-- RIDGE_ENABLE (R321). -/
  | ridgeEnable (mid r : Nat)
  /-- RIDGE_DISABLE (R321). -/
  | ridgeDisable (mid r : Nat)
  /-- DRAIN_COMPLETE (R321). -/
  | drainComplete (isRidge : Bool) (n : Nat)
  /-- REJOIN_DONE (R323). -/
  | rejoinDone (isRidge : Bool) (n : Nat)
  /-- ENGINE_FAULTED_WRITE (R321). -/
  | engineFaultedWrite (mid sp : Nat)
  /-- MBOX_LOCK_READ (R312). -/
  | mboxLockRead (mid sp : Nat)
  /-- MBOX_LOCK_RELEASE (R312). -/
  | mboxLockRelease (mid sp : Nat)
  /-- MBOX_LOCK_FORCE (R312). -/
  | mboxLockForce (mid sp : Nat)
  /-- IN_DATA_WRITE (R313). -/
  | inDataWrite (mid sp w v : Nat)
  /-- IN_POST (R313). -/
  | inPost (mid sp v : Nat)
  /-- MAILBOX_TAKEN (R313). -/
  | mailboxTaken (sp : Nat)
  /-- OUT_ACK (R315). -/
  | outAck (mid sp v : Nat)
  /-- OUT_TIMEOUT (R315). -/
  | outTimeout (sp : Nat)
  /-- BRINGUP_DONE (R342). -/
  | bringupDone (c : Nat) (dies : List DieReport) (eyes : List EyeReport)
  /-- REDISCOVER (R341). -/
  | rediscover (mid c : Nat)
  /-- TRACKING_PASS (R346). -/
  | trackingPass (c ce : Nat) (bursts : List TrackBurst)
  /-- FULL_TRAINING_DONE (R347). -/
  | fullTrainingDone (c : Nat) (eyes : List EyeReport)
  /-- RAIL_SAMPLE (R353). -/
  | railSample (code : Nat)
  /-- RAIL_ARMED (R354). -/
  | railArmed
  /-- RAIL_WARNING (R354). -/
  | railWarning
  /-- RAIL_RECOVERED (R354). -/
  | railRecovered
  /-- LEDGER_GRANT (R357). -/
  | ledgerGrant
  /-- ADMISSION_RESUMED (R358). -/
  | admissionResumed
  /-- RIDGE_CLOSING_DONE (R365). -/
  | ridgeClosingDone (r : Nat)
  /-- SEQUENCE_COMPLETE (R365). -/
  | sequenceComplete
  /-- SHUTDOWN (R369). -/
  | shutdown (mid : Nat)
  /-- SHUTDOWN_COMPLETE (R369). -/
  | shutdownComplete
  /-- RECOVERY_BARRIER (R371). -/
  | recoveryBarrier (found : List RidgeFound)
  /-- UNIT_RESTORE (R374). -/
  | unitRestore (r i : Nat) (pages : List RefugeGranule)
  /-- DROP_PENDING (R374). -/
  | dropPending (mid v : Nat)
  /-- IDLE_ENTRY (R378). -/
  | idleEntry (r t : Nat)
  /-- WAKE (R379). -/
  | wake (r : Nat)
  /-- WAKE_COMPLETE (R19). -/
  | wakeComplete (r : Nat)
  /-- IDLE_HINT_US (R378). -/
  | idleHintUs (mid r v : Nat)
  /-- IDLE_HINT_EXPIRY (R378). -/
  | idleHintExpiry (r : Nat)
  /-- RAIL_MIN_MV_WRITE (R381). -/
  | railMinMvWrite (mid v : Nat)
  /-- DEMAND_PEAK_WRITE (R381). -/
  | demandPeakWrite (mid v : Nat)
  /-- DICTIONARY_WRITE (R387). -/
  | dictionaryWrite (mid addr be data : Nat)
  /-- READ (R397). -/
  | crestRead (syms : List (BitVec 16))
  /-- WRITE (R399). -/
  | crestWrite (syms : List (BitVec 16))
  /-- SELECT_READ (R399). -/
  | selectRead (syms : List (BitVec 16))
  /-- FRAME_FORWARD (R398). -/
  | frameForward (syms : List (BitVec 16))
  /-- CRESTLINE_ENABLE (R400). -/
  | crestlineEnable (mid : Nat)
  /-- RING_CHECK (R400). -/
  | ringCheck
  /-- RING_CHECK_RETURN (R398). -/
  | ringCheckReturn (ns : Nat) (syms : List (BitVec 16))
  /-- RING_CHECK_TIMEOUT (R400). -/
  | ringCheckTimeout
  /-- CAIRN_RECORD (R403). -/
  | cairnRecord
  /-- RECORD_PORT_SEND (R408). -/
  | recordPortSend (hold : Bool)
  /-- PORT_SEQ_WRITE (R408). -/
  | portSeqWrite (mid v : Nat)
  /-- RATE_WRITE (R406). -/
  | rateWrite (mid v : Nat)
  /-- NONCE_REQ (R412). -/
  | nonceReq (mid : Nat)
  /-- NONCE_EXPIRY (R412). -/
  | nonceExpiry
  /-- CLEAR_CMD (R414). -/
  | clearCmd (mid : Nat)
  /-- CLEAR_REMOVE (R414). -/
  | clearRemove
  /-- CLEAR_WAIT_TIMEOUT (R414). -/
  | clearWaitTimeout
  /-- CLEAR_KEY_INDEX_WRITE (R413). -/
  | clearKeyIndexWrite (mid v : Nat)
  /-- INJECT_ENGINE (R422). -/
  | injectEngine (mid v : Nat)
  /-- INJECT_MEM (R422). -/
  | injectMem (mid v : Nat)
  /-- MEMORY_ERROR (R417). -/
  | memoryError (cls inst addr : Nat) (bad : Bool)
  /-- FABRIC_TIMEOUT (R428). -/
  | fabricTimeout (tag : Nat)
  /-- LATE_RESPONSE (R428). -/
  | lateResponse (tag : Nat)
  /-- AO_RESET (R444). -/
  | aoReset
  /-- BLOCK_RESET (R446). -/
  | blockReset
  /-- AO_RESET_RELEASE (R444). -/
  | aoResetRelease
  /-- BLOCK_RESET_RELEASE (R447). -/
  | blockResetRelease
  /-- SELF_TEST_DONE (R447). -/
  | selfTestDone (what : SelfTest) (pass : Bool)
  /-- SENSOR_CONVERSION (R456). -/
  | sensorConversion (n : Nat) (temp : Int)
  /-- SENSOR_FAULT (R456). -/
  | sensorFault (n : Nat)
  /-- TEMP_PEAK_WRITE (R460). -/
  | tempPeakWrite (mid n v : Nat)
  /-- READ_DATA (R97). -/
  | readData (tag : Nat) (err : Bool) (data : List W512)
  /-- RESERVED_KIND_MESSAGE (R425). -/
  | reservedKindMessage (kind : Nat)
  /-- DISCARDED_FRAME (R397). -/
  | discardedFrame (syms : List (BitVec 16))
  /-- RETURNING_FRAME (R398). -/
  | returningFrame (syms : List (BitVec 16))
deriving DecidableEq, Repr

end Sys2Proof
end

