-- ==== Sys2Proof/Decode.lean ====
section
/-! DEFINITION. The word decoder the host's interface asks for. The block has no instruction decoder: its opcode table
gives no row any bits, so no word spells a command. (The formats the block does decode, entries, flits, frames, dictionary
words and microwords, stand in Machine/Formats.lean and the family files.) -/

namespace Sys2Proof

/-- The command a word of nbits bits spells by the opcode table's bits: none, since no row has bits. -/
def decodeTableWord (_nbits _w : Nat) : Option Instr := none

end Sys2Proof
end

