-- ==== Sys2Proof/Config.lean ====
section
/-! DEFINITION. What an implementation fixes and what the manual leaves open. Every constant here that has no body is a
FREE VALUE: nothing can be proved of it, so a claim that holds, holds whatever it is. -/

namespace Sys2Proof.Config

/-- FREE VALUE. Which of several free places the block takes where the manual says only that it may take any: the unit
record and granules of a new unit (R179), the tag of a request (R427), the place in the tracking pool (R68, R303).
The argument is the model's counter of such choices. -/
opaque freePick : Nat → Nat

/-- FREE VALUE. The value an ALU operation leaves where R293 names the operation and gives no result: the carry of a
logical operation, a shift by 64 or more, an out-of-range field. -/
opaque freeAlu : Nat → BitVec 64

/-- FREE VALUE. A flag an ALU operation leaves where R293 gives none. -/
opaque freeFlag : Nat → Bool

/-- FREE VALUE. The status byte a die reports for an erase or a program that the block does for itself inside a switch of
flag blocks (R219): bit 0 set is a failure. -/
opaque freeDie : Nat → BitVec 8

/-- FREE VALUE. How many read levels a read of a page type uses (R167, R337), by cell mode and position on the wordline: the
manual gives a number for SLC alone. -/
opaque pageLevels : Nat → Nat → Nat

/-- FREE VALUE. The data bytes a copy stores for a line that failed the whole ladder: "as recovered", the manual says, and not
how (R225). The argument is the model's counter of such choices. -/
opaque freeLine : Nat → BitVec 512

end Sys2Proof.Config
end

