-- ==== Sys2Proof/Machine/Formats.lean ====
section
/-! DEFINITION. The bit formats the block reads and writes: flash addresses, entries, the status word, CRC-32C, byte order.
Each accessor is one row of a layout table of the manual. -/

namespace Sys2Proof.Machine

/-! ### Bytes -/

/-- The first n bytes of a word, byte i being bits [8i+7:8i]. -/
def bytesOf {m : Nat} (n : Nat) (w : BitVec m) : List Byte :=
  (List.range n).map (fun i => w.extractLsb' (8 * i) 8)

/-- The number bytes spell, the first lowest. -/
def natOfBytes : List Byte → Nat
  | [] => 0
  | b :: r => b.toNat + 256 * natOfBytes r

/-- The word bytes spell, the first lowest. -/
def wordOfBytes (m : Nat) (l : List Byte) : BitVec m := BitVec.ofNat m (natOfBytes l)

/-- The n bytes of a number, little-endian. -/
def leBytes (n v : Nat) : List Byte := (List.range n).map (fun i => BitVec.ofNat 8 (v / 256 ^ i))

/-- The n bytes of a number, big-endian. -/
def beBytes (n v : Nat) : List Byte := (leBytes n v).reverse

/-- The low m bits of a number as a signed value. -/
def signed (m v : Nat) : Int := if v % 2 ^ m < 2 ^ (m - 1) then Int.ofNat (v % 2 ^ m) else Int.ofNat (v % 2 ^ m) - (2 ^ m : Int)

/-- A signed value in m bits, two's complement. -/
def unsigned (m : Nat) (v : Int) : Nat := (v % (2 ^ m : Int)).toNat

/-! ### CRC-32C (R157) -/

/-- One bit of the reflected CRC-32C. -/
def crcBit (c : BitVec 32) : BitVec 32 :=
  if c.getLsbD 0 then (c >>> 1) ^^^ 0x82F63B78#32 else c >>> 1

/-- One byte. -/
def crcByte (c : BitVec 32) (b : Byte) : BitVec 32 :=
  let x := c ^^^ b.setWidth 32
  crcBit (crcBit (crcBit (crcBit (crcBit (crcBit (crcBit (crcBit x)))))))

/-- CRC-32C: Castagnoli, reflected, initial value and final XOR all ones. -/
def crc32c (l : List Byte) : BitVec 32 := (l.foldl crcByte 0xFFFFFFFF#32) ^^^ 0xFFFFFFFF#32

/-! ### Flash addresses (R33) -/

/-- Bit T: the block field is logical. -/
def fT (f : W64) : Bool := f.getLsbD 63
/-- Channel. -/
def fChan (f : W64) : Nat := bitsOf f 62 56
/-- LUN within the channel. -/
def fLun (f : W64) : Nat := bitsOf f 55 52
/-- Plane. -/
def fPlane (f : W64) : Nat := bitsOf f 51 49
/-- Block, physical or logical by T. -/
def fBlock (f : W64) : Nat := bitsOf f 48 34
/-- Page. -/
def fPage (f : W64) : Nat := bitsOf f 33 20
/-- Line. -/
def fLine (f : W64) : Nat := bitsOf f 19 12
/-- Reserved bits. -/
def fRes (f : W64) : Nat := bitsOf f 11 0
/-- Block-wide LUN number (R9). -/
def fBlun (f : W64) : Nat := fChan f * 16 + fLun f
/-- Spur (R9). -/
def fSpur (f : W64) : Nat := fChan f / 2
/-- Port within the spur (R9). -/
def fPort (f : W64) : Nat := fChan f % 2
/-- Ridge (R9). -/
def fRidge (f : W64) : Nat := fChan f / 8
/-- Cornice entry (R9). -/
def cornOf (blun plane : Nat) : Nat := blun * 6 + plane

/-- Build an FPA. -/
def mkFpa (t : Bool) (ch lun pl blk pg ln : Nat) : W64 :=
  place 64 63 (if t then 1 else 0) ||| place 64 56 (ch % 128) ||| place 64 52 (lun % 16) ||| place 64 49 (pl % 8)
    ||| place 64 34 (blk % 32768) ||| place 64 20 (pg % 16384) ||| place 64 12 (ln % 256)

/-- The same address on a block-wide LUN. -/
def mkFpaB (t : Bool) (blun pl blk pg ln : Nat) : W64 := mkFpa t (blun / 16) (blun % 16) pl blk pg ln

/-- f with its plane replaced. -/
def fSetPlane (f : W64) (p : Nat) : W64 := mkFpa (fT f) (fChan f) (fLun f) p (fBlock f) (fPage f) (fLine f)
/-- f with its line replaced. -/
def fSetLine (f : W64) (l : Nat) : W64 := mkFpa (fT f) (fChan f) (fLun f) (fPlane f) (fBlock f) (fPage f) l
/-- f with its page replaced. -/
def fSetPage (f : W64) (p : Nat) : W64 := mkFpa (fT f) (fChan f) (fLun f) (fPlane f) (fBlock f) p (fLine f)
/-- f with T and block replaced. -/
def fSetBlock (f : W64) (t : Bool) (b : Nat) : W64 := mkFpa t (fChan f) (fLun f) (fPlane f) b (fPage f) (fLine f)

/-! ### Entries (R89 to R105) -/

/-- Byte 0. -/
def eOpcode (e : W512) : Nat := bitsOf e 7 0
/-- Byte 1. -/
def eFlags (e : W512) : Nat := bitsOf e 15 8
/-- NOTIFY. -/
def eNotify (e : W512) : Bool := e.getLsbD 15
/-- INDIRECT. -/
def eIndirect (e : W512) : Bool := e.getLsbD 14
/-- OWN_TWEAK. -/
def eOwnTweak (e : W512) : Bool := e.getLsbD 13
/-- NUM. -/
def eNum (e : W512) : Nat := bitsOf e 10 8
/-- TAG. -/
def eTag (e : W512) : Nat := bitsOf e 31 16
/-- REGION. -/
def eRegion (e : W512) : Nat := bitsOf e 47 32
/-- SCOPE_HINT. -/
def eHint (e : W512) : Nat := bitsOf e 63 48
/-- The 8-byte field at byte n. -/
def eWord (e : W512) (n : Nat) : W64 := e.extractLsb' (8 * n) 64
/-- FPA, at bytes 8 to 15. -/
def eFpa (e : W512) : W64 := eWord e 8
/-- DATA_ADDR, at bytes 16 to 23. -/
def eAddr (e : W512) : Nat := (eWord e 16).toNat
/-- FRAG_COUNT, at bytes 24 and 25 (R98). -/
def eFrag (e : W512) : Nat := bitsOf e 207 192
/-- TWEAK of R98 and of LINE_WRITE (R100). -/
def eTweak (e : W512) : W64 := if eOpcode e = 0x08 then eWord e 40 else eWord e 32
/-- BYTE_MASK. -/
def eMask (e : W512) : W64 := eWord e 24
/-- MERGE_FPA. -/
def eMerge (e : W512) : W64 := eWord e 32
/-- UNIT. -/
def eUnit (e : W512) : BitVec 32 := e.extractLsb' 384 32
/-- TARGET_FPA. -/
def eTarget (e : W512) : W64 := eWord e 16
/-- PAGE_COUNT or REQUEST_ID, [159:128]. -/
def eArg (e : W512) : Nat := bitsOf e 159 128
/-- PARAMS. -/
def eParams (e : W512) : BitVec 32 := e.extractLsb' 160 32
/-- FEATURE. -/
def eFeature (e : W512) : Nat := bitsOf e 143 136
/-- SUBOP. -/
def eSubop (e : W512) : Nat := bitsOf e 135 128
/-- The FPAs of a gather entry, slot i (R99). -/
def eGather (e : W512) (i : Nat) : W64 := if i = 0 then eWord e 8 else eWord e (16 + 8 * i)

/-- The fields of the status word, 8 bytes (R108). -/
def statusWord (code detail extra : Nat) : W64 :=
  place 64 0 (code % 65536) ||| place 64 16 (detail % 65536) ||| place 64 32 (extra % 2 ^ 32)

/-! ### Unit handles (R101) -/

/-- RIDGE. -/
def hRidge (h : BitVec 32) : Nat := bitsOf h 31 28
/-- INDEX. -/
def hIndex (h : BitVec 32) : Nat := bitsOf h 27 16
/-- GEN. -/
def hGen (h : BitVec 32) : Nat := bitsOf h 15 0
/-- Build a handle. -/
def mkHandle (r i g : Nat) : BitVec 32 :=
  place 32 28 (r % 16) ||| place 32 16 (i % 4096) ||| place 32 0 (g % 65536)

/-! ### Stored lines: 64 data bytes, META0, META1 (R141, R142) -/

/-- The data of a stored line. -/
def lData (l : BitVec 528) : W512 := l.extractLsb' 0 512
/-- META0. -/
def lMeta0 (l : BitVec 528) : Byte := l.extractLsb' 512 8
/-- META1. -/
def lMeta1 (l : BitVec 528) : Byte := l.extractLsb' 520 8
/-- VALID. -/
def lValid (l : BitVec 528) : Bool := l.getLsbD 519
/-- POISON. -/
def lPoison (l : BitVec 528) : Bool := l.getLsbD 518
/-- SEALED. -/
def lSealed (l : BitVec 528) : Bool := l.getLsbD 517
/-- WGEN. -/
def lWgen (l : BitVec 528) : Nat := bitsOf l 516 512
/-- Build a stored line. -/
def mkLine (d : W512) (valid poison sealedBit : Bool) (wgen : Nat) (meta1 : Byte) : BitVec 528 :=
  d.setWidth 528 ||| place 528 512 (wgen % 32) ||| place 528 517 (if sealedBit then 1 else 0)
    ||| place 528 518 (if poison then 1 else 0) ||| place 528 519 (if valid then 1 else 0)
    ||| place 528 520 meta1.toNat

/-- R171: the poison pattern of a line, with its cause. -/
def poisonPattern (cause line : Nat) : W512 :=
  let w : Nat := 0xBAD05A1700000000 + (cause % 256) * 256 + line % 256
  (List.range 8).foldl (fun a i => a ||| place 512 (64 * i) w) 0

/-- R186: the bytes of new under a mask, the others from old. -/
def mergeBytes (mask : W64) (new old : W512) : W512 :=
  (List.range 64).foldl (fun a i =>
    a ||| place 512 (8 * i) (if mask.getLsbD i then bitsOf new (8 * i + 7) (8 * i) else bitsOf old (8 * i + 7) (8 * i))) 0

/-- Number of bits set. -/
def popCount {n : Nat} (w : BitVec n) : Nat :=
  (List.range n).foldl (fun a i => if w.getLsbD i then a + 1 else a) 0

/-- The lowest bit set at or above i, by fuel. -/
def lowestFrom {n : Nat} (w : BitVec n) : Nat → Nat → Nat
  | 0, i => i
  | k + 1, i => if w.getLsbD i then i else lowestFrom w k (i + 1)

/-- Saturate at m. -/
def sat (m v : Nat) : Nat := if v ≤ m then v else m

end Sys2Proof.Machine
end

