-- ==== Sys2Proof/Machine/Crypto.lean ====
section
/-! DEFINITION. AES-256 and its modes, as the standards the manual names define them: XTS (IEEE 1619, R275), GCM
(SP 800-38D, R279), CMAC (SP 800-38B, R272). The manual names the standards and does not repeat them: what stands here is
PRESUMED (assumption 10). -/

namespace Sys2Proof.Machine

/-- Doubling in GF(2^8) of AES, polynomial 0x11B. -/
def xtime (b : Byte) : Byte := if b.getLsbD 7 then (b <<< 1) ^^^ 0x1B#8 else b <<< 1

/-- Product in GF(2^8) of AES. -/
def gmul (a b : Byte) : Byte :=
  (List.range 8).foldr (fun i acc => xtime acc ^^^ (if b.getLsbD i then a else 0)) 0

/-- The multiplicative inverse, 0 for 0: the 254th power. -/
def ginv (a : Byte) : Byte :=
  let a2 := gmul a a
  let a4 := gmul a2 a2
  let a8 := gmul a4 a4
  let a16 := gmul a8 a8
  let a32 := gmul a16 a16
  let a64 := gmul a32 a32
  let a128 := gmul a64 a64
  gmul a128 (gmul a64 (gmul a32 (gmul a16 (gmul a8 (gmul a4 a2)))))

/-- The S-box. -/
def sbox (a : Byte) : Byte :=
  let b := ginv a
  b ^^^ b.rotateLeft 1 ^^^ b.rotateLeft 2 ^^^ b.rotateLeft 3 ^^^ b.rotateLeft 4 ^^^ 0x63#8

/-- The inverse S-box. -/
def sboxInv (s : Byte) : Byte := ginv (s.rotateLeft 1 ^^^ s.rotateLeft 3 ^^^ s.rotateLeft 6 ^^^ 0x05#8)

/-- Exclusive or of two byte lists. -/
def xorB (a b : List Byte) : List Byte := List.zipWith (· ^^^ ·) a b

/-- Byte i of a list. -/
def at0 (l : List Byte) (i : Nat) : Byte := l.getD i 0

/-- Next word of the AES-256 key schedule, from the schedule so far (newest word first). -/
def keyWord (i : Nat) (rcon : Byte) (ws : List (List Byte)) : List Byte :=
  let t := ws.getD 0 []
  let b := ws.getD 7 []
  if i % 8 = 0 then
    xorB b ([sbox (at0 t 1) ^^^ rcon, sbox (at0 t 2), sbox (at0 t 3), sbox (at0 t 0)])
  else if i % 8 = 4 then xorB b (t.map sbox)
  else xorB b t

/-- The schedule up to 60 words, newest first. -/
def keyExpand : Nat → Nat → Byte → List (List Byte) → List (List Byte)
  | 0, _, _, ws => ws
  | k + 1, i, rc, ws => keyExpand k (i + 1) (if i % 8 = 0 then xtime rc else rc) (keyWord i rc ws :: ws)

/-- Cut into four-byte words, by fuel. -/
def words4 : Nat → List Byte → List (List Byte)
  | 0, _ => []
  | k + 1, l => l.take 4 :: words4 k (l.drop 4)

/-- The 15 round keys, 16 bytes each. -/
def roundKeys (key : List Byte) : List (List Byte) :=
  let ws := (keyExpand 52 8 0x01#8 (words4 8 key).reverse).reverse
  (List.range 15).map (fun r => (List.range 4).flatMap (fun j => ws.getD (4 * r + j) []))

/-- ShiftRows. -/
def shiftRows (s : List Byte) : List Byte :=
  (List.range 16).map (fun i => at0 s ((i + 4 * (i % 4)) % 16))
/-- Its inverse. -/
def shiftRowsInv (s : List Byte) : List Byte :=
  (List.range 16).map (fun i => at0 s ((i + 16 - 4 * (i % 4)) % 16))
/-- MixColumns with the given first row. -/
def mixWith (c0 c1 c2 c3 : Byte) (s : List Byte) : List Byte :=
  (List.range 16).map (fun i =>
    let b := 4 * (i / 4)
    gmul c0 (at0 s i) ^^^ gmul c1 (at0 s (b + (i + 1) % 4)) ^^^ gmul c2 (at0 s (b + (i + 2) % 4))
      ^^^ gmul c3 (at0 s (b + (i + 3) % 4)))

/-- AES-256 enciphers a 16-byte block. -/
def aesEnc (key block : List Byte) : List Byte :=
  let ks := roundKeys key
  let s0 := xorB block (ks.getD 0 [])
  let s := (List.range 13).foldl (fun s r => xorB (mixWith 2 3 1 1 (shiftRows (s.map sbox))) (ks.getD (r + 1) [])) s0
  xorB (shiftRows (s.map sbox)) (ks.getD 14 [])

/-- AES-256 deciphers a 16-byte block. -/
def aesDec (key block : List Byte) : List Byte :=
  let ks := roundKeys key
  let s0 := (shiftRowsInv (xorB block (ks.getD 14 []))).map sboxInv
  let s := (List.range 13).foldl (fun s r =>
    (shiftRowsInv (mixWith 14 11 13 9 (xorB s (ks.getD (13 - r) [])))).map sboxInv) s0
  xorB s (ks.getD 0 [])

/-- K1 of slot material (R262). -/
def keyK1 (m : W512) : List Byte := (bytesOf 64 m).take 32
/-- K2. -/
def keyK2 (m : W512) : List Byte := (bytesOf 64 m).drop 32

/-- The XTS tweak times α (IEEE 1619, little-endian). -/
def xtsDouble (t : BitVec 128) : BitVec 128 := if t.getLsbD 127 then (t <<< 1) ^^^ 0x87#128 else t <<< 1

/-- The tweak of block j of data unit i. -/
def xtsTweak (m : W512) (du : W64) (j : Nat) : BitVec 128 :=
  (List.range j).foldl (fun t _ => xtsDouble t) (wordOfBytes 128 (aesEnc (keyK2 m) (bytesOf 16 (du.setWidth 128))))

/-- One XTS block, with the cipher given. -/
def xtsBlock (f : List Byte → List Byte → List Byte) (m : W512) (du : W64) (j : Nat) (d : W512) : List Byte :=
  let t := bytesOf 16 (xtsTweak m du j)
  xorB (f (keyK1 m) (xorB (((bytesOf 64 d).drop (16 * j)).take 16) t)) t

/-- R275: encipher a line under slot material m with data unit number du. -/
def xtsEnc (m : W512) (du : W64) (d : W512) : W512 :=
  wordOfBytes 512 ((List.range 4).flatMap (fun j => xtsBlock aesEnc m du j d))
/-- R275: decipher a line. -/
def xtsDec (m : W512) (du : W64) (d : W512) : W512 :=
  wordOfBytes 512 ((List.range 4).flatMap (fun j => xtsBlock aesDec m du j d))

/-- A number as bits, most significant first, of 16 bytes big-endian (GHASH order). -/
def beWord (l : List Byte) : BitVec 128 := wordOfBytes 128 l.reverse

/-- Product in GHASH's field. -/
def ghashMul (x y : BitVec 128) : BitVec 128 :=
  ((List.range 128).foldl (fun (zv : BitVec 128 × BitVec 128) i =>
    (if x.getLsbD (127 - i) then zv.1 ^^^ zv.2 else zv.1,
     if zv.2.getLsbD 0 then (zv.2 >>> 1) ^^^ (0xE1#128 <<< 120) else zv.2 >>> 1)) (0, y)).1

/-- Cut into 16-byte blocks, the last filled with zeros, by fuel. -/
def blocks16 : Nat → List Byte → List (List Byte)
  | 0, _ => []
  | k + 1, l => if l.isEmpty then [] else
      let b := l.take 16
      (b ++ List.replicate (16 - b.length) 0) :: blocks16 k (l.drop 16)

/-- GHASH. -/
def ghash (h : BitVec 128) (bs : List (List Byte)) : BitVec 128 :=
  bs.foldl (fun y b => ghashMul (y ^^^ beWord b) h) 0

/-- Counter block n of R279: IV, then the 32-bit counter. -/
def gcmCtr (du : W64) (n : Nat) : List Byte := leBytes 8 du.toNat ++ [0, 0, 0, 0] ++ beBytes 4 n

/-- Counter mode over the data of a sector's line l (lines 0 to 63): blocks 4l + 2 on. -/
def gcmLine (m : W512) (du : W64) (l : Nat) (d : W512) : W512 :=
  wordOfBytes 512 ((List.range 4).flatMap (fun j =>
    xorB (((bytesOf 64 d).drop (16 * j)).take 16) (aesEnc (keyK1 m) (gcmCtr du (4 * l + j + 2)))))

/-- R279: the tag over additional data and ciphertext of a sector. -/
def gcmTag (m : W512) (du : W64) (meta0 : List Byte) (cipher : List W512) : List Byte :=
  let h := beWord (aesEnc (keyK1 m) (List.replicate 16 0))
  let aad := leBytes 8 du.toNat ++ meta0
  let ct := cipher.flatMap (fun d => bytesOf 64 d)
  let lens := beBytes 8 (8 * aad.length) ++ beBytes 8 (8 * ct.length)
  let s := ghash h (blocks16 (aad.length + 1) aad ++ blocks16 (ct.length + 1) ct ++ [lens])
  xorB (bytesOf 16 s).reverse (aesEnc (keyK1 m) (gcmCtr du 1))

/-- R363: KCV, the first 4 bytes of AES-256 under K1 of 16 zero bytes, little-endian. -/
def keyKcv (m : W512) : Nat := natOfBytes ((aesEnc (keyK1 m) (List.replicate 16 0)).take 4)

end Sys2Proof.Machine
end

