-- ==== Sys2Proof/Machine/OdTable.lean ====
section
/-! DEFINITION. The object dictionary as data: every entry the tables of the manual define, with its type, access,
default and the range a write is held to (R384, R386). Written from the tables of R38, R60, R68, R80, R136, R166, R170,
R175, R176, R177, R207, R235, R236, R261, R285, R324, R352, R381, R382, R383, R392, R393, R395, R402, R416, R422, R450 and
R460. A default that depends on the entry's own number is given by odDefault. -/

namespace Sys2Proof.Machine

/-- Value types of R384. -/
inductive OdTy where
  | u8 | u16 | u32 | u64 | bool | octets
deriving DecidableEq, Repr

/-- Access classes: RW always writable, RWS only while the unit concerned is stopped, RO, WO. -/
inductive OdAcc where
  | ro | rw | rws | wo
deriving DecidableEq, Repr

/-- One row of a dictionary table: subindices sub to last, type, access, default, accepted values lo to hi. -/
structure OdRow where
  sub : Nat
  last : Nat
  ty : OdTy
  acc : OdAcc
  dflt : Nat
  lo : Nat
  hi : Nat
deriving DecidableEq, Repr

/-- Does the row hold subindex s? -/
def OdRow.has (r : OdRow) (s : Nat) : Bool := decide (r.sub ≤ s) && decide (s ≤ r.last)

/-- Index 0x1000. -/
def od1000 : List OdRow :=
 [
  ⟨0, 0, .u8, .ro, 4, 0, 255⟩,
  ⟨1, 1, .u32, .ro, 296, 0, 4294967295⟩,
  ⟨2, 2, .u32, .ro, 131328, 0, 4294967295⟩,
  ⟨3, 3, .u64, .rw, 0, 0, 18446744073709551615⟩,
  ⟨4, 4, .u64, .ro, 0, 0, 18446744073709551615⟩]

/-- Index 0x1010. -/
def od1010 : List OdRow :=
 [
  ⟨0, 0, .u8, .ro, 5, 0, 255⟩,
  ⟨1, 1, .u64, .ro, 0, 0, 18446744073709551615⟩,
  ⟨2, 2, .u16, .ro, 0, 0, 65535⟩,
  ⟨3, 3, .u16, .ro, 0, 0, 65535⟩,
  ⟨4, 4, .u8, .ro, 0, 0, 255⟩,
  ⟨5, 5, .bool, .ro, 0, 0, 1⟩]

/-- Index 0x1020. -/
def od1020 : List OdRow :=
 [
  ⟨0, 0, .u8, .ro, 3, 0, 255⟩,
  ⟨1, 1, .u64, .ro, 0, 0, 18446744073709551615⟩,
  ⟨2, 2, .u64, .ro, 0, 0, 18446744073709551615⟩,
  ⟨3, 3, .u32, .ro, 0, 0, 4294967295⟩]

/-- Index 0x1100. -/
def od1100 : List OdRow :=
 [
  ⟨0, 0, .u8, .ro, 5, 0, 255⟩,
  ⟨1, 1, .u16, .ro, 0, 0, 65535⟩,
  ⟨2, 2, .u8, .rw, 0, 0, 15⟩,
  ⟨3, 3, .u16, .ro, 0, 0, 65535⟩,
  ⟨4, 4, .u16, .ro, 0, 0, 65535⟩,
  ⟨5, 5, .u16, .rw, 0, 0, 65535⟩]

/-- Index 0x1110 to 0x111F. -/
def od1110 : List OdRow :=
 [
  ⟨0, 0, .u8, .ro, 14, 0, 255⟩,
  ⟨1, 1, .bool, .rw, 0, 0, 1⟩,
  ⟨2, 2, .u16, .ro, 0, 0, 65535⟩,
  ⟨3, 3, .u64, .rws, 0, 0, 18446744073709551615⟩,
  ⟨4, 4, .u8, .rws, 8, 0, 255⟩,
  ⟨5, 5, .u64, .rws, 0, 0, 18446744073709551615⟩,
  ⟨6, 6, .u64, .rws, 0, 0, 18446744073709551615⟩,
  ⟨7, 7, .u64, .rws, 0, 0, 18446744073709551615⟩,
  ⟨8, 8, .u32, .rws, 0, 0, 4294967295⟩,
  ⟨9, 9, .u16, .rw, 0, 0, 65535⟩,
  ⟨10, 10, .u16, .ro, 0, 0, 65535⟩,
  ⟨11, 11, .u16, .ro, 0, 0, 65535⟩] ++
 [
  ⟨12, 12, .u16, .ro, 0, 0, 65535⟩,
  ⟨13, 13, .u32, .ro, 0, 0, 4294967295⟩,
  ⟨14, 14, .u64, .ro, 0, 0, 18446744073709551615⟩]

/-- Index 0x1200. -/
def od1200 : List OdRow :=
 [
  ⟨0, 0, .u8, .ro, 8, 0, 255⟩,
  ⟨1, 1, .u32, .rw, 1000, 10, 60000⟩,
  ⟨2, 2, .u32, .ro, 0, 0, 4294967295⟩,
  ⟨3, 3, .u32, .ro, 0, 0, 4294967295⟩,
  ⟨4, 4, .u32, .ro, 0, 0, 4294967295⟩,
  ⟨5, 5, .u32, .ro, 0, 0, 4294967295⟩,
  ⟨6, 6, .u32, .ro, 0, 0, 4294967295⟩,
  ⟨7, 7, .u8, .ro, 1, 0, 255⟩,
  ⟨8, 8, .u32, .ro, 0, 0, 4294967295⟩]

/-- Index 0x2000 to 0x20FF. -/
def od2000 : List OdRow :=
 [
  ⟨0, 0, .u8, .ro, 27, 0, 255⟩,
  ⟨1, 1, .bool, .rw, 0, 0, 1⟩,
  ⟨2, 2, .u16, .ro, 0, 0, 65535⟩,
  ⟨3, 3, .u16, .rws, 0, 0, 65535⟩,
  ⟨4, 4, .u16, .rws, 0, 0, 65535⟩,
  ⟨5, 5, .u8, .rws, 0, 0, 255⟩,
  ⟨6, 6, .u8, .rws, 0, 0, 255⟩,
  ⟨7, 7, .u8, .rws, 0, 0, 255⟩,
  ⟨8, 8, .u32, .rws, 604800, 0, 4294967295⟩,
  ⟨9, 9, .u32, .rws, 0, 0, 4294967295⟩,
  ⟨10, 10, .u8, .rws, 0, 0, 255⟩,
  ⟨11, 11, .u16, .rws, 0, 0, 65535⟩] ++
 [
  ⟨12, 12, .u8, .rws, 0, 0, 255⟩,
  ⟨13, 13, .u8, .rws, 0, 0, 255⟩,
  ⟨14, 14, .u8, .rws, 1, 0, 255⟩,
  ⟨15, 15, .bool, .rws, 0, 0, 1⟩,
  ⟨16, 16, .u16, .rws, 100, 0, 65535⟩,
  ⟨17, 17, .u8, .rws, 0, 0, 255⟩,
  ⟨18, 18, .u8, .rws, 4, 0, 255⟩,
  ⟨19, 19, .bool, .rws, 0, 0, 1⟩,
  ⟨20, 20, .u32, .ro, 0, 0, 4294967295⟩,
  ⟨21, 21, .u32, .ro, 0, 0, 4294967295⟩,
  ⟨22, 22, .u64, .ro, 0, 0, 18446744073709551615⟩,
  ⟨23, 23, .u16, .ro, 0, 0, 65535⟩] ++
 [
  ⟨24, 24, .u16, .rw, 0, 0, 2047⟩,
  ⟨25, 25, .u64, .rws, 2305843009213693952, 0, 18446744073709551615⟩,
  ⟨26, 26, .u8, .rws, 0, 0, 15⟩,
  ⟨27, 27, .u32, .ro, 0, 0, 4294967295⟩]

/-- Index 0x2100. -/
def od2100 : List OdRow :=
 [
  ⟨0, 0, .u8, .ro, 7, 0, 255⟩,
  ⟨1, 1, .u8, .rw, 8, 0, 32⟩,
  ⟨2, 2, .u8, .rw, 16, 1, 63⟩,
  ⟨3, 3, .bool, .rw, 1, 0, 1⟩,
  ⟨4, 4, .bool, .rw, 1, 0, 1⟩,
  ⟨5, 5, .u16, .rw, 1000, 10, 60000⟩,
  ⟨6, 6, .u16, .rw, 0, 0, 65535⟩,
  ⟨7, 7, .u8, .rw, 5, 0, 5⟩]

/-- Index 0x2110 to 0x211F. -/
def od2110 : List OdRow :=
 [
  ⟨0, 0, .u8, .ro, 15, 0, 255⟩,
  ⟨1, 1, .u64, .rws, 0, 0, 18446744073709551615⟩,
  ⟨2, 2, .u64, .ro, 0, 0, 18446744073709551615⟩,
  ⟨3, 3, .u64, .ro, 0, 0, 18446744073709551615⟩,
  ⟨4, 4, .u64, .ro, 0, 0, 18446744073709551615⟩,
  ⟨5, 5, .u64, .ro, 0, 0, 18446744073709551615⟩,
  ⟨6, 6, .u64, .ro, 0, 0, 18446744073709551615⟩,
  ⟨7, 7, .u64, .ro, 0, 0, 18446744073709551615⟩,
  ⟨8, 8, .u64, .ro, 0, 0, 18446744073709551615⟩,
  ⟨9, 9, .u64, .ro, 0, 0, 18446744073709551615⟩,
  ⟨10, 10, .u64, .ro, 0, 0, 18446744073709551615⟩,
  ⟨11, 11, .u64, .ro, 0, 0, 18446744073709551615⟩] ++
 [
  ⟨12, 12, .u64, .ro, 0, 0, 18446744073709551615⟩,
  ⟨13, 13, .u16, .ro, 0, 0, 65535⟩,
  ⟨14, 14, .u32, .ro, 0, 0, 4294967295⟩,
  ⟨15, 15, .u64, .ro, 0, 0, 18446744073709551615⟩]

/-- Index 0x2140 to 0x2147. -/
def od2140 : List OdRow :=
 [
  ⟨0, 0, .u8, .ro, 37, 0, 255⟩,
  ⟨1, 1, .bool, .rws, 0, 0, 1⟩,
  ⟨2, 2, .u8, .rws, 0, 0, 255⟩,
  ⟨3, 3, .u8, .rws, 0, 0, 255⟩,
  ⟨4, 4, .u8, .rws, 4, 0, 63⟩,
  ⟨5, 5, .u8, .rws, 0, 0, 255⟩,
  ⟨6, 37, .u64, .rws, 0, 0, 72057594037927935⟩]

/-- Index 0x2180. -/
def od2180 : List OdRow :=
 [
  ⟨0, 0, .u8, .ro, 8, 0, 255⟩,
  ⟨1, 1, .u16, .rw, 0, 0, 2047⟩,
  ⟨2, 7, .u64, .rws, 0, 0, 18446744073709551615⟩,
  ⟨8, 8, .u8, .ro, 0, 0, 255⟩]

/-- Index 0x21C0. -/
def od21C0 : List OdRow :=
 [
  ⟨0, 0, .u8, .ro, 8, 0, 255⟩,
  ⟨1, 1, .u8, .rw, 0, 0, 15⟩,
  ⟨2, 2, .u8, .rw, 0, 0, 255⟩,
  ⟨3, 3, .u64, .ro, 0, 0, 18446744073709551615⟩,
  ⟨4, 7, .u64, .ro, 0, 0, 18446744073709551615⟩,
  ⟨8, 8, .bool, .wo, 0, 0, 1⟩]

/-- Index 0x2200. -/
def od2200 : List OdRow :=
 [
  ⟨0, 0, .u8, .ro, 10, 0, 255⟩,
  ⟨1, 1, .bool, .rw, 0, 0, 1⟩,
  ⟨2, 2, .u8, .rw, 240, 128, 255⟩,
  ⟨3, 3, .u16, .rw, 64, 0, 65535⟩,
  ⟨4, 4, .u8, .rw, 0, 0, 15⟩,
  ⟨5, 5, .u16, .rw, 0, 0, 511⟩,
  ⟨6, 6, .u64, .ro, 0, 0, 18446744073709551615⟩,
  ⟨7, 7, .bool, .wo, 0, 0, 1⟩,
  ⟨8, 8, .u64, .ro, 0, 0, 18446744073709551615⟩,
  ⟨9, 9, .u64, .ro, 0, 0, 18446744073709551615⟩,
  ⟨10, 10, .u16, .ro, 0, 0, 65535⟩]

/-- Index 0x2210 to 0x221F. -/
def od2210 : List OdRow :=
 [
  ⟨0, 0, .u8, .ro, 6, 0, 255⟩,
  ⟨1, 1, .u64, .ro, 0, 0, 18446744073709551615⟩,
  ⟨2, 2, .u32, .ro, 0, 0, 4294967295⟩,
  ⟨3, 3, .u64, .ro, 0, 0, 18446744073709551615⟩,
  ⟨4, 4, .u32, .ro, 0, 0, 4294967295⟩,
  ⟨5, 5, .u16, .ro, 0, 0, 65535⟩,
  ⟨6, 6, .u64, .ro, 0, 0, 18446744073709551615⟩]

/-- Index 0x2240. -/
def od2240 : List OdRow :=
 [
  ⟨0, 0, .u8, .ro, 3, 0, 255⟩,
  ⟨1, 1, .bool, .rw, 1, 0, 1⟩,
  ⟨2, 2, .u8, .rw, 3, 1, 3⟩,
  ⟨3, 3, .u8, .rw, 1, 1, 4⟩]

/-- Index 0x2300 to 0x23FF. -/
def od2300 : List OdRow :=
 [
  ⟨0, 0, .u8, .ro, 5, 0, 255⟩,
  ⟨1, 1, .u32, .ro, 0, 0, 4294967295⟩,
  ⟨2, 2, .u64, .ro, 0, 0, 18446744073709551615⟩,
  ⟨3, 3, .u64, .ro, 0, 0, 18446744073709551615⟩,
  ⟨4, 4, .u64, .ro, 0, 0, 18446744073709551615⟩,
  ⟨5, 5, .u32, .ro, 0, 0, 4294967295⟩]

/-- Index 0x3000 to 0x3FFF. -/
def od3000 : List OdRow :=
 [
  ⟨0, 0, .u8, .ro, 19, 0, 255⟩,
  ⟨1, 1, .bool, .rw, 0, 0, 1⟩,
  ⟨2, 2, .u16, .ro, 0, 0, 65535⟩,
  ⟨3, 3, .u16, .rw, 0, 0, 65535⟩,
  ⟨4, 4, .u64, .rws, 0, 0, 18446744073709551615⟩,
  ⟨5, 5, .u8, .rws, 8, 0, 255⟩,
  ⟨6, 6, .u64, .rws, 0, 0, 18446744073709551615⟩,
  ⟨7, 7, .u8, .rw, 1, 1, 255⟩,
  ⟨8, 8, .u8, .rw, 4, 1, 16⟩,
  ⟨9, 9, .u16, .rws, 1024, 0, 65535⟩,
  ⟨10, 10, .u8, .rws, 0, 0, 255⟩,
  ⟨11, 11, .u8, .rw, 126, 0, 127⟩] ++
 [
  ⟨12, 12, .u16, .rw, 0, 0, 65535⟩,
  ⟨13, 13, .u16, .ro, 0, 0, 65535⟩,
  ⟨14, 14, .u16, .ro, 0, 0, 65535⟩,
  ⟨15, 15, .u16, .ro, 0, 0, 65535⟩,
  ⟨16, 16, .u16, .ro, 0, 0, 65535⟩,
  ⟨17, 17, .u64, .ro, 0, 0, 18446744073709551615⟩,
  ⟨18, 18, .u32, .ro, 0, 0, 4294967295⟩,
  ⟨19, 19, .u32, .ro, 0, 0, 4294967295⟩]

/-- Index 0x4000. -/
def od4000 : List OdRow :=
 [
  ⟨0, 0, .u8, .ro, 16, 0, 255⟩,
  ⟨1, 1, .u64, .rw, 0, 0, 18446744073709551615⟩,
  ⟨2, 2, .u32, .rw, 0, 0, 4294967295⟩,
  ⟨3, 3, .u32, .rw, 0, 0, 4294967295⟩,
  ⟨4, 4, .u8, .wo, 0, 1, 1⟩,
  ⟨5, 5, .u32, .ro, 0, 0, 4294967295⟩,
  ⟨6, 6, .u64, .ro, 0, 0, 18446744073709551615⟩,
  ⟨7, 7, .u16, .ro, 0, 0, 65535⟩,
  ⟨8, 8, .u8, .rw, 0, 0, 255⟩,
  ⟨9, 9, .u64, .ro, 0, 0, 18446744073709551615⟩,
  ⟨10, 10, .bool, .rw, 1, 0, 1⟩,
  ⟨11, 11, .u32, .ro, 0, 0, 4294967295⟩] ++
 [
  ⟨12, 12, .u32, .ro, 0, 0, 4294967295⟩,
  ⟨13, 13, .u32, .rw, 0, 0, 4294967295⟩,
  ⟨14, 14, .u64, .ro, 0, 0, 18446744073709551615⟩,
  ⟨15, 15, .u64, .ro, 0, 0, 18446744073709551615⟩,
  ⟨16, 16, .u32, .ro, 0, 0, 4294967295⟩]

/-- Index 0x4010 to 0x401F. -/
def od4010 : List OdRow :=
 [
  ⟨0, 0, .u8, .ro, 2, 0, 255⟩,
  ⟨1, 1, .bool, .rw, 1, 0, 1⟩,
  ⟨2, 2, .u16, .rw, 0, 0, 65535⟩]

/-- Index 0x4100 to 0x413F. -/
def od4100 : List OdRow :=
 [
  ⟨0, 0, .u8, .ro, 13, 0, 255⟩,
  ⟨1, 1, .bool, .rw, 1, 0, 1⟩,
  ⟨2, 2, .u16, .rw, 0, 0, 65535⟩,
  ⟨3, 6, .u16, .ro, 0, 0, 65535⟩,
  ⟨7, 7, .u8, .ro, 0, 0, 255⟩,
  ⟨8, 8, .bool, .rw, 0, 0, 1⟩,
  ⟨9, 9, .u64, .ro, 0, 0, 18446744073709551615⟩,
  ⟨10, 10, .u32, .ro, 0, 0, 4294967295⟩,
  ⟨11, 11, .u64, .ro, 0, 0, 18446744073709551615⟩,
  ⟨12, 12, .u64, .ro, 0, 0, 18446744073709551615⟩,
  ⟨13, 13, .u64, .ro, 0, 0, 18446744073709551615⟩]

/-- Index 0x4180 to 0x4183. -/
def od4180 : List OdRow :=
 [
  ⟨0, 0, .u8, .ro, 3, 0, 255⟩,
  ⟨1, 1, .u8, .ro, 0, 0, 255⟩,
  ⟨2, 2, .u8, .ro, 255, 0, 255⟩,
  ⟨3, 3, .bool, .wo, 0, 0, 1⟩]

/-- Index 0x4200 to 0x423F. -/
def od4200 : List OdRow :=
 [
  ⟨0, 0, .u8, .ro, 21, 0, 255⟩,
  ⟨1, 1, .u8, .rw, 0, 0, 255⟩,
  ⟨2, 9, .u64, .rw, 0, 0, 18446744073709551615⟩,
  ⟨10, 10, .u16, .wo, 0, 0, 65535⟩,
  ⟨11, 11, .u32, .ro, 0, 0, 4294967295⟩,
  ⟨12, 19, .u64, .ro, 0, 0, 18446744073709551615⟩,
  ⟨20, 20, .u32, .rw, 0, 0, 4294967295⟩,
  ⟨21, 21, .u8, .wo, 0, 1, 5⟩]

/-- Index 0x4300. -/
def od4300 : List OdRow :=
 [
  ⟨0, 0, .u8, .ro, 10, 0, 255⟩,
  ⟨1, 1, .u8, .rw, 7, 0, 7⟩,
  ⟨2, 2, .u8, .rw, 4, 2, 16⟩,
  ⟨3, 3, .u16, .rw, 50, 1, 10000⟩,
  ⟨4, 4, .u8, .rw, 5, 1, 40⟩,
  ⟨5, 5, .u16, .rw, 0, 0, 2047⟩,
  ⟨6, 6, .u64, .ro, 0, 0, 18446744073709551615⟩,
  ⟨7, 7, .u64, .ro, 0, 0, 18446744073709551615⟩,
  ⟨8, 8, .u64, .ro, 0, 0, 18446744073709551615⟩,
  ⟨9, 9, .u64, .ro, 0, 0, 18446744073709551615⟩,
  ⟨10, 10, .u8, .rw, 8, 1, 32⟩]

/-- Index 0x4320 to 0x4327. -/
def od4320 : List OdRow :=
 [
  ⟨0, 0, .u8, .ro, 6, 0, 255⟩,
  ⟨1, 1, .bool, .rw, 0, 0, 1⟩,
  ⟨2, 2, .u64, .rw, 0, 0, 18446744073709551615⟩,
  ⟨3, 3, .u64, .rw, 0, 0, 18446744073709551615⟩,
  ⟨4, 4, .u64, .rw, 0, 0, 288230376151711743⟩,
  ⟨5, 5, .u64, .rw, 0, 0, 18446744073709551615⟩,
  ⟨6, 6, .u32, .rw, 0, 0, 4294967295⟩]

/-- Index 0x4400 to 0x447F. -/
def od4400 : List OdRow :=
 [
  ⟨0, 0, .u8, .ro, 9, 0, 255⟩,
  ⟨1, 1, .u16, .ro, 0, 0, 65535⟩,
  ⟨2, 2, .u16, .ro, 0, 0, 65535⟩,
  ⟨3, 3, .u16, .ro, 0, 0, 65535⟩,
  ⟨4, 4, .u16, .rws, 0, 0, 65535⟩,
  ⟨5, 5, .bool, .wo, 0, 0, 1⟩,
  ⟨6, 6, .u16, .ro, 0, 0, 65535⟩,
  ⟨7, 7, .u32, .ro, 0, 0, 4294967295⟩,
  ⟨8, 8, .u32, .ro, 0, 0, 4294967295⟩,
  ⟨9, 9, .u32, .ro, 0, 0, 4294967295⟩]

/-- Index 0x5000. -/
def od5000 : List OdRow :=
 [
  ⟨0, 0, .u8, .ro, 6, 0, 255⟩,
  ⟨1, 1, .u16, .rw, 50, 1, 10000⟩,
  ⟨2, 2, .u32, .rw, 0, 0, 4294967295⟩,
  ⟨3, 3, .u64, .ro, 0, 0, 18446744073709551615⟩,
  ⟨4, 4, .u64, .ro, 0, 0, 18446744073709551615⟩,
  ⟨5, 5, .u64, .ro, 0, 0, 18446744073709551615⟩,
  ⟨6, 6, .u64, .ro, 0, 0, 18446744073709551615⟩]

/-- Index 0x5010 to 0x501F. -/
def od5010 : List OdRow :=
 [
  ⟨0, 0, .u8, .ro, 8, 0, 255⟩,
  ⟨1, 1, .u16, .ro, 232, 0, 65535⟩,
  ⟨2, 2, .u16, .ro, 0, 0, 65535⟩,
  ⟨3, 3, .u16, .ro, 0, 0, 65535⟩,
  ⟨4, 4, .u16, .ro, 0, 0, 65535⟩,
  ⟨5, 5, .u16, .ro, 0, 0, 65535⟩,
  ⟨6, 6, .u32, .ro, 0, 0, 4294967295⟩,
  ⟨7, 7, .u64, .ro, 0, 0, 18446744073709551615⟩,
  ⟨8, 8, .u32, .ro, 0, 0, 4294967295⟩]

/-- Index 0x5800. -/
def od5800 : List OdRow :=
 [
  ⟨0, 0, .u8, .ro, 12, 0, 255⟩,
  ⟨1, 1, .u16, .rw, 2000, 0, 65535⟩,
  ⟨2, 2, .u16, .rw, 200, 1, 10000⟩,
  ⟨3, 3, .u16, .rw, 100, 0, 10000⟩,
  ⟨4, 4, .u8, .rw, 4, 1, 4⟩,
  ⟨5, 5, .u64, .ro, 0, 0, 18446744073709551615⟩,
  ⟨6, 6, .u64, .ro, 0, 0, 18446744073709551615⟩,
  ⟨7, 7, .u64, .ro, 0, 0, 18446744073709551615⟩,
  ⟨8, 8, .u64, .ro, 0, 0, 18446744073709551615⟩,
  ⟨9, 9, .u64, .ro, 0, 0, 18446744073709551615⟩,
  ⟨10, 10, .u64, .ro, 0, 0, 18446744073709551615⟩,
  ⟨11, 11, .u16, .rw, 0, 0, 12287⟩] ++
 [
  ⟨12, 12, .u64, .ro, 0, 0, 18446744073709551615⟩]

/-- Index 0x6000. -/
def od6000 : List OdRow :=
 [
  ⟨0, 0, .u8, .ro, 21, 0, 255⟩,
  ⟨1, 1, .u16, .rw, 0, 0, 1023⟩,
  ⟨2, 2, .u32, .rw, 0, 0, 4294967295⟩,
  ⟨3, 3, .u64, .rw, 0, 0, 18446744073709551615⟩,
  ⟨4, 4, .u64, .rw, 0, 0, 18446744073709551615⟩,
  ⟨5, 5, .u64, .rw, 0, 0, 18446744073709551615⟩,
  ⟨6, 6, .u64, .rw, 0, 0, 18446744073709551615⟩,
  ⟨7, 7, .u8, .rw, 0, 0, 24⟩,
  ⟨8, 8, .u8, .wo, 0, 1, 2⟩,
  ⟨9, 9, .u32, .ro, 0, 0, 4294967295⟩,
  ⟨10, 10, .u8, .rw, 1, 1, 255⟩,
  ⟨11, 11, .u16, .rw, 100, 1, 10000⟩] ++
 [
  ⟨12, 12, .u16, .rw, 1000, 10, 60000⟩,
  ⟨13, 13, .u16, .rw, 0, 0, 1023⟩,
  ⟨14, 14, .u64, .ro, 0, 0, 18446744073709551615⟩,
  ⟨15, 15, .u64, .ro, 0, 0, 18446744073709551615⟩,
  ⟨16, 16, .u64, .ro, 0, 0, 18446744073709551615⟩,
  ⟨17, 17, .u64, .ro, 0, 0, 18446744073709551615⟩,
  ⟨18, 18, .u64, .ro, 0, 0, 18446744073709551615⟩,
  ⟨19, 19, .u64, .ro, 0, 0, 18446744073709551615⟩,
  ⟨20, 20, .u64, .ro, 0, 0, 18446744073709551615⟩,
  ⟨21, 21, .u16, .wo, 0, 0, 1023⟩]

/-- Index 0x7000. -/
def od7000 : List OdRow :=
 [
  ⟨0, 0, .u8, .ro, 20, 0, 255⟩,
  ⟨1, 1, .u16, .ro, 0, 0, 65535⟩,
  ⟨2, 2, .u16, .rw, 65535, 0, 65535⟩,
  ⟨3, 3, .u16, .rw, 11700, 0, 65535⟩,
  ⟨4, 4, .u16, .rw, 11400, 0, 65535⟩,
  ⟨5, 5, .u16, .rw, 6000, 0, 65535⟩,
  ⟨6, 6, .u8, .rw, 2, 1, 16⟩,
  ⟨7, 7, .u32, .rw, 0, 0, 4000000⟩,
  ⟨8, 8, .u16, .rw, 800, 1, 1000⟩,
  ⟨9, 9, .u32, .rw, 20000, 0, 4294967295⟩,
  ⟨10, 10, .u16, .rw, 50, 1, 65535⟩,
  ⟨11, 11, .u16, .rw, 40, 1, 65535⟩] ++
 [
  ⟨12, 12, .u16, .rw, 80, 1, 65535⟩,
  ⟨13, 13, .u16, .rw, 120, 1, 65535⟩,
  ⟨14, 14, .u32, .ro, 0, 0, 4294967295⟩,
  ⟨15, 15, .u32, .ro, 0, 0, 4294967295⟩,
  ⟨16, 16, .u32, .ro, 20000, 0, 4294967295⟩,
  ⟨17, 17, .u32, .rw, 20000, 0, 4294967295⟩,
  ⟨18, 18, .u64, .ro, 0, 0, 18446744073709551615⟩,
  ⟨19, 19, .u8, .ro, 0, 0, 255⟩,
  ⟨20, 20, .bool, .wo, 0, 0, 1⟩]

/-- Index 0x7100. -/
def od7100 : List OdRow :=
 [
  ⟨0, 0, .u8, .ro, 5, 0, 255⟩,
  ⟨1, 1, .u16, .rw, 2000, 1, 60000⟩,
  ⟨2, 2, .u8, .ro, 0, 0, 255⟩,
  ⟨3, 3, .u16, .wo, 0, 0, 65535⟩,
  ⟨4, 4, .bool, .ro, 0, 0, 1⟩,
  ⟨5, 5, .u16, .ro, 0, 0, 65535⟩]

/-- Index 0x7110 to 0x711F. -/
def od7110 : List OdRow :=
 [
  ⟨0, 0, .u8, .ro, 9, 0, 255⟩,
  ⟨1, 1, .u8, .ro, 0, 0, 255⟩,
  ⟨2, 2, .u8, .ro, 0, 0, 255⟩,
  ⟨3, 3, .u8, .ro, 0, 0, 255⟩,
  ⟨4, 4, .u16, .ro, 0, 0, 65535⟩,
  ⟨5, 5, .u16, .ro, 0, 0, 65535⟩,
  ⟨6, 6, .u16, .ro, 0, 0, 65535⟩,
  ⟨7, 7, .u16, .ro, 0, 0, 65535⟩,
  ⟨8, 8, .u32, .ro, 0, 0, 4294967295⟩,
  ⟨9, 9, .u32, .ro, 0, 0, 4294967295⟩]

/-- Index 0x7140 to 0x714F. -/
def od7140 : List OdRow :=
 [
  ⟨0, 0, .u8, .ro, 9, 0, 255⟩,
  ⟨1, 1, .u8, .ro, 0, 0, 255⟩,
  ⟨2, 2, .u8, .rw, 2, 0, 3⟩,
  ⟨3, 3, .u32, .rw, 0, 0, 4294967295⟩,
  ⟨4, 4, .u16, .rw, 500, 0, 65535⟩,
  ⟨5, 5, .u64, .ro, 0, 0, 18446744073709551615⟩,
  ⟨6, 6, .u64, .ro, 0, 0, 18446744073709551615⟩,
  ⟨7, 7, .u64, .ro, 0, 0, 18446744073709551615⟩,
  ⟨8, 8, .u64, .ro, 0, 0, 18446744073709551615⟩,
  ⟨9, 9, .u64, .ro, 0, 0, 18446744073709551615⟩]

/-- Index 0x7200. -/
def od7200 : List OdRow :=
 [
  ⟨0, 0, .u8, .ro, 6, 0, 255⟩,
  ⟨1, 1, .u8, .rw, 115, 85, 119⟩,
  ⟨2, 2, .u8, .rw, 125, 91, 125⟩,
  ⟨3, 3, .u8, .rw, 5, 1, 20⟩,
  ⟨4, 4, .u8, .rw, 50, 10, 90⟩,
  ⟨5, 5, .u8, .ro, 0, 0, 255⟩,
  ⟨6, 6, .u32, .ro, 0, 0, 4294967295⟩]

/-- Index 0x7210 to 0x7220. -/
def od7210 : List OdRow :=
 [
  ⟨0, 0, .u8, .ro, 4, 0, 255⟩,
  ⟨1, 1, .u16, .ro, 0, 0, 65535⟩,
  ⟨2, 2, .u16, .rw, 32768, 0, 65535⟩,
  ⟨3, 3, .u8, .ro, 0, 0, 255⟩,
  ⟨4, 4, .u64, .ro, 0, 0, 18446744073709551615⟩]

/-- Index 0x8000. -/
def od8000 : List OdRow :=
 [
  ⟨0, 0, .u8, .ro, 9, 0, 255⟩,
  ⟨1, 1, .u64, .rw, 0, 0, 18446744073709551615⟩,
  ⟨2, 2, .u16, .rw, 1000, 500, 1000⟩,
  ⟨3, 3, .u16, .rw, 2000, 1000, 10000⟩,
  ⟨4, 4, .u16, .rw, 1000, 500, 5000⟩,
  ⟨5, 5, .u32, .rw, 10000, 100, 3600000⟩,
  ⟨6, 6, .u8, .ro, 0, 0, 255⟩,
  ⟨7, 7, .u32, .ro, 0, 0, 4294967295⟩,
  ⟨8, 8, .u32, .ro, 0, 0, 4294967295⟩,
  ⟨9, 9, .u32, .ro, 0, 0, 4294967295⟩]

/-- Index 0x8010 to 0x8011. -/
def od8010 : List OdRow :=
 [
  ⟨0, 0, .u8, .ro, 8, 0, 255⟩,
  ⟨1, 1, .bool, .rw, 0, 0, 1⟩,
  ⟨2, 2, .u16, .rw, 0, 0, 65535⟩,
  ⟨3, 3, .u64, .ro, 0, 0, 18446744073709551615⟩,
  ⟨4, 4, .u64, .ro, 0, 0, 18446744073709551615⟩,
  ⟨5, 5, .u64, .ro, 0, 0, 18446744073709551615⟩,
  ⟨6, 6, .u32, .ro, 0, 0, 4294967295⟩,
  ⟨7, 7, .u32, .ro, 0, 0, 4294967295⟩,
  ⟨8, 8, .u32, .ro, 0, 0, 4294967295⟩]

/-- Index 0x8100 to 0x81FF. -/
def od8100 : List OdRow :=
 [
  ⟨0, 0, .u8, .ro, 9, 0, 255⟩,
  ⟨1, 1, .u16, .rws, 0, 1, 65535⟩,
  ⟨2, 2, .u8, .rws, 0, 0, 1⟩,
  ⟨3, 3, .u8, .rws, 0, 0, 1⟩,
  ⟨4, 4, .u8, .ro, 7, 0, 255⟩,
  ⟨5, 5, .u8, .wo, 0, 0, 255⟩,
  ⟨6, 6, .u64, .ro, 0, 0, 18446744073709551615⟩,
  ⟨7, 7, .u32, .ro, 0, 0, 4294967295⟩,
  ⟨8, 8, .u32, .ro, 0, 0, 4294967295⟩,
  ⟨9, 9, .u8, .ro, 0, 0, 255⟩]

/-- Index 0x9000. -/
def od9000 : List OdRow :=
 [
  ⟨0, 0, .u8, .ro, 12, 0, 255⟩,
  ⟨1, 1, .bool, .rw, 0, 0, 1⟩,
  ⟨2, 2, .u8, .rw, 0, 0, 63⟩,
  ⟨3, 3, .u8, .rw, 255, 0, 255⟩,
  ⟨4, 4, .u8, .rw, 255, 0, 255⟩,
  ⟨5, 5, .bool, .rw, 1, 0, 1⟩,
  ⟨6, 6, .u16, .rw, 10, 1, 10000⟩,
  ⟨7, 7, .u8, .ro, 0, 0, 255⟩,
  ⟨8, 8, .u64, .ro, 0, 0, 18446744073709551615⟩,
  ⟨9, 9, .u32, .ro, 0, 0, 4294967295⟩,
  ⟨10, 10, .u32, .ro, 0, 0, 4294967295⟩,
  ⟨11, 11, .u32, .ro, 0, 0, 4294967295⟩] ++
 [
  ⟨12, 12, .u32, .ro, 0, 0, 4294967295⟩]

/-- Index 0x9100. -/
def od9100 : List OdRow :=
 [
  ⟨0, 0, .u8, .ro, 28, 0, 255⟩,
  ⟨1, 1, .u8, .ro, 0, 0, 255⟩,
  ⟨2, 2, .u32, .ro, 0, 0, 4294967295⟩,
  ⟨3, 3, .u32, .ro, 0, 0, 4294967295⟩,
  ⟨4, 4, .u32, .rw, 0, 0, 4294967295⟩,
  ⟨5, 12, .u64, .ro, 0, 0, 18446744073709551615⟩,
  ⟨13, 13, .u8, .rw, 0, 0, 255⟩,
  ⟨14, 14, .u16, .rw, 0, 0, 1000⟩,
  ⟨15, 15, .u64, .ro, 0, 0, 18446744073709551615⟩,
  ⟨16, 16, .u64, .ro, 0, 0, 18446744073709551615⟩,
  ⟨17, 17, .u64, .ro, 0, 0, 18446744073709551615⟩,
  ⟨18, 18, .u64, .ro, 0, 0, 18446744073709551615⟩] ++
 [
  ⟨19, 19, .bool, .wo, 0, 0, 1⟩,
  ⟨20, 20, .octets, .ro, 0, 0, 18446744073709551615⟩,
  ⟨21, 21, .octets, .ro, 0, 0, 18446744073709551615⟩,
  ⟨22, 22, .octets, .wo, 0, 0, 18446744073709551615⟩,
  ⟨23, 23, .octets, .wo, 0, 0, 18446744073709551615⟩,
  ⟨24, 24, .bool, .wo, 0, 0, 1⟩,
  ⟨25, 25, .u32, .ro, 0, 0, 4294967295⟩,
  ⟨26, 26, .u32, .rw, 4294967295, 0, 4294967295⟩,
  ⟨27, 27, .u16, .rw, 100, 1, 10000⟩,
  ⟨28, 28, .u32, .ro, 0, 0, 4294967295⟩]

/-- Index 0x9200. -/
def od9200 : List OdRow :=
 [
  ⟨0, 0, .u8, .ro, 5, 0, 255⟩,
  ⟨1, 1, .bool, .rw, 0, 0, 1⟩,
  ⟨2, 2, .u32, .rw, 0, 0, 4294967295⟩,
  ⟨3, 3, .u64, .ro, 0, 0, 18446744073709551615⟩,
  ⟨4, 4, .u64, .ro, 0, 0, 18446744073709551615⟩,
  ⟨5, 5, .bool, .ro, 0, 0, 1⟩]

/-- Index 0xA000. -/
def odA000 : List OdRow :=
 [
  ⟨0, 0, .u8, .ro, 6, 0, 255⟩,
  ⟨1, 1, .u8, .wo, 0, 0, 67⟩,
  ⟨2, 2, .u32, .wo, 0, 0, 4294967295⟩,
  ⟨3, 3, .u64, .ro, 0, 0, 18446744073709551615⟩,
  ⟨4, 4, .u32, .ro, 0, 0, 4294967295⟩,
  ⟨5, 5, .bool, .ro, 0, 0, 1⟩,
  ⟨6, 6, .bool, .ro, 0, 0, 1⟩]

/-- The rows of an index; none where the index is undefined (NO_ENTRY of R386). -/
def odRows (i : Nat) : List OdRow :=
  if i = 4096 then od1000
  else if i = 4112 then od1010
  else if i = 4128 then od1020
  else if i = 4352 then od1100
  else if 4368 ≤ i ∧ i < 4384 then od1110
  else if i = 4608 then od1200
  else if 8192 ≤ i ∧ i < 8448 then od2000
  else if i = 8448 then od2100
  else if 8464 ≤ i ∧ i < 8480 then od2110
  else if 8512 ≤ i ∧ i < 8520 then od2140
  else if i = 8576 then od2180
  else if i = 8640 then od21C0
  else if i = 8704 then od2200
  else if 8720 ≤ i ∧ i < 8736 then od2210
  else if i = 8768 then od2240
  else if 8960 ≤ i ∧ i < 9216 then od2300
  else if 12288 ≤ i ∧ i < 16384 then od3000
  else if i = 16384 then od4000
  else if 16400 ≤ i ∧ i < 16416 then od4010
  else if 16640 ≤ i ∧ i < 16704 then od4100
  else if 16768 ≤ i ∧ i < 16772 then od4180
  else if 16896 ≤ i ∧ i < 16960 then od4200
  else if i = 17152 then od4300
  else if 17184 ≤ i ∧ i < 17192 then od4320
  else if 17408 ≤ i ∧ i < 17536 then od4400
  else if i = 20480 then od5000
  else if 20496 ≤ i ∧ i < 20512 then od5010
  else if i = 22528 then od5800
  else if i = 24576 then od6000
  else if i = 28672 then od7000
  else if i = 28928 then od7100
  else if 28944 ≤ i ∧ i < 28960 then od7110
  else if 28992 ≤ i ∧ i < 29008 then od7140
  else if i = 29184 then od7200
  else if 29200 ≤ i ∧ i < 29217 then od7210
  else if i = 32768 then od8000
  else if 32784 ≤ i ∧ i < 32786 then od8010
  else if 33024 ≤ i ∧ i < 33280 then od8100
  else if i = 36864 then od9000
  else if i = 37120 then od9100
  else if i = 37376 then od9200
  else if i = 40960 then odA000
  else []

/-- The row of one entry. -/
def odRow (i s : Nat) : Option OdRow := (odRows i).find? (fun r => r.has s)

/-- R405: the default rate of a Cairn code; 16 for a code the table does not list, 0 for one never rate-limited. -/
def cairnDefaultRate (c : Nat) : Nat :=
  if c = 0x01 ∨ c = 0x02 ∨ c = 0x40 ∨ c = 0x41 ∨ c = 0x50 ∨ c = 0x51 ∨ c = 0x52 ∨ c = 0x55 ∨ c = 0x58 then 0 else 16

/-- The default of an entry: the table's value, or the one that depends on the entry's number (R38 SEED, R261 CHAIN_ID). SEQ
of a ridge (R177) is stored as its 44-bit count; its view adds the ridge at [47:44]. -/
def odDefault (i s : Nat) : Nat :=
  if 0x2000 ≤ i ∧ i < 0x2100 ∧ s = 0x09 then 0x7A110000 + (i - 0x2000)
  else if 0x8100 ≤ i ∧ i < 0x8200 ∧ s = 0x01 then (i - 0x8100) + 1
  else match odRow i s with
    | some r => r.dflt
    | none => 0

/-- The key of an entry in the store: its address over 8 (R8). -/
def odKey (i s : Nat) : Nat := i * 256 + s

/-- The default at a key. -/
def odKeyDefault (k : Nat) : Nat := odDefault (k / 256) (k % 256)

end Sys2Proof.Machine
end

