-- ==== Sys2Proof/Machine/SMap.lean ====
section
/-! DEFINITION. A sparse map from numbers to values, held as a list of pairs in ONE canonical form: keys strictly
rising, and no pair whose value is the default. Every numbered family of the block's state (dictionary entries, queues,
LUNs, slots, units …) is one such map, so that equal states are equal data. -/

namespace Sys2Proof.Machine

/-- A sparse map. A key that is not listed holds the default the reader supplies. -/
structure SMap (α : Type) where
  entries : List (Nat × α)
deriving DecidableEq, Repr

/-- The map with nothing listed. -/
def SMap.empty {α : Type} : SMap α := { entries := [] }

/-- The value at k in a list of pairs, or d. -/
def SMap.find {α : Type} (d : α) : List (Nat × α) → Nat → α
  | [], _ => d
  | (k', v) :: r, k => if k' = k then v else SMap.find d r k

/-- Put a pair before the first larger key. -/
def SMap.put {α : Type} : List (Nat × α) → Nat → α → List (Nat × α)
  | [], k, v => [(k, v)]
  | (k', v') :: r, k, v => if k < k' then (k, v) :: (k', v') :: r else (k', v') :: SMap.put r k v

/-- The pairs of the other keys. -/
def SMap.drop {α : Type} (l : List (Nat × α)) (k : Nat) : List (Nat × α) := l.filter (fun e => decide (e.1 ≠ k))

/-- Read the map at k. -/
def SMap.get {α : Type} (m : SMap α) (d : α) (k : Nat) : α := SMap.find d m.entries k

/-- Write the map at k: the default leaves no pair. -/
def SMap.set {α : Type} [DecidableEq α] (m : SMap α) (d : α) (k : Nat) (v : α) : SMap α :=
  { entries := if v = d then SMap.drop m.entries k else SMap.put (SMap.drop m.entries k) k v }

/-- Change the value at k. -/
def SMap.modify {α : Type} [DecidableEq α] (m : SMap α) (d : α) (k : Nat) (f : α → α) : SMap α :=
  m.set d k (f (m.get d k))

/-- Keep the pairs whose key passes a test. -/
def SMap.filterKeys {α : Type} (m : SMap α) (p : Nat → Bool) : SMap α :=
  { entries := m.entries.filter (fun e => p e.1) }

/-- Change every listed value. -/
def SMap.mapVals {α : Type} [DecidableEq α] (m : SMap α) (d : α) (f : α → α) : SMap α :=
  { entries := (m.entries.map (fun e => (e.1, f e.2))).filter (fun e => decide (e.2 ≠ d)) }

/-- The listed keys. -/
def SMap.keys {α : Type} (m : SMap α) : List Nat := m.entries.map (fun e => e.1)

/-- Keys rise from b on, and no value is the default of its key. -/
def SMap.risingFrom {α : Type} [DecidableEq α] (d : Nat → α) : Nat → List (Nat × α) → Bool
  | _, [] => true
  | b, (k, v) :: r => decide (b ≤ k) && decide (v ≠ d k) && SMap.risingFrom d (k + 1) r

/-- The canonical form (the default may depend on the key). -/
def SMap.wf {α : Type} [DecidableEq α] (d : Nat → α) (m : SMap α) : Bool := SMap.risingFrom d 0 m.entries

end Sys2Proof.Machine
end

