-- ==== Sys2Proof/Machine/Parts.lean ====
section
/-! DEFINITION. The parts of the block's state, unit by unit, as plain data: entries and queues, notice rings, the hold
store, descriptors and contexts, ports, LUNs, Ledge units, links, key slots and the rest. State.lean puts them together. -/

namespace Sys2Proof.Machine

/-- The service state of a spur or ridge (R321): OUT, RETURNING, IN, DRAINING. -/
inductive Svc where
  | out | returning | inService | draining
deriving DecidableEq, Repr

/-- A status word (R108). -/
structure Status where
  code : Nat
  detail : Nat
  extra : Nat
deriving DecidableEq, Repr

/-- The states of a queue (R63). -/
inductive QState where
  | off | running | draining | halted
deriving DecidableEq, Repr

/-- A fetched entry, from its fetch turn to its retirement (R67 to R70). -/
structure Ent where
  /-- index in the ring -/
  idx : Nat := 0
  /-- place in the tracking pool (R68) -/
  place : Nat := 0
  /-- number of the fetch read that covers it -/
  rd : Nat := 0
  arrived : Bool := false
  /-- its place in the tracking pool has been lost before its admission (R420) -/
  lost : Bool := false
  raw : W512 := 0
  /-- admission number (R75), none before admission -/
  order : Option Nat := none
  /-- the fragment list, once read and checked (R95); none: contiguous or not read yet -/
  frags : Option (List (Nat × Nat)) := none
  fragAsked : Bool := false
  /-- descriptors that have not reported (R15) -/
  left : Nat := 0
  /-- data reads and writes outstanding on the fabric port (R97) -/
  io : Nat := 0
  /-- the most severe status reported so far, with the FPA and the line it came from -/
  worst : Option (Status × W64 × Nat) := none
  /-- the final status, with the FPA of its notice (R69, R78) -/
  fin : Option (Status × W64) := none
  /-- the bound key slot and generation (R264) -/
  key : Option (Nat × Nat) := none
  /-- write data read so far, in ascending order (R97, R185) -/
  data : List W512 := []
  /-- chain positions still to acknowledge before the entry is final (R190, R248) -/
  mirror : Bool := false
  /-- 0 status write not issued, 1 issued, 2 acknowledged (R70), 3 failed (R72) -/
  wr : Nat := 0
  /-- a notice place is reserved for it (R70, step 1) -/
  reserved : Bool := false
  /-- LINE_WRITE: a merge-source read is under way or done, and what it gave: 1 a line, 2 zeros, 3 no good line, 4 a sector
  that does not verify, 5 a read that failed as a whole; the line, and the status of the read (R185 to R187) -/
  mergeAsked : Bool := false
  mergeRes : Option (Nat × BitVec 528 × Status) := none
  /-- admitted while its ORIGIN region was DEGRADED: it is not framed (R254) -/
  unframed : Bool := false
deriving DecidableEq, Repr

/-- One submission queue (R60 to R72); its settings and counters stand in the dictionary store. -/
structure Queue where
  state : QState := .off
  refusal : Nat := 0
  cause : Nat := 0
  doorbell : Nat := 0
  fetch : Nat := 0
  done : Nat := 0
  /-- fetched and not retired, in index order -/
  ents : List Ent := []
  nextRd : Nat := 0
  /-- retirement frozen by a status write fault (R72) -/
  frozen : Bool := false
  /-- stalled at a write refused for want of energy (R27) -/
  stalledLedger : Bool := false
  /-- waiting for a notice place (R84) -/
  stalledNotice : Bool := false
  /-- value of the done word last written, and of the one outstanding (R71) -/
  published : Nat := 0
  doneOut : Option Nat := none
  /-- a done word has fallen due while one was outstanding (R71) -/
  doneDue : Bool := false
  /-- a done word write failed (R72) -/
  doneDead : Bool := false
  /-- statuses that will stay unwritten after the freeze (R72) -/
  atFreeze : Nat := 0
deriving DecidableEq, Repr

/-- A notice before it is written as a record (R78). -/
structure Notice where
  code : Nat
  fpa : W64
  time : Nat
  extra : Nat
  detail : Nat
  status : Nat
  region : Nat
  index : Nat
  tag : Nat
  queue : Nat
  droppedBefore : Bool
deriving DecidableEq, Repr

/-- One notice ring and its backlog (R80 to R87). -/
structure Ring where
  enabled : Bool := false
  fault : Bool := false
  tail : Nat := 0
  head : Nat := 0
  /-- the backlog in order; the first `written` are written and await their responses -/
  backlog : List Notice := []
  written : Nat := 0
  /-- for each written record, has its response arrived? -/
  acks : List Bool := []
  reserved : Nat := 0
  /-- an autonomous notice was dropped since the last one placed (R85) -/
  dropped : Bool := false
  /-- pending queue notices in arrival order (R86) -/
  pendingQ : List Notice := []
  /-- queues stalled for a place, in the order in which they stalled (R84) -/
  stalled : List Nat := []
  tailOut : Bool := false
  /-- records acknowledged that no tail word or message covers yet -/
  tailDue : Bool := false
  msgDue : Bool := false
  msgOut : Bool := false
  holdoff : Bool := false
  headOut : Bool := false
deriving DecidableEq, Repr

/-- R356, R202: what one charge of the hold-up ledger pays for: a refuge page, a program in a cell mode (0 SLC, 1 TLC, 2 QLC), or for a
granule of a committed unit the larger of the two. -/
inductive ChargeKind where
  | refuge
  | program (mode : Nat)
  | larger (mode : Nat)
deriving DecidableEq, Repr

/-- Charges held, by kind: their energy is what the dictionary gives now (R358). -/
abbrev Charge := List (ChargeKind × Nat)

/-- A descriptor (R115, R303): one packet for one LUN. Own work carries q = 0xFFFF (TRACK 0xFFFF). -/
structure Desc where
  op : Nat := 0
  cls : Nat := 0
  q : Nat := 0xFFFF
  idx : Nat := 0
  region : Nat := 0
  flags : Nat := 0
  named : W64 := 0
  phys : W64 := 0
  /-- GATHER_LINE_READ: entry slot, physical FPA, FPA as named (R303) -/
  lines : List (Nat × W64 × W64) := []
  /-- the pages it names with their tweak forms, as the Gate supplies them (R172, R276) -/
  forms : List (W64 × W64) := []
  /-- COPYBACK: the target as named, and as mapped -/
  target : W64 := 0
  targetPhys : W64 := 0
  merge : W64 := 0
  mask : W64 := 0
  handle : BitVec 32 := 0
  arg : Nat := 0
  key : Option (Nat × Nat) := none
  /-- integrator opcode: entry bytes 16 to 55 -/
  body : BitVec 320 := 0
  /-- own work: what raised it (scrub source, gap move, member frame) -/
  source : Nat := 0
  /-- the charge of an integrator routine (R356) -/
  charge : Charge := []
  /-- REPAIR_SERVE: the link toward the requester (R258) -/
  link : Nat := 0
  /-- its number in the order of arrival at the Gate (R307, R320) -/
  no : Nat := 0
deriving DecidableEq, Repr

/-- Why a descriptor stands in the hold store (R16, R17, R48, R264, R307). -/
inductive HoldCause where
  | unitNotReady
  | gapMove
  | keyLoading
  | ledger
  /-- short of energy after a hold for a unit or a gap move: its queue stalls (R27) -/
  | ledgerStalls
  | screeFull
  | link (l : Nat)
deriving DecidableEq, Repr

/-- One descriptor of the hold store. -/
structure Held where
  id : Nat
  since : Nat
  cause : HoldCause
  desc : Desc
deriving DecidableEq, Repr

/-- What a fabric request is for (R426, R428). -/
inductive Purpose where
  | fetch (q rd : Nat)
  | frag (q idx : Nat)
  | wdata (q idx : Nat)
  | image
  | status (q idx : Nat)
  | done (q : Nat)
  | record (n k : Nat)
  | tail (n : Nat)
  | msg (n : Nat)
  | head (n : Nat)
  | rdata (q idx : Nat)
  /-- its owner has gone: the response has no effect -/
  | stale
deriving DecidableEq, Repr

/-- A fabric request (R424 to R428). -/
structure FabReq where
  tag : Nat
  write : Bool
  addr : Nat
  len : Nat
  data : List W512
  purpose : Purpose
  since : Nat
  /-- FAB_TIMEOUT_US has passed without a response (R428) -/
  timedOut : Bool := false
  /-- Scree class of the descriptor whose data it moves, 4 for everything else (R25) -/
  cls : Nat := 4
deriving DecidableEq, Repr

/-- The fabric port: outstanding requests, requests waiting for a tag, tags a timeout has set aside, the inbound requests
issued since entry fetch last had a slot, and whether the last request let out of the waiting ones was outbound (R25). -/
structure Fab where
  reqs : List FabReq := []
  waiting : List FabReq := []
  quarantine : List (Nat × Nat) := []
  slots : Nat := 0
  lastOut : Bool := false
deriving DecidableEq, Repr

/-- The accumulated outcome of a read descriptor (R109, R290). -/
structure Acc where
  rung : Nat := 0
  step : Nat := 0
  maxBits : Nat := 0
  erasures : Nat := 0
  bits : Nat := 0
  unc : Nat := 0
  uncLine : Nat := 0
  uncPlane : Nat := 0
  pois : Nat := 0
  poisLine : Nat := 0
  poisPlane : Nat := 0
  poisBits : Nat := 0
  tag : Nat := 0
  tagLine : Nat := 0
  tagPlane : Nat := 0
  tagDelivered : Nat := 0
  delivered : Nat := 0
  /-- over every line whatever its status, VALID = 0 and POISON lines too: most bits, highest rung (R229), lines the page code
  gave (R177) -/
  gBits : Nat := 0
  gRung : Nat := 0
  gErasures : Nat := 0
  keyErased : Bool := false
  explicit : Option Status := none
  /-- the extra word a routine has set (STATUS_OP 2, R291) -/
  extraSet : Option Nat := none
deriving DecidableEq, Repr

/-- One line a descriptor still wants: plane, line, and its place in the destination (R94, R99). -/
structure Want where
  plane : Nat
  line : Nat
  dst : Nat
  fpa : W64
  named : W64
deriving DecidableEq, Repr

/-- One cycle of a bus phase (R289, R330). -/
inductive BusCyc where
  | ce (fpa : W64)
  | cmd (b : Nat)
  | col (off : Nat)
  | row (fpa : W64)
  /-- a row address as it goes out: its number and cycles (R331) -/
  | rowAddr (n cycles : Nat)
  | dout (n : Nat)
  | din (n : Nat)
  | delay (ns : Nat)
  | stat (fpa : W64)
  | param (v : BitVec 32)
  | addr (b : Nat)
  | data (bytes : List Byte)
deriving DecidableEq, Repr

/-- One unit in transfer from a die, in the order the port will receive it. -/
structure Pull where
  ctx : Nat
  fpa : W64
  unit : Nat
  /-- 0; 64 + n for soft read n (R162); 1 to 8: the path of a microword's DOUT (R293) -/
  soft : Nat := 0
deriving DecidableEq, Repr

/-- A context of an engine with its commit store entry (R287, R297, R298). -/
structure Ctx where
  desc : Desc := {}
  cls : Nat := 0
  pc : Nat := 0
  /-- r0 to r15; r0 reads zero -/
  regs : List W64 := []
  stack : List Nat := []
  /-- 0 stopped, 1 running, 2 expired -/
  timer : Nat := 0
  zero : Bool := false
  carry : Bool := false
  neg : Bool := false
  die : Byte := 0
  lkHit : Bool := false
  lkLoad : Bool := false
  lkPois : Bool := false
  lkUnit : Bool := false
  innerFail : Bool := false
  outerDone : Bool := false
  outerOk : Bool := false
  granted : Bool := false
  replayed : Bool := false
  /-- parked at a yielding WAIT, or set aside runnable -/
  parked : Bool := false
  /-- body items of the packet not yet read or dropped (R305) -/
  bodies : Nat := 0
  cycles : Nat := 0
  b0 : List BusCyc := []
  b1 : List BusCyc := []
  /-- phase builders: the address opened, the unit of the last column cycles, and the units to come, by port (R289) -/
  at0 : W64 := 0
  at1 : W64 := 0
  col0 : Nat := 0
  col1 : Nat := 0
  pull0 : List Pull := []
  pull1 : List Pull := []
  /-- cipher setting of the last CODEC_OP, the seed's kind, the tweak base (R293) -/
  codec : Nat := 0
  seedSys : Bool := false
  tweak : W64 := 0
  /-- the address of the last SEED; HEADER has been given for the phase under construction; the LUN of the last status read (R293) -/
  seedFpa : Option W64 := none
  hdrFeed : Bool := false
  statLun : Nat := 0
  /-- read staging: parity lines, page key × 16 + place -/
  parity : List (Nat × BitVec 528) := []
  /-- charges held (R356) -/
  charge : Charge := []
  commit : Nat := 0
  commitAt : Nat := 0
  commitRegs : List W64 := []
  acc : Acc := {}
  /-- the same by page, of a descriptor that reads pages to copy them: each is an operation of its own (R177) -/
  pageAccs : List (Nat × Acc) := []
  /-- bytes of read staging it holds from its pop on (R24) -/
  staging : Nat := 0
  /-- MAP_DEMAND as the descriptor began (R176) -/
  mapOn : Bool := true
  /-- delivery mask: plane × 256 + line of each line written to the fabric (R298) -/
  mask : List Nat := []
  /-- lines still wanted, and those delivered -/
  wants : List Want := []
  had : List Want := []
  /-- the context waits for a die operation on this block-wide LUN -/
  lun : Nat := 0
  /-- phases issued since the last commit point (R318, step 4) -/
  issued : Bool := false
  /-- this read was counted in SUSPEND_DENIED (R132) -/
  denied : Bool := false
  /-- it waits only for RESUME_RUN_US (R132) -/
  waitRun : Bool := false
  /-- lines collected for COPYBACK, REPAIR_SERVE, gap moves and sealed sectors: line key, stored 66 bytes -/
  lines : List (Nat × BitVec 528) := []
  /-- what the codes made of a routine's staged lines: key, bits corrected, and whether the page code gave it (R290) -/
  outcomes : List (Nat × Nat × Bool) := []
  /-- held lines of a sealed sector, not yet released (R131) -/
  sealedHold : List (Want × BitVec 512) := []
  /-- pages still to read: SCRUB_RANGE, gap move (R233, R46) -/
  pages : List W64 := []
  found : Nat := 0
  refresh : Nat := 0
  /-- the worst Refresh page so far: rung, bits, address (R230) -/
  best : Option (Nat × Nat × W64) := none
  /-- lines that failed the content under decoding: line keys -/
  failed : List Nat := []
  /-- pages whose header has been read, by page key: 0 erased, 1 not valid, 2 valid (R150) -/
  hdr : List (Nat × Nat) := []
  /-- the valid headers of pages it copies, by page key (R155) -/
  headers : List (Nat × BitVec 512) := []
  /-- wanted slots that read erased and wait for their page's header: line keys -/
  erasedWait : List Nat := []
  /-- lines that failed the whole ladder: line keys -/
  lost : List Nat := []
  /-- lines the page code left failed in the content under decoding, by page key × 2 + interleave (R161) -/
  fails : List (Nat × Nat) := []
  /-- what the context waits for: 0 its lines, 1 a probe (R224), 2 write data (R197), 3 a die operation of its own,
  4 its pages' assessment (R229), 5 the last page of a move (R46), 6 nothing: the LUN of its DIE_FEATURE is ready again (R348) -/
  stage : Nat := 0
  /-- its place in the order in which work came to the ports (R124) -/
  no : Nat := 0
  /-- sealed sectors that cannot verify: sector key, reason of R282 -/
  sealBad : List (Nat × Nat) := []
  /-- sectors in a GCM engine or waiting for one -/
  gcmOut : Nat := 0
  /-- Ledge units hit and still to be read out (R117) -/
  hits : List Nat := []
deriving DecidableEq, Repr

/-- The kind of a bus phase, as the choice of R124 sees it. -/
inductive PhaseKind where
  | suspend
  | resume
  | poll
  | pull
  | arrayRead
  | dataIn
  | confirm
  | eraseCmd
  | feature
  | probe
  | reset
  | other
deriving DecidableEq, Repr

/-- A posted phase in a port's waiting set (R124, R289). -/
structure Phase where
  ctx : Nat := 0
  cls : Nat := 0
  kind : PhaseKind := .other
  lun : Nat := 0
  plane : Nat := 0
  fpa : W64 := 0
  /-- units transferred, by the unit index of R149 -/
  units : List Nat := []
  /-- a read that goes in sector segments of 64 slots (R129, R131) -/
  whole : Bool := false
  /-- its place in the order in which work came to the ports (R124) -/
  no : Nat := 0
  /-- units whose pull HITS or MISSES has still to count (R136) -/
  owed : List Nat := []
  step : Nat := 0
  cycles : List BusCyc := []
  /-- units a microword's DOUT transfers (R289) -/
  pulls : List Pull := []
  /-- commit point the phase carries (R297) -/
  commit : Nat := 0
  commitAt : Nat := 0
deriving DecidableEq, Repr

/-- One of the two ports of a spur: waiting set, transfers expected, guards of R124, the segment under way (R22). -/
structure Port where
  waiting : List Phase := []
  infl : List Pull := []
  c2 : Nat := 0
  c3 : Nat := 0
  /-- segments of a program data-in or a page read still to come: context, kind, segments left -/
  seg : Option (Nat × PhaseKind × Nat) := none
deriving DecidableEq, Repr

/-- One class of a Scree set: the pointers W, C and P (R302), the packets reserved, with whether each is written, and the body items
of popped packets that are not read yet (R305). -/
structure Scree where
  w : Nat := 0
  c : Nat := 0
  p : Nat := 0
  unread : Nat := 0
  packets : List (Nat × Bool × Desc) := []
deriving DecidableEq, Repr

/-- A spur's mailbox pair and lock (R311 to R316). -/
structure Mbox where
  owner : Nat := 0
  inState : Nat := 0
  inCode : Nat := 0
  inAck : Nat := 0
  inRefused : Bool := false
  inData : List W64 := []
  outState : Nat := 0
  outCode : Nat := 0
  outAck : Nat := 0
  outTimeout : Bool := false
  outLate : Bool := false
  outData : List W64 := []
deriving DecidableEq, Repr

/-- A spur: service, engine, Scree set, contexts, ports, mailbox. -/
structure Spur where
  svc : Svc := .out
  refusal : Nat := 0
  early : Bool := false
  /-- 0 own engine, 1 spare -/
  onSpare : Bool := false
  /-- the engine has stopped on a fault (R317) and no takeover has replayed yet -/
  stopped : Bool := false
  /-- the context the engine runs now -/
  current : Option Nat := none
  classes : List Scree := [{}, {}, {}, {}]
  /-- pops of classes 0, 1 while 2 waits, and of classes 0 to 2 while 3 waits (R21) -/
  g2 : Nat := 0
  g3 : Nat := 0
  ctxs : SMap Ctx := {entries := []}
  port0 : Port := {}
  port1 : Port := {}
  mbox : Mbox := {}
  /-- the control store of the own engine passes its check -/
  csGood : Bool := true
  firstDone : Bool := false
  injected : Bool := false
  /-- the self-test of its Scree and commit stores has failed: it stays not ready (R447) -/
  storesBad : Bool := false
  /-- firmware's last write to its ENABLE was 0 (R393) -/
  chosenOut : Bool := false
deriving DecidableEq, Repr

/-- A spare engine (R318, R324). -/
structure Spare where
  /-- 0 IDLE, 1 SWITCHING, 2 SERVING, 3 FAULTED -/
  state : Nat := 0
  spur : Nat := 0xFF
  switched : Bool := false
  csGood : Bool := true
  injected : Bool := false
  faultUs : Nat := 0
deriving DecidableEq, Repr

/-- What a LUN is busy with. -/
inductive Busy where
  | idle
  /-- planes, block, page, step, context, and the planes whose entries are to be held (R122) -/
  | read (planes : List Nat) (block page step ctx : Nat) (held : List Nat)
  | soft (plane block page ctx n : Nat)
  | program (handles : List Nat) (planes : List Nat) (block : Nat)
  | erase (planes : List Nat) (block : Nat)
  | marker
  /-- with its settings and array reads from the one under way on: whether it reads, and its cycles (R224) -/
  | probe (planes : List Nat) (block region : Nat) (todo : List (Bool × List BusCyc))
  | feature (ctx : Nat)
  /-- an operation that a routine has posted word by word: its context, 64 for none, its kind (0 data-in before the confirm, 1 program,
  2 erase), its region, and the rows it names (R120, R126) -/
  | routine (ctx kind region : Nat) (rows : List W64)
deriving DecidableEq, Repr

/-- The stages of one erase (R221). -/
inductive ErasePhase where
  | queued | intent | marked | erasing | doneMark
deriving DecidableEq, Repr

/-- Who asked for an erase: an entry, a gap move (R46), the chain (R250). -/
inductive EraseFor where
  | entry | move | member
deriving DecidableEq, Repr

/-- An erase in progress on a LUN (R208 to R221). -/
structure EraseJob where
  who : EraseFor
  desc : Desc
  /-- the context that runs it -/
  ctx : Nat
  phase : ErasePhase := .queued
  planes : List Nat
  journal : Bool
  /-- its place in the order in which work came to the ports (R124) -/
  no : Nat := 0
  seq : Nat := 0
  /-- planes still to do of an erase issued plane by plane (R208) -/
  left : List Nat := []
  /-- failing planes as a mask, and the die status byte -/
  fail : Nat := 0
  byte : Nat := 0
  /-- its last marker record (R215) -/
  record : BitVec 512 := 0
  /-- a marker program has failed once (R218) -/
  retried : Bool := false
  /-- suspends taken (R212) -/
  suspends : Nat := 0
  /-- planes whose erase the die has reported as passed (R210) -/
  passed : List Nat := []
  /-- it has been refused energy since the last grant (R357) -/
  denied : Bool := false
deriving DecidableEq, Repr

/-- The recovery ladder on a LUN (R159 to R163). -/
structure Ladder where
  ctx : Nat
  plane : Nat
  block : Nat
  page : Nat
  region : Nat
  system : Bool
  rung : Nat
  /-- steps tried with the failed lines each left (R161) -/
  tried : List (Nat × Nat)
  n : Nat
  step : Nat
  /-- further contexts attached (R163) -/
  joined : List Nat
  /-- 0 the thresholds are being set, 1 the array is read, 2 its content is decoded, 3 step 0 is being restored, 4 the thresholds
  stand and the read waits for its port (R123, R124), 5 a CE-wide step waits for the CE's other LUN (R337) -/
  phase : Nat
  /-- rung 4: the read under way, 0 to 2 -/
  soft : Nat
  /-- RETRY_LIMIT and SOFT_ENABLE as it began (R176) -/
  limit : Nat
  softOn : Bool
deriving DecidableEq, Repr

/-- A suspension (R133). -/
structure Susp where
  observed : Bool
  windowOpen : Bool
  /-- a poll has shown RDY and SUSPENDED_MASK (R340) -/
  shown : Bool := false
  /-- contexts of the reads admitted and not yet done -/
  reads : List Nat
  since : Nat
  /-- its place in the order in which work came to the ports (R124) -/
  no : Nat := 0
  /-- of the operation set aside: when it was issued, and how long it has run (R333) -/
  issueUs : Nat := 0
  ranUs : Nat := 0
deriving DecidableEq, Repr

/-- An unresolved marker of a LUN: block, planes not resolved, ERASE_SEQ (R220). -/
structure Marker where
  block : Nat
  planes : Nat
  seq : Nat
  region : Nat
  /-- the record as written, and the flag block that holds it (R219) -/
  record : BitVec 512
  flag : Nat
deriving DecidableEq, Repr

/-- R219: a switch of flag blocks under way: the block it goes to, whether that is erased, its pages programmed, and whether it is the
second try. -/
structure Switch where
  fb : Nat
  erased : Bool := false
  page : Nat := 0
  second : Bool := false
deriving DecidableEq, Repr

/-- One LUN: what bring-up learnt, and what it is doing. -/
structure Lun where
  geom : W64 := 0
  times0 : W64 := 0
  times1 : W64 := 0
  id : W64 := 0
  dieOptions : Nat := 0
  /-- the multi-plane commands the die declares (R330) -/
  multiRead : Bool := false
  multiProgram : Bool := false
  multiErase : Bool := false
  /-- it does READ DQ TRAINING, so it is tracked (R346) -/
  readDq : Bool := false
  /-- it declares WRITE DQ TRAINING and ZQ CALIBRATION LONG (R330), and duty-cycle training (R345) -/
  writeDq : Bool := false
  zq : Bool := false
  dutyCycle : Bool := false
  /-- it declares READ STATUS ENHANCED and RESET LUN (R328, R330), the bins it declares (R327), its row address (R331) -/
  enhanced : Bool := false
  resets : Bool := false
  bins : Nat := 0
  row : RowPlan := {}
  /-- sets of planes, as masks, its parameter data do not declare, and whether blocks of one operation may differ (R343) -/
  barred : List Nat := []
  anyBlocks : Bool := false
  /-- COMMANDS and OFFSET_FEATURES of its profile as bring-up found them; 0 without one (R334, R335) -/
  commands : Nat := 0
  offsets : Nat := 0
  busy : Busy := .idle
  /-- the operation a suspension has set aside -/
  suspended : Option Busy := none
  susp : Option Susp := none
  suspends : Nat := 0
  /-- RESUME_RUN_US has passed since start or resume (R132) -/
  runOk : Bool := false
  startUs : Nat := 0
  /-- when its operation was issued, and how long it ran before its last suspension (R333) -/
  issueUs : Nat := 0
  ranUs : Nat := 0
  /-- erases popped for this LUN; the first is under way or next (R208) -/
  erases : List EraseJob := []
  ladder : Option Ladder := none
  /-- current flag block, its next free page, ERASE_SEQ, unresolved markers, lock (R214 to R222) -/
  flagBlock : Nat := 0
  flagPage : Nat := 0
  /-- the next marker needs a switch first: a program of the current flag block has failed, or a switch on both (R219) -/
  flagBad : Bool := false
  /-- a switch that waits for energy before its next page (R217, R219) -/
  switching : Option Switch := none
  eraseSeq : Nat := 1
  markers : List Marker := []
  heLock : Bool := false
  /-- consecutive invalid status reads (R332) -/
  invalid : Nat := 0
  dieStatus : Nat := 0
  refugeBad : List Nat := []
  /-- planes that a program issued plane by plane has still to do, and those that failed with their status bytes (R195) -/
  planesLeft : List Nat := []
  planesFailed : List (Nat × Nat) := []
  /-- the ridge's page count of the first page of the program's data-in (R158) -/
  seqFirst : Nat := 0
deriving DecidableEq, Repr

/-- A Cornice entry (R118). -/
structure Corn where
  valid : Bool := false
  held : Bool := false
  loading : Bool := false
  step : Nat := 0
  block : Nat := 0
  page : Nat := 0
deriving DecidableEq, Repr

/-- States of a Ledge unit (R180). -/
inductive UState where
  | free | opened | committed | programming | done
deriving DecidableEq, Repr

/-- Who opened a unit. -/
inductive UKind where
  | host | pageProgram | copyback | gapMove | fill | repair | member
deriving DecidableEq, Repr

/-- One Ledge unit (R178 to R207). -/
structure Led where
  state : UState := .free
  gen : Nat := 0
  kind : UKind := .host
  target : W64 := 0
  phys : W64 := 0
  region : Nat := 0
  planesM1 : Nat := 0
  failed : Bool := false
  keyLost : Bool := false
  key : Option (Nat × Nat) := none
  base : Option W64 := none
  /-- lines held: plane offset × 256 + line, the 64 data bytes, META0 and META1 -/
  lines : SMap (BitVec 528) := {entries := []}
  /-- LINE_WRITEs admitted and not stored, in admission order: queue, index -/
  writers : List (Nat × Nat) := []
  /-- the entry whose status the program settles: UNIT_COMMIT, PAGE_PROGRAM or COPYBACK -/
  commit : Option (Nat × Nat) := none
  /-- Scree class of its program: its entry's (R91), 3 for a gap move (R46) -/
  cls : Nat := 2
  readers : Nat := 0
  /-- (link, SEQ) of frames the chain has not acknowledged -/
  mirror : List (Nat × Nat) := []
  /-- by how much its valid lines exceed LINES_WRITTEN since its restoration, for lines that were lost (R374) -/
  surplus : Int := 0
  charge : Charge := []
  /-- data still to arrive before an internal unit commits itself -/
  loading : Nat := 0
  /-- its writes are all in and its sealing has started (R192) -/
  ready : Bool := false
  /-- sectors sealed: plane offset × 4 + sector -/
  sealedSec : List Nat := []
  /-- member units: arrival link and origin's handle (R250) -/
  mkey : Option (Nat × Nat) := none
  reserved : Bool := false
  /-- member units: the SEQs of frames held once check 3 has passed, and whether the unit is to commit then (R247, R250) -/
  due : List Nat := []
  commitDue : Bool := false
  /-- pending restoration: its UNITS entry (R374) -/
  pending : Option (BitVec 256) := none
  /-- the outcome that stands against it when a key erase struck while programming -/
  keyHit : Bool := false
  copied : Bool := false
  /-- headers of the pages it copies, by plane offset (R155), and its lines as they go to the flash, from its program on (R193) -/
  hdrs : List (Nat × BitVec 512) := []
  flash : SMap (BitVec 528) := {entries := []}
  since : Nat := 0
  /-- when the unclaimed positions of its group are filled (R195), and the place of its group in the order of completion, 0 while
  the group is not complete (R183) -/
  fillUs : Nat := 0
  turn : Nat := 0
  restored : Bool := false
deriving DecidableEq, Repr

/-- One interleave staged for the outer decoder (R130, R154). -/
structure Stage where
  ridge : Nat
  spur : Nat
  ctx : Nat
  fpa : W64
  e : Nat
  p : Nat
  /-- data lines: position, and the line if the inner code passed it -/
  data : List (Nat × Option (BitVec 528))
  /-- parity lines: q, content -/
  parity : List (Nat × BitVec 528)
  background : Bool
  since : Nat
  /-- soft rung: the three raw reads of failed lines, position and slot -/
  soft : List (Nat × List Slot)
  /-- CHASE_BITS and ERASED_ZEROS as its decoding began (R176), its place in the order of arrival at the decoders (R23), and the island
  whose decoder failed under it (R418) -/
  chase : Nat := 0
  zeros : Nat := 8
  no : Nat := 0
  lostOn : Option Nat := none
deriving DecidableEq, Repr

/-- A decoder island (R23): ready bit, jobs by decoder. -/
structure DecIsland where
  ready : Bool := false
  jobs : SMap (Option Stage) := {entries := []}
  lastErr : Option Nat := none
deriving DecidableEq, Repr

/-- A sector in a GCM engine (R194, R281). -/
structure GcmJob where
  sealing : Bool
  /-- sealing: unit record and sector -/
  record : Nat
  sector : Nat
  /-- verifying: spur, context, plane, sector, with the lines and META bytes as decoded -/
  spur : Nat
  ctx : Nat
  fpa : W64
  lines : List (Nat × BitVec 528)
  /-- the read failed before the tag: reason of R282, 0 none -/
  bad : Nat
  key : Option (Nat × Nat)
  /-- verifying: the data unit number of the sector's first line (R276, R293) -/
  du : W64 := 0
deriving DecidableEq, Repr

/-- One poison map entry (R172). -/
structure Pois where
  used : Bool := false
  fpa : W64 := 0
  mask : BitVec 256 := 0
  source : Nat := 0
deriving DecidableEq, Repr

/-- One half-erased table entry (R222). -/
structure HalfE where
  used : Bool := false
  lun : Nat := 0
  block : Nat := 0
  planes : Nat := 0
  cause : Nat := 0
deriving DecidableEq, Repr

/-- A granule page in a refuge block (R361, R364): where it stands, its header, and its 256 lines as they are stored. -/
structure GranulePage where
  lun : Nat
  plane : Nat
  page : Nat
  header : BitVec 512
  lines : List (BitVec 528)
deriving DecidableEq, Repr

/-- A ridge. -/
structure Ridge where
  svc : Svc := .out
  refusal : Nat := 0
  early : Bool := false
  /-- firmware's last write to its ENABLE was 0 (R393) -/
  chosenOut : Bool := false
  ledgeReady : Bool := false
  ledgeTested : Bool := false
  /-- 0 Active, 1 Doze, 2 Nap, 3 Dormant -/
  pstate : Nat := 0
  waking : Bool := false
  hintUntil : Option Nat := none
  manifest : Nat := 0
  firstDone : Bool := false
  returnUs : Nat := 0
  poison : SMap Pois := {entries := []}
  half : SMap HalfE := {entries := []}
  /-- the half-erased table has been lost and is being rebuilt from the flag blocks (R418) -/
  heRebuild : Bool := false
  /-- fresh-erase record, oldest first: LUN, block, mask of the planes that passed (R211, R223) -/
  fresh : List (Nat × Nat × Nat) := []
  /-- slot and generation with its round keys, oldest first, and the fills the Gate has started (R268) -/
  keyCache : List ((Nat × Nat) × W512) := []
  keyFills : List (Nat × Nat) := []
  gcm0 : Option GcmJob := none
  gcm1 : Option GcmJob := none
  gcmWait : List GcmJob := []
  /-- interleaves staged, and being staged -/
  staged : List Stage := []
  staging : List Stage := []
  /-- interleaves that wait for room in read staging: spur, context, page, interleave, soft read (R24) -/
  stageWait : List (Nat × Nat × W64 × Nat × Nat) := []
  /-- damaged pages of the last shutdown (R373), each with whether its REPAIR_REQ has been sent -/
  damage : List (W64 × Bool) := []
  /-- the highest EPOCH the ridge's recovery has read (R371) -/
  epochFound : Nat := 0
  /-- UNITS entries recovery read (R374), zero once dealt with; whether RAIL event 7 has been posted -/
  units : List (BitVec 256) := []
  announced : Bool := false
  fills : List Led := []
  closed : Bool := false
  step : Nat := 0
  /-- entries of an OPENING record that waits for the manifest LUN to be idle (R365) -/
  opening : Option (List Nat) := none
  /-- granule pages written into the standby set in this sequence, and the record and granule pages written there since its START -/
  flushed : Nat := 0
  refuge : List RefugePage := []
  granules : List GranulePage := []
  /-- refuge programs a hold window defers, oldest first: LUN and cycles (R123) -/
  refugeWait : List (Nat × List BusCyc) := []
deriving DecidableEq, Repr

/-- A flash channel (R325 to R352), with the training state of its lane: the taps tracking has moved
each DQ bit of each CE from its trained delay (CE × 64 + bit). -/
structure Chan where
  /-- 0 DOWN, 1 UP, 2 FAILED, 3 EMPTY -/
  state : Nat := 0
  bin : Nat := 0
  iface : Nat := 0
  lastReason : Nat := 0
  found : Nat := 0
  refused : Nat := 0
  rediscover : Bool := false
  /-- write protect driven high -/
  wp : Bool := false
  delays : SMap Int := {entries := []}
  /-- the sets of trained delays, one for each CE (R345): which taps training settles on is free: bit n of the set numbered k stands at
  Config.freePick (k + n) taps; and a ridge leaving Dormant has not trained the channel yet -/
  trained : List (Nat × Nat) := []
  untrained : Bool := false
  /-- the last tracking pass of each CE: block time and junction temperature (R346) -/
  trackUs : SMap Nat := {entries := []}
  trackTemps : SMap Int := {entries := []}
  /-- REDISCOVER has been written since the last bring-up -/
  again : Bool := false
  lost : Bool := false
  /-- R453, in ohms: driver impedance, termination at the block, and termination asked of the dies, 0 for off -/
  driver : Nat := 0
  term : Nat := 0
  dieTerm : Nat := 0
deriving DecidableEq, Repr

/-- A region (R38 to R51, R227, R252); its settings stand in the dictionary store. -/
structure Region where
  /-- 0 STOPPED, 1 RUNNING, 2 DRAINING -/
  state : Nat := 0
  refusal : Nat := 0
  block : Nat := 0
  page : Nat := 0
  scrubOut : Nat := 0
  scrubLate : Bool := false
  /-- the step under way has been counted late for a read that reached the bring-up timeout (R232) -/
  scrubTimed : Bool := false
  mirror : Nat := 7
  /-- Refresh pages of the block under patrol: LUN, best rung, best bits, its FPA, count (R230) -/
  refresh : List (Nat × Nat × Nat × W64 × Nat) := []
deriving DecidableEq, Repr

/-- Traverse state of one LUN of one region (R44). -/
structure Tv where
  moving : Bool := false
  stalled : Bool := false
  unset : Bool := true
  count : Nat := 0
  start : Nat := 0
  gap : Nat := 0
deriving DecidableEq, Repr

/-- A gap move in progress (R46). -/
structure Move where
  region : Nat
  lun : Nat
  /-- window offsets of source and destination -/
  src : Nat
  dst : Nat
  /-- 0 not popped yet or waiting for a unit, 1 erasing, 2 looking for the last page, 3 copying, 4 all pages programmed -/
  stage : Nat := 0
  /-- the page looked at, or the place of the page being copied in programming order -/
  page : Nat := 0
  /-- the last page of the source with a valid header -/
  last : Nat := 0
  ctx : Option Nat := none
  unit : Option Nat := none
  /-- it has been refused energy since the last grant (R357) -/
  denied : Bool := false
deriving DecidableEq, Repr

/-- Reloaded Traverse state of a region number (R51). -/
structure Reload where
  region : Nat
  first : Nat
  last : Nat
  words : List (Nat × W64)
deriving DecidableEq, Repr

/-- States of a key slot (R263). -/
inductive KState where
  | empty | loading | live | reloading | draining | erased | failed
deriving DecidableEq, Repr

/-- A key slot (R262 to R267): two copies, generation, users. -/
structure KeySlot where
  state : KState := .empty
  derived : Bool := false
  gen : Nat := 0
  live : W512 := 0
  shadow : W512 := 0
  users : Nat := 0
  oldUsers : Nat := 0
deriving DecidableEq, Repr

/-- What the key port is doing for. -/
inductive KeyFor where
  | load | derive | image | clear
deriving DecidableEq, Repr

/-- One access of a key port command, still to be made (R269 to R272). -/
inductive KeyAcc where
  | lock
  | write (addr : Nat) (data : Nat)
  | status
  | out
  | unlock
deriving DecidableEq, Repr

/-- A command on the key port. -/
structure KeyJob where
  what : KeyFor
  slot : Nat
  index : Nat
  label : Nat
  context : List Byte
  /-- accesses still to be made; the first is outstanding while `busy` -/
  todo : List KeyAcc
  busy : Bool
  /-- waiting for the next LOCK read or STATUS poll -/
  waitLock : Bool
  waitPoll : Bool
  locked : Bool
  /-- result bytes read so far -/
  buf : List Byte
  iter : Nat
  failed : Option (Nat × Nat)
deriving DecidableEq, Repr

/-- A frame to send, or kept for replay (R245): SEQ, flits, sends, and the REPAIR_SERVE that ends, with its status, when the link
accepts it (R258). -/
structure TxFrame where
  seq : Nat
  flits : List (Nat × Flit)
  sends : Nat
  region : Nat
  serve : Option (Desc × Status) := none
deriving DecidableEq, Repr

/-- A hop timer of the origin (R248): frame SEQ, region, what waits on it. -/
structure HopTimer where
  seq : Nat
  region : Nat
  q : Nat
  idx : Nat
  unit : Nat
  acked : List Nat
deriving DecidableEq, Repr

/-- A frame a member forwards once the frames before it have passed their checks (R246): its SEQ here, region, header, and data and
tail flits. -/
structure LaterFrame where
  seq : Nat
  region : Nat
  flit : Flit
  rest : List (Nat × Flit)
deriving DecidableEq, Repr

/-- A Col link (R237 to R251). -/
structure Link where
  /-- 0 OFF, 1 TRAINING, 2 UP, 3 FAILED -/
  state : Nat := 0
  cause : Nat := 0
  early : Bool := false
  /-- the level of M_l_LANES_UP (R432) -/
  lanes : Bool := false
  txSeq : Nat := 0
  rxNext : Nat := 0
  credits : Nat := 0
  /-- the CREDITS value last received, and flits freed here since training -/
  creditsSeen : Nat := 0
  freed : Nat := 0
  replay : List TxFrame := []
  waiting : List TxFrame := []
  /-- HELD0 to HELD3 as received from downstream, and as sent upstream -/
  heldIn : List Nat := [0, 0, 0, 0]
  heldOut : List Nat := [0, 0, 0, 0]
  /-- frames received and not yet held here; frames whose chain goes on: rx SEQ, region, and the SEQ on the other link
  where they were forwarded (R247, R255) -/
  unheld : List Nat := []
  fwd : List (Nat × Nat × Option Nat) := []
  /-- received frames to forward, in order, from the first whose check 3 still runs (R246) -/
  later : List LaterFrame := []
  /-- SEQ and region of frames this block originated and the chain has not all held (R248) -/
  own : List (Nat × Nat) := []
  timers : List HopTimer := []
deriving DecidableEq, Repr

/-- One request table entry (R257). -/
structure RepReq where
  id : BitVec 32
  fpa : W64
  region : Nat
  own : Bool
  upstream : Bool
  since : Nat
deriving DecidableEq, Repr

/-- The Col port. -/
structure Col where
  link0 : Link := {}
  link1 : Link := {}
  table : List RepReq := []
  count : Nat := 0
  localId : Nat := 0
deriving DecidableEq, Repr

/-- The Crestline node (R396 to R402). -/
structure Crest where
  /-- 0 OFF, 1 CHECKING, 2 UP, 3 DOWN -/
  state : Nat := 0
  checkOut : Bool := false
  notices : List W512 := []
  /-- requests received in this microsecond of block time and in the one before that may not be answered yet (R391, R399) -/
  asked : Nat := 0
  askedOld : Nat := 0
deriving DecidableEq, Repr

/-- The loaded control store image (R308, R309). -/
structure Image where
  /-- 0 none, 1 loading, 2 loaded, 3 failed -/
  state : Nat := 0
  result : Nat := 0
  cause : Nat := 0
  build : Nat := 0
  nwords : Nat := 0
  mboxEntry : Nat := 0
  words : List Microword := []
  dispatch : List W64 := []
  buf : List W512 := []
  /-- fabric reads still to return -/
  left : Nat := 0
  tag : BitVec 128 := 0
  /-- outcome of the key port command: cause of R273, and the result bytes -/
  answer : Option (Nat × List Byte) := none
  /-- CRC-32C of the control store words, recorded at load -/
  crc : BitVec 32 := 0
deriving DecidableEq, Repr

/-- A temperature sensor (R456, R457). -/
structure Sensor where
  level : Nat := 0
  fault : Bool := false
deriving DecidableEq, Repr

/-- A record raised and on its way to the Cairn log (R403, R405). -/
structure CairnReq where
  code : Nat
  unit : Nat
  region : Nat
  detail : Nat
  fpa : W64
  arg0 : Nat
  arg1 : Nat
  arg2 : Nat
  /-- it also goes out as a NOTICE frame (R401) -/
  notice : Bool
deriving DecidableEq, Repr

/-- A clear of the log in progress (R414): its step, 1 the key port, 3 CLEARED stored and waiting for the record port; the
requester's path (1 control port, 2 Crestline) and number; its nonce; the SEQ of CLEARED and the records to remove. -/
structure ClearJob where
  stage : Nat
  path : Nat
  who : Nat
  nonce0 : W64
  nonce1 : W64
  cleared : Nat
  removed : Nat
deriving DecidableEq, Repr

/-- A record in the bypass queue (R411): it still waits for the record port, for a RECORD frame. -/
structure Bypassed where
  word : W512
  port : Bool := false
  sink : Bool := false
deriving DecidableEq, Repr

/-- Power-fail states (R354). -/
inductive Pf where
  | unarmed | armed | shutdown | sequence | halted
deriving DecidableEq, Repr

/-- Block time in microseconds, the two resets while they are asserted, and whether the ports take requests (R447). -/
structure Clk where
  timeUs : Nat := 0
  inAoReset : Bool := false
  inBlkReset : Bool := false
  portsUp : Bool := false
deriving DecidableEq, Repr

/-- The always-on island: block time, rail watch, ledger, Cairn log. -/
structure Ao extends Clk where
  /-- last three rail samples, newest first -/
  samples : List Nat := []
  goodRun : Nat := 0
  warnRun : Nat := 0
  pf : Pf := .unarmed
  haltClean : Bool := false
  /-- an orderly shutdown has begun since block reset (R369) -/
  orderly : Bool := false
  allowance : Nat := 0
  lastDenial : Option Nat := none
  denying : Bool := false
  overRange : Option Nat := none
  seqStart : Nat := 0
  ledgerFault : Bool := false
  fatal : Bool := false
  log : List W512 := []
  nextSeq : Nat := 0
  cairnIn : List CairnReq := []
  logFault : Bool := false
  logTested : Bool := false
  /-- the FAULT record of the log's own failure has been written: no record is stored any more (R411) -/
  logTold : Bool := false
  bypass : List Bypassed := []
  /-- token buckets: micro-tokens missing from a full bucket, and suppressed counts, by code -/
  buckets : SMap Nat := {entries := []}
  bucketUs : Nat := 0
  suppressed : SMap Nat := {entries := []}
  /-- RATE of each code (R406); default by R405 -/
  rates : SMap Nat := {entries := []}
  nonce : Option (W64 × W64) := none
  clear : Option ClearJob := none
  code0 : W64 := 0
  code1 : W64 := 0
  keyDesignated : Bool := false
deriving DecidableEq, Repr

/-- Something the block has put on one of its ports. -/
inductive PortOut where
  | fabric (r : FabReq)
  | treadDone (tag : Nat) (data : BitVec 128)
  | ctl (mid code : Nat) (value : W64)
  | crest (syms : List (BitVec 16))
  | col (l type : Nat) (flit : Flit)
  | key (write : Bool) (addr data client : Nat)
  | record (r : W512)
  /-- the level of P_HALTED (R445) -/
  | halted (level : Bool)
  | bus (chan : Nat) (cycles : List BusCyc)
  /-- the level of M_l_ENABLE (R432) -/
  | linkEnable (l : Nat) (level : Bool)
deriving DecidableEq, Repr

end Sys2Proof.Machine
end

