-- ==== Sys2Proof/Machine/State.lean ====
section
/-! DEFINITION. The block's whole state as plain data, the reasons a step can stop, and the state right after reset. -/

namespace Sys2Proof.Machine

/-- The state of the block. Settings and counters of the dictionary stand in `od`, keyed by R8's address over 8; everything
that moves stands in the records of Parts.lean. -/
structure State where
  /-- always-on island: block time, rail watch, ledger, Cairn log -/
  ao : Ao := {}
  /-- dictionary storage (R384 to R390): value of every entry that holds one, default odKeyDefault -/
  od : SMap Nat := {entries := []}
  /-- selector contexts (R389): context × 2^24 + entry key -/
  sel : SMap Nat := {entries := []}
  /-- entries whose storage has an uncorrectable error (R420) -/
  badStore : List Nat := []
  queues : SMap Queue := {entries := []}
  rings : SMap Ring := {entries := []}
  /-- arbitration (R67): starting queue, position of the search -/
  arbFirst : Nat := 0
  arbNext : Nat := 0
  /-- per queue: its credit left, and its BURST, both as the round began -/
  credit : List (Nat × Nat × Nat) := []
  /-- queues searched by the round under way have had their credit set -/
  roundOpen : Bool := false
  hold : List Held := []
  /-- numbers of the descriptors of `hold` that stand outside the store, with their producers (R17, R307) -/
  holdWait : List Nat := []
  nextHold : Nat := 0
  admitNo : Nat := 0
  /-- numbers given out in the order in which phases, complete wordline groups, erases, suspensions and descriptors come to the
ports (R124, R183) -/
  turns : Nat := 0
  fab : Fab := {}
  regions : SMap Region := {entries := []}
  /-- Traverse state: region × 2048 + block-wide LUN -/
  tv : SMap Tv := {entries := []}
  moves : List Move := []
  reloads : List Reload := []
  keys : SMap KeySlot := {entries := []}
  keyJob : Option KeyJob := none
  /-- commands of the image load and the log clear that wait for the key port -/
  keyQueue : List KeyJob := []
  /-- key port: outcome of the last command, and ready bit -/
  keyResult : Nat := 0
  keyReady : Bool := false
  /-- the first read of STATUS after reset is outstanding (R376); the key port's self-test has failed (R447) -/
  keyFirst : Bool := false
  keyBad : Bool := false
  ridges : SMap Ridge := {entries := []}
  spurs : SMap Spur := {entries := []}
  spares : SMap Spare := {entries := []}
  chans : SMap Chan := {entries := []}
  luns : SMap Lun := {entries := []}
  /-- Talus history, live and dictionary copy: block-wide LUN × 64 + group -/
  talus : SMap Nat := {entries := []}
  talusCopy : SMap Nat := {entries := []}
  cornice : SMap Corn := {entries := []}
  /-- Ledge units: ridge × 232 + record -/
  units : SMap Led := {entries := []}
  /-- interleaves that have come to wait for a decoder, in their order (R23) -/
  stages : Nat := 0
  decs : SMap DecIsland := {entries := []}
  col : Col := {}
  crest : Crest := {}
  image : Image := {}
  sensors : SMap Sensor := {entries := []}
  /-- injected memory errors waiting for the next access: class, instance, uncorrectable (R422) -/
  inject : List (Nat × Nat × Bool) := []
  /-- MODEL: counter that the free choices of Config are applied to -/
  free : Nat := 0
  /-- MODEL: what the block has put on its ports, newest first -/
  sent : List PortOut := []
  /-- MODEL: commands waiting, first in, first out -/
  pending : List Instr := []
deriving DecidableEq, Repr

/-- Reasons a step can stop with a fault. No meaning raises one: every rule of the manual gives its event an effect or
none, so a fault would be a gap. -/
inductive Fault where
  /-- never raised; the type needs a constructor. Safe: nothing stops here. -/
  | none
deriving DecidableEq, Repr

/-- Reasons a command can be refused. -/
inductive Refusal where
  /-- raised by an arm of exec whose meaning is not written; safe: nothing is claimed of such a command. -/
  | notModelled (mnemonic : String)
deriving DecidableEq, Repr

/-- The block right after an always-on reset (R444, R446): every dictionary entry at its default, every unit OUT, every
queue OFF, every memory cleared, the log empty with full buckets, the rail watch UNARMED. Both reset inputs have been
released and no self-test has ended yet. -/
def State.reset : State := {}

end Sys2Proof.Machine
end

