-- ==== Sys2Proof/Machine/Flags.lean ====
section
/-! DEFINITION. Statuses and the bits computed from them: the severity order (R15, R113), the read outcome (R109, R110), the
status groups of the notice mask (R77), the bits of QERR (R61). -/

namespace Sys2Proof.Machine

/-- The status OK with all fields zero. -/
def Status.ok : Status := ⟨0, 0, 0⟩

/-- R15, R113: the rank of a status code; the higher is the more severe. Groups in order: 0x00Fx, 0x004x, 0x003x, 0x002x,
0x001x, 0x005x, then the OK codes; within a group the higher value. -/
def severity (c : Nat) : Nat :=
  let g := c / 16
  let r := if g = 15 then 7 else if g = 4 then 6 else if g = 3 then 5 else if g = 2 then 4 else if g = 1 then 3
    else if g = 5 then 2 else 1
  r * 16 + c % 16

/-- R15: the more severe of two descriptor reports; on a tie of status the lower line stands. -/
def worse (a b : Status × W64 × Nat) : Status × W64 × Nat :=
  if severity b.1.code > severity a.1.code then b
  else if b.1.code = a.1.code ∧ b.2.2 < a.2.2 then b
  else a

/-- R77: the bit of NOTICE_MASK for a status: GRP_0 for OK_RECOVERED and OK_SOFT, none for OK and OK_CORRECTED. -/
def noticeBit (c : Nat) : Option Nat :=
  if c = 2 ∨ c = 3 then some 0
  else if c < 2 then none
  else if c / 16 = 15 then some 6
  else if 1 ≤ c / 16 ∧ c / 16 ≤ 5 then some (c / 16)
  else none

/-- R77: does an entry with these flags and this final status need a notice? -/
def needsNotice (notify : Bool) (code mask : Nat) : Bool :=
  notify || decide (code = 0x13) || decide (code = 0x20) ||
    (match noticeBit code with
     | some b => mask.testBit b
     | none => false)

/-- Bits of QERR (R61). -/
def qerrOverrun : Nat := 1
/-- EARLY_ENABLE. -/
def qerrEarly : Nat := 2
/-- FETCH_FAULT. -/
def qerrFetch : Nat := 4
/-- STATUS_WRITE_FAULT. -/
def qerrStatus : Nat := 8
/-- NOTICE_BACKPRESSURE. -/
def qerrNotice : Nat := 16
/-- WM_CROSSED. -/
def qerrWm : Nat := 32

/-- R109: DETAIL of a read outcome, its counts saturating. -/
def outcomeDetail (a : Acc) : Nat := sat 63 a.step * 256 + sat 15 a.rung * 16 + sat 15 a.maxBits
/-- R109: EXTRA of a read outcome. -/
def outcomeExtra (a : Acc) : Nat := sat 65535 a.erasures * 65536 + sat 65535 a.bits

/-- R109: the OK status of a read outcome. -/
def Acc.okStatus (a : Acc) : Status :=
  if a.rung = 0 then
    if a.bits = 0 then Status.ok else ⟨1, outcomeDetail a, outcomeExtra a⟩
  else if a.rung ≤ 3 then ⟨2, outcomeDetail a, outcomeExtra a⟩
  else ⟨3, outcomeDetail a, outcomeExtra a⟩

/-- R110: the statuses a read descriptor's lines give, with the line each came from. -/
def Acc.statuses (a : Acc) (slot : Nat) : List (Status × Nat) :=
  [(a.okStatus, 0)] ++
  (if a.unc > 0 then [(⟨0x10, a.uncLine * 256 + a.uncPlane * 32, sat 65535 a.unc * 65536⟩, a.uncLine)] else []) ++
  (if a.pois > 0 then [(⟨0x11, a.poisLine * 256 + a.poisPlane * 32, sat 65535 a.pois * 65536 + a.poisBits⟩, a.poisLine)] else []) ++
  (if a.tag > 0 then [(⟨0x13, a.tagLine * 256 + a.tagPlane * 32, sat 65535 a.tagDelivered * 65536 + sat 65535 a.tag⟩, a.tagLine)] else []) ++
  (if a.keyErased then [(⟨0x20, slot, sat 65535 a.delivered * 65536⟩, 0)] else []) ++
  (match a.explicit with
   | some st => [(st, 0)]
   | none => [])

/-- R15, R147: the most severe line status of the descriptor. One a routine has set itself stands against line statuses no more severe
than it, the extra word it has set against that of any (R290, R291; DEDUCED, log entry 20). -/
def Acc.status (a : Acc) (slot : Nat) : Status :=
  let worst := ((a.statuses slot).foldl (fun (b : Status × Nat) c => if severity c.1.code > severity b.1.code then c else b) (Status.ok, 0)).1
  let st := match a.explicit with
    | some st => if severity st.code ≥ severity worst.code then st else worst
    | none => worst
  { st with extra := a.extraSet.getD st.extra }

/-- R207: the unit state as UNIT_INFO encodes it. -/
def UState.code : UState → Nat
  | .free => 0 | .opened => 1 | .committed => 2 | .programming => 3 | .done => 4

/-- R321: the service state as STATUS encodes it. -/
def Svc.code : Svc → Nat
  | .out => 0 | .returning => 1 | .inService => 2 | .draining => 3

/-- R61. -/
def QState.code : QState → Nat
  | .off => 0 | .running => 1 | .draining => 2 | .halted => 3

/-- R285. -/
def KState.code : KState → Nat
  | .empty => 0 | .loading => 1 | .live => 2 | .reloading => 3 | .draining => 4 | .erased => 5 | .failed => 6

/-- R381. -/
def Pf.code : Pf → Nat
  | .unarmed => 0 | .armed => 1 | .shutdown => 2 | .sequence => 3 | .halted => 4

end Sys2Proof.Machine
end

