-- ==== Sys2Proof/Machine/LineCode.lean ====
section
/-! DEFINITION. The stored format of a line: scrambler (R148, R149), line-check bits (R144), inner BCH code (R145, R146),
erased test (R150), Chase decode of the soft rung (R162). -/

namespace Sys2Proof.Machine

/-! ### Scrambler -/

/-- R148: one step of the LFSR. -/
def lfsrStep (s : BitVec 32) : BitVec 32 :=
  let fb := s.getLsbD 31 ^^ s.getLsbD 30 ^^ s.getLsbD 29 ^^ s.getLsbD 9
  (s <<< 1) ||| (if fb then 1#32 else 0#32)

/-- The mask of the n bits after seeding: output bit k is bit k. -/
def scrambleMask (m : Nat) : Nat → BitVec 32 → Nat → Nat → BitVec m
  | 0, _, _, acc => BitVec.ofNat m acc
  | n + 1, s, k, acc => scrambleMask m n (lfsrStep s) (k + 1) (acc + (if s.getLsbD 31 then 2 ^ k else 0))

/-- R149: the seed of a unit of a page. -/
def scrambleSeed (seed : Nat) (block page slot : Nat) : BitVec 32 :=
  let s : BitVec 32 := BitVec.ofNat 32 seed
  let i := s ^^^ (BitVec.ofNat 32 block <<< 17) ^^^ (BitVec.ofNat 32 page <<< 3) ^^^ (BitVec.ofNat 32 slot <<< 23)
    ^^^ BitVec.ofNat 32 slot
  if i = 0 then 1 else i

/-- R148: scramble, or descramble, a unit. -/
def scramble {m : Nat} (init : BitVec 32) (w : BitVec m) : BitVec m := w ^^^ scrambleMask m m init 0 0

/-- R214: the system seed. -/
def systemSeed : Nat := 0x7A110100

/-- R150: a unit whose first n raw bits hold at most z zeros is erased. -/
def isErased {m : Nat} (z : Nat) (raw : BitVec m) : Bool := decide (m - popCount raw ≤ z)

/-! ### Line-check bits and BCH code -/

/-- Remainder of a polynomial divided by g of degree d: the dividend's top bit is bit n - 1 (by fuel n). -/
def polyMod (d g : Nat) : Nat → Nat → Nat
  | 0, a => a
  | n + 1, a => polyMod d g n (if a.testBit n && decide (d ≤ n) then a ^^^ (g <<< (n - d)) else a)

/-- R144: LC of the 528 data and meta bits. -/
def lcBits (l : BitVec 528) : Nat := polyMod 2 7 528 l.toNat

/-- R145: the generator, the product of the minimal polynomials of α, α³ and α⁵ over x¹⁰ + x³ + 1. -/
def bchGen : Nat := 0x50A91113

/-- R145: parity of a message of n bits. -/
def bchParity (n msg : Nat) : Nat := polyMod 30 bchGen (n + 30) (msg <<< 30)

/-- R145: encode a stored line into its slot. -/
def encodeSlot (l : BitVec 528) : Slot :=
  let msg := l.toNat + lcBits l * 2 ^ 528
  BitVec.ofNat 560 (msg + bchParity 530 msg * 2 ^ 530)

/-- Product in GF(2^10). -/
def gf10Mul (a b : Nat) : Nat :=
  (List.range 10).foldr (fun i acc =>
    let d := acc * 2
    let d := if d.testBit 10 then d ^^^ 0x409 else d
    if b.testBit i then d ^^^ a else d) 0

/-- Power in GF(2^10), by fuel over the exponent's bits. -/
def gf10Pow : Nat → Nat → Nat → Nat
  | 0, _, _ => 1
  | k + 1, a, e =>
    if e = 0 then 1
    else
      let h := gf10Pow k (gf10Mul a a) (e / 2)
      if e % 2 = 1 then gf10Mul a h else h

/-- α to a power. -/
def gf10Alpha (e : Nat) : Nat := gf10Pow 11 2 (e % 1023)

/-- Inverse. -/
def gf10Inv (a : Nat) : Nat := gf10Pow 11 a 1022

/-- R145: the exponent of x that slot bit n holds, in a code whose first parity bit is slot bit b. -/
def codePos (b n : Nat) : Nat := if n ≥ b then n - b else n + 30

/-- Syndrome S_k: Horner's rule from the highest coefficient down over the code polynomial. -/
def synd (k : Nat) (len c : Nat) : Nat :=
  let a := gf10Alpha k
  (List.range len).foldr (fun i acc => gf10Mul acc a ^^^ (if c.testBit i then 1 else 0)) 0

/-- The code polynomial's coefficients: parity in [29:0], message above (R145). -/
def codeWord (b w : Nat) : Nat := (w >>> b) % 2 ^ 30 + (w % 2 ^ b) * 2 ^ 30

/-- The error locator of R146: degree and σ1, σ2, σ3; none when its degree is above 3. -/
def locator (s1 s3 s5 : Nat) : Option (Nat × Nat × Nat × Nat) :=
  let s1c := gf10Mul s1 (gf10Mul s1 s1)
  let d := s1c ^^^ s3
  if d = 0 then
    if s1 = 0 then (if s5 = 0 then some (0, 0, 0, 0) else none)
    else if gf10Pow 11 s1 5 = s5 then some (1, s1, 0, 0) else none
  else
    let g2 := gf10Mul (gf10Mul (gf10Mul s1 s1) s3 ^^^ s5) (gf10Inv d)
    let g3 := d ^^^ gf10Mul s1 g2
    some (if g3 = 0 then 2 else 3, s1, g2, g3)

/-- Positions 0 to len − 1 that are roots of the locator: X³ + σ1 X² + σ2 X + σ3 (times X^(v−3)). -/
def locRoots (len : Nat) (l : Nat × Nat × Nat × Nat) : List Nat :=
  (List.range len).filter (fun e =>
    let x := gf10Alpha e
    let x2 := gf10Mul x x
    (gf10Mul x2 x ^^^ gf10Mul l.2.1 x2 ^^^ gf10Mul l.2.2.1 x ^^^ l.2.2.2) = 0)

/-- Outcome of inner decoding (R146). -/
inductive Inner where
  | clean
  | corrected (v : Nat)
  | failLocator
  | failCheck (applied : Bool)
deriving DecidableEq, Repr

/-- Did the line pass? -/
def Inner.ok : Inner → Bool
  | .clean => true
  | .corrected _ => true
  | .failLocator => false
  | .failCheck _ => false

/-- Bits counted for the line (R146). -/
def Inner.bits : Inner → Nat
  | .clean => 0
  | .corrected v => v
  | .failLocator => 0
  | .failCheck _ => 0

/-- BCH correction of a word of b message bits and 30 parity bits at bit b: none when the locator is not accepted,
else the bits flipped and the corrected word. -/
def bchCorrect (b w : Nat) : Option (Nat × Nat) :=
  let c := codeWord b w
  let len := b + 30
  match locator (synd 1 len c) (synd 3 len c) (synd 5 len c) with
  | none => none
  | some l =>
    if l.1 = 0 then some (0, w)
    else
      let r := locRoots len l
      if r.length = l.1 then
        some (l.1, r.foldl (fun a e => a ^^^ (if e < 30 then 2 ^ (e + b) else 2 ^ (e - 30))) w)
      else none

/-- R146: inner decoding of a descrambled slot. -/
def innerDecode (sl : Slot) : Inner × BitVec 528 :=
  match bchCorrect 530 sl.toNat with
  | none => (.failLocator, sl.setWidth 528)
  | some (v, w) =>
    let l := BitVec.ofNat 528 w
    if lcBits l = (w >>> 528) % 4 then (if v = 0 then .clean else .corrected v, l)
    else (.failCheck (decide (v ≠ 0)), l)

/-! ### Chase decode (R162) -/

/-- Bits on which three reads disagree. -/
def weakBits (a b c : Slot) : List Nat :=
  (List.range 560).filter (fun i => ¬ (a.getLsbD i == b.getLsbD i && b.getLsbD i == c.getLsbD i))

/-- The slot with the weak bits that pattern p names flipped. -/
def flipPattern (weak : List Nat) (p : Nat) (s : Slot) : Slot :=
  (weak.zipIdx).foldl (fun a (wi : Nat × Nat) => if p.testBit wi.2 then a ^^^ (1#560 <<< wi.1) else a) s

/-- R162: the accepted pattern that flips the fewest bits, the lowest pattern on a tie. The three reads are already
descrambled; the middle one is the centre. Answers the bits counted and the line. -/
def chase (chaseBits : Nat) (lo mid hi : Slot) : Option (Nat × BitVec 528) :=
  let weak := weakBits lo mid hi
  if weak.length > chaseBits then none
  else
    (List.range (2 ^ weak.length)).foldl (fun (best : Option (Nat × BitVec 528)) p =>
      let s := flipPattern weak p mid
      match innerDecode s with
      | (r, l) =>
        if r.ok then
          let total := popCount ((encodeSlot l) ^^^ mid)
          match best with
          | none => some (total, l)
          | some (t, _) => if total < t then some (total, l) else best
        else best) none

/-- R146, R162: how many of the hard decodes of a Chase decode apply a correction that LC rejects. -/
def chaseRejects (chaseBits : Nat) (lo mid hi : Slot) : Nat :=
  let weak := weakBits lo mid hi
  if weak.length > chaseBits then 0
  else ((List.range (2 ^ weak.length)).filter (fun p => decide ((innerDecode (flipPattern weak p mid)).1 = .failCheck true))).length

end Sys2Proof.Machine
end

