-- ==== Sys2Proof/Machine/PageCode.lean ====
section
/-! DEFINITION. The page code and the page header: geometry (R151, R152), shortened Reed–Solomon columns (R153), outer
decoding (R154), header composition and validity (R155 to R157). -/

namespace Sys2Proof.Machine

/-- R152: parity lines per interleave of a page of P bytes. -/
def parityLines (P : Nat) : Nat := min 6 ((P - 17984) / 132)

/-- R151: length of the header area. -/
def headerLen (P : Nat) : Nat := P - 17920 - 132 * parityLines P

/-- R151: byte offset of a unit within the physical page, by the unit index of R149. -/
def unitOffset (P u : Nat) : Nat :=
  let p := parityLines P
  if u < 256 then 70 * u
  else if u ≥ 511 then 17920 + 132 * p
  else if u < 262 then 17920 + 66 * (u - 256)
  else 17920 + 66 * (p + (u - 262))

/-- Product in GF(2^8), field polynomial 0x11D. -/
def rsMul (a b : Nat) : Nat :=
  (List.range 8).foldr (fun i acc =>
    let d := acc * 2
    let d := if d.testBit 8 then d ^^^ 0x11D else d
    if b.testBit i then d ^^^ a else d) 0

/-- Power, by fuel. -/
def rsPow : Nat → Nat → Nat → Nat
  | 0, _, _ => 1
  | k + 1, a, e =>
    if e = 0 then 1
    else
      let h := rsPow k (rsMul a a) (e / 2)
      if e % 2 = 1 then rsMul a h else h

/-- α to a power. -/
def rsAlpha (e : Nat) : Nat := rsPow 9 2 (e % 255)
/-- Inverse. -/
def rsInv (a : Nat) : Nat := rsPow 9 a 254

/-- The generator Π (x − α^k), k < p: coefficients, lowest first. -/
def rsGen : Nat → List Nat
  | 0 => [1]
  | k + 1 =>
    let g := rsGen k
    let a := rsAlpha k
    List.zipWith (· ^^^ ·) (0 :: g) (g.map (fun c => rsMul a c) ++ [0])

/-- R153: parity of a column: 128 data symbols, position 0 first; answers the p parity symbols, line q = 0 first. -/
def rsParity (p : Nat) (data : List Nat) : List Nat :=
  let g := ((rsGen p).reverse).drop 1
  data.foldl (fun r d =>
    let f := d ^^^ r.getD 0 0
    List.zipWith (· ^^^ ·) (r.drop 1 ++ [0]) (g.map (fun c => rsMul f c))) (List.replicate p 0)

/-- Syndrome k of a column's 128 + p symbols, highest coefficient first. -/
def rsSynd (k : Nat) (col : List Nat) : Nat :=
  let a := rsAlpha k
  col.foldl (fun acc c => rsMul acc a ^^^ c) 0

/-- The locator α^(p+127−i) of symbol i of a column. -/
def rsLoc (p i : Nat) : Nat := rsAlpha (p + 127 - i)

/-- Solve Σ_j x_j · X_j^k = S_k for k below the number of unknowns, by elimination of one unknown at a time: the system
with unknown 0 removed has right sides S_(k+1) − X_0 S_k and coefficients x_j (X_j − X_0). -/
def rsSolve : List Nat → List Nat → List Nat
  | [], _ => []
  | x0 :: xs, ss =>
    let s0 := ss.getD 0 0
    let ss' := List.zipWith (fun a b => b ^^^ rsMul x0 a) ss (ss.drop 1)
    let ys := rsSolve xs ss'
    let rest := List.zipWith (fun y x => rsMul y (rsInv (x ^^^ x0))) ys xs
    (rest.foldl (· ^^^ ·) s0) :: rest

/-- Do the errors vals at locators locs explain syndrome k? -/
def rsExplains (k : Nat) (locs vals : List Nat) (s : Nat) : Bool :=
  decide ((List.zipWith (fun x v => rsMul v (rsPow 9 x k)) locs vals).foldl (· ^^^ ·) 0 = s)

/-- R154: the errors at the given positions, if they explain all p syndromes. -/
def rsTry (p : Nat) (synds : List Nat) (pos : List Nat) : Option (List (Nat × Nat)) :=
  let locs := pos.map (rsLoc p)
  let vals := rsSolve locs (synds.take locs.length)
  if (synds.zipIdx).all (fun sk => rsExplains sk.2 locs vals sk.1) then some (pos.zip vals) else none

/-- R154: decode a column. The symbols are the 128 data symbols then the p parity symbols; erased lists the erased
positions. Answers the corrections, or none where the column fails. -/
def rsDecode (p : Nat) (col : List Nat) (erased : List Nat) : Option (List (Nat × Nat)) :=
  let synds := (List.range p).map (fun k => rsSynd k col)
  if erased.length > p then none
  else match rsTry p synds erased with
    | some c => some c
    | none =>
      if erased.length + 2 ≤ p then
        (List.range (128 + p)).findSome? (fun i => if erased.contains i then none else rsTry p synds (erased ++ [i]))
      else none

/-- Byte j of a 66-byte line. -/
def lineByte (l : BitVec 528) (j : Nat) : Nat := bitsOf l (8 * j + 7) (8 * j)

/-- R153: the p parity lines of an interleave's 128 data lines. -/
def pageParity (p : Nat) (lines : List (BitVec 528)) : List (BitVec 528) :=
  let cols := (List.range 66).map (fun j => rsParity p (lines.map (fun l => lineByte l j)))
  (List.range p).map (fun q => (cols.zipIdx).foldl (fun a cj => a ||| place 528 (8 * cj.2) (cj.1.getD q 0)) 0)

/-- The columns of an interleave decoded: data lines by position (none: erased), parity lines. -/
def outerColumns (p : Nat) (data : List (Option (BitVec 528))) (parity : List (BitVec 528)) : List (Option (List (Nat × Nat))) :=
  let erased := ((data.zipIdx).filter (fun d => d.1.isNone)).map (fun d => d.2)
  let raw := data.map (fun d => d.getD 0) ++ parity
  (List.range 66).map (fun j => rsDecode p (raw.map (fun l => lineByte l j)) erased)

/-- R154: how many columns correct an error in a data line that passed inner decoding, whether or not the interleave succeeds. -/
def outerErrors (data : List (Option (BitVec 528))) (cols : List (Option (List (Nat × Nat)))) : Nat :=
  (cols.map (fun c => ((c.getD []).filter (fun iv => decide (iv.2 ≠ 0) && ((data[iv.1]?).getD none).isSome)).length)).foldl (· + ·) 0

/-- R154: outer decoding of an interleave. Answers the lines with their positions, and the positions changed. -/
def outerDecode (p : Nat) (data : List (Option (BitVec 528))) (parity : List (BitVec 528)) :
    Option (List (BitVec 528) × List Nat) :=
  let erased := ((data.zipIdx).filter (fun d => d.1.isNone)).map (fun d => d.2)
  let raw := data.map (fun d => d.getD 0) ++ parity
  let cols := outerColumns p data parity
  if cols.all (fun c => c.isSome) then
    let fixes := (cols.zipIdx).flatMap (fun cj => (cj.1.getD []).map (fun (iv : Nat × Nat) => (iv.1, cj.2, iv.2)))
    let lines := (raw.zipIdx).map (fun li =>
      (fixes.filter (fun f => f.1 = li.2)).foldl (fun a f => a ^^^ place 528 (8 * f.2.1) f.2.2) li.1)
    let touched := (List.range 128).filter (fun i => erased.contains i || (fixes.any (fun f => f.1 = i ∧ f.2.2 ≠ 0)))
    some (lines.take 128, touched)
  else none

/-! ### The page header -/

/-- The fields of a page header (R155). -/
structure PageHeader where
  region : Nat
  seq : Nat
  epoch : Nat
  unit : BitVec 32
  target : W64
  logical : Option Nat
  paired : Nat
  flags : Nat
  p : Nat
  cellMode : Nat
  cipherMode : Nat
  keySlot : Nat
deriving DecidableEq, Repr

/-- The header's 56 covered bytes as a number, before CRC and HINNER. -/
def headerBody (h : PageHeader) : W512 :=
  place 512 0 0x5C1A ||| place 512 16 1 ||| place 512 24 (h.region % 256) ||| place 512 32 (h.seq % 2 ^ 48)
    ||| place 512 80 (h.epoch % 65536) ||| place 512 96 h.unit.toNat ||| place 512 128 h.target.toNat
    ||| place 512 192 (match h.logical with | some b => b % 32768 | none => 0)
    ||| place 512 207 (if h.logical.isSome then 1 else 0) ||| place 512 208 (h.paired % 256)
    ||| place 512 216 (h.flags % 256) ||| place 512 224 (h.p % 256) ||| place 512 232 (h.cellMode % 4)
    ||| place 512 234 (h.cipherMode % 4) ||| place 512 240 (h.keySlot % 1024)

/-- R155, R157: the 64-byte header with CRC and HINNER. -/
def encodeHeader (h : PageHeader) : W512 :=
  let b := headerBody h
  let c := b ||| place 512 448 (crc32c (bytesOf 56 b)).toNat
  c ||| place 512 482 (bchParity 480 (c.toNat % 2 ^ 480))

/-- R157: is a header copy valid: BCH decoding succeeds, CRC matches, MAGIC right. Answers the corrected header. -/
def decodeHeader (w : W512) : Option W512 :=
  let n := w.toNat
  match bchCorrect 480 (n % 2 ^ 480 + (n >>> 482) * 2 ^ 480) with
  | none => none
  | some (_, m) =>
    let c : W512 := BitVec.ofNat 512 (m % 2 ^ 480)
    if (crc32c (bytesOf 56 c)).toNat = bitsOf c 479 448 ∧ bitsOf c 15 0 = 0x5C1A then some c else none

/-- The fields of a valid header. -/
def headerFields (w : W512) : PageHeader :=
  { region := bitsOf w 31 24, seq := bitsOf w 79 32, epoch := bitsOf w 95 80, unit := w.extractLsb' 96 32,
    target := w.extractLsb' 128 64, logical := if w.getLsbD 207 then some (bitsOf w 206 192) else none,
    paired := bitsOf w 215 208, flags := bitsOf w 223 216, p := bitsOf w 231 224, cellMode := bitsOf w 233 232,
    cipherMode := bitsOf w 235 234, keySlot := bitsOf w 249 240 }

end Sys2Proof.Machine
end

