-- ==== Sys2Proof/Machine/Ops.lean ====
section
/-! DEFINITION. The named operations over the state: dictionary storage and counters, units of each kind, the fabric port,
notices and their backlogs (R84 to R87), Cairn records (R403), ready bits (R394), ledger charges (R355 to R358), Traverse
mapping (R43). The families call these and nothing below them. -/

namespace Sys2Proof.Machine

/-! ### Dictionary storage -/

/-- The stored value of an entry. -/
def od (s : State) (i sub : Nat) : Nat := s.od.get (odKeyDefault (odKey i sub)) (odKey i sub)

/-- Store a value. -/
def setOd (s : State) (i sub v : Nat) : State :=
  { s with od := s.od.set (odKeyDefault (odKey i sub)) (odKey i sub) v }

/-- Raise a counter by n: it saturates in a U8, U16 or U32 entry and wraps in a U64 entry (R177, R236, R60). -/
def countBy (s : State) (i sub n : Nat) : State :=
  let v := od s i sub + n
  match odRow i sub with
  | some r => setOd s i sub (match r.ty with
      | .u8 => sat 255 v
      | .u16 => sat 65535 v
      | .u32 => sat (2 ^ 32 - 1) v
      | .u64 => v % 2 ^ 64
      | .bool => sat 1 v
      | .octets => v % 2 ^ 64)
  | none => s

/-- Raise a counter by one. -/
def count (s : State) (i sub : Nat) : State := countBy s i sub 1

/-- A selector of a requester's context (R389); its default is the entry's. -/
def selOf (s : State) (req i sub : Nat) : Nat :=
  s.sel.get (odKeyDefault (odKey i sub)) (req * 2 ^ 24 + odKey i sub)

/-- Write a selector. -/
def setSel (s : State) (req i sub v : Nat) : State :=
  { s with sel := s.sel.set (odKeyDefault (odKey i sub)) (req * 2 ^ 24 + odKey i sub) v }

/-- Entry of region r. -/
def rOd (s : State) (r sub : Nat) : Nat := od s (0x2000 + r) sub
/-- Entry of queue q. -/
def qOd (s : State) (q sub : Nat) : Nat := od s (0x3000 + q) sub

/-! ### Records by number -/

/-- Queue q. -/
def queue (s : State) (q : Nat) : Queue := s.queues.get {} q
/-- Change queue q. -/
def modQueue (s : State) (q : Nat) (f : Queue → Queue) : State := { s with queues := s.queues.modify {} q f }
/-- Ring n. -/
def ring (s : State) (n : Nat) : Ring := s.rings.get {} n
/-- Change ring n. -/
def modRing (s : State) (n : Nat) (f : Ring → Ring) : State := { s with rings := s.rings.modify {} n f }
/-- Region r. -/
def region (s : State) (r : Nat) : Region := s.regions.get {} r
/-- Change region r. -/
def modRegion (s : State) (r : Nat) (f : Region → Region) : State := { s with regions := s.regions.modify {} r f }
/-- Traverse state of a LUN of a region. -/
def tvOf (s : State) (r lun : Nat) : Tv := s.tv.get {} (r * 2048 + lun)
/-- Change it. -/
def modTv (s : State) (r lun : Nat) (f : Tv → Tv) : State := { s with tv := s.tv.modify {} (r * 2048 + lun) f }
/-- Key slot k. -/
def keySlot (s : State) (k : Nat) : KeySlot := s.keys.get {} k
/-- Change it. -/
def modKey (s : State) (k : Nat) (f : KeySlot → KeySlot) : State := { s with keys := s.keys.modify {} k f }
/-- Ridge r. -/
def ridge (s : State) (r : Nat) : Ridge := s.ridges.get {} r
/-- Change it. -/
def modRidge (s : State) (r : Nat) (f : Ridge → Ridge) : State := { s with ridges := s.ridges.modify {} r f }
/-- Spur p. -/
def spur (s : State) (p : Nat) : Spur := s.spurs.get {} p
/-- Change it. -/
def modSpur (s : State) (p : Nat) (f : Spur → Spur) : State := { s with spurs := s.spurs.modify {} p f }
/-- Spare g. -/
def spare (s : State) (g : Nat) : Spare := s.spares.get {} g
/-- Change it. -/
def modSpare (s : State) (g : Nat) (f : Spare → Spare) : State := { s with spares := s.spares.modify {} g f }
/-- Channel c. -/
def chan (s : State) (c : Nat) : Chan := s.chans.get {} c
/-- Change it. -/
def modChan (s : State) (c : Nat) (f : Chan → Chan) : State := { s with chans := s.chans.modify {} c f }
/-- Block-wide LUN. -/
def lunOf (s : State) (l : Nat) : Lun := s.luns.get {} l
/-- Change it. -/
def modLun (s : State) (l : Nat) (f : Lun → Lun) : State := { s with luns := s.luns.modify {} l f }
/-- Cornice entry. -/
def corn (s : State) (e : Nat) : Corn := s.cornice.get {} e
/-- Change it. -/
def modCorn (s : State) (e : Nat) (f : Corn → Corn) : State := { s with cornice := s.cornice.modify {} e f }
/-- Ledge unit by key (ridge × 232 + record). -/
def unit (s : State) (u : Nat) : Led := s.units.get {} u
/-- Change it. -/
def modUnit (s : State) (u : Nat) (f : Led → Led) : State := { s with units := s.units.modify {} u f }
/-- Decoder island. -/
def dec (s : State) (d : Nat) : DecIsland := s.decs.get {} d
/-- Change it. -/
def modDec (s : State) (d : Nat) (f : DecIsland → DecIsland) : State := { s with decs := s.decs.modify {} d f }
/-- Col link l. -/
def link (s : State) (l : Nat) : Link := if l = 0 then s.col.link0 else s.col.link1
/-- Change it. -/
def modLink (s : State) (l : Nat) (f : Link → Link) : State :=
  if l = 0 then { s with col := { s.col with link0 := f s.col.link0 } }
  else { s with col := { s.col with link1 := f s.col.link1 } }
/-- Change the always-on island. -/
def modAo (s : State) (f : Ao → Ao) : State := { s with ao := f s.ao }
/-- A context of a spur. -/
def ctxOf (s : State) (p c : Nat) : Ctx := (spur s p).ctxs.get {} c
/-- Is the context in use? -/
def ctxUsed (s : State) (p c : Nat) : Bool := (spur s p).ctxs.keys.contains c
/-- Change a context. -/
def modCtx (s : State) (p c : Nat) (f : Ctx → Ctx) : State :=
  modSpur s p (fun x => { x with ctxs := x.ctxs.modify {} c f })
/-- A port of a spur. -/
def port (s : State) (p k : Nat) : Port := if k = 0 then (spur s p).port0 else (spur s p).port1
/-- Change a port. -/
def modPort (s : State) (p k : Nat) (f : Port → Port) : State :=
  modSpur s p (fun x => if k = 0 then { x with port0 := f x.port0 } else { x with port1 := f x.port1 })

/-- Put something on a port. -/
def emit (s : State) (o : PortOut) : State := { s with sent := o :: s.sent }

/-- The status byte the die reports for an operation of a switch of flag blocks (Config.freeDie). -/
def dieReport (s : State) : Nat × State := ((Config.freeDie s.free).toNat, { s with free := s.free + 1 })

/-- The next free choice (Config.freePick) and the state with its counter advanced. -/
def pick (s : State) : Nat × State := (Config.freePick s.free, { s with free := s.free + 1 })

/-- The entry of queue q with index i. -/
def entOf (s : State) (q i : Nat) : Option Ent := (queue s q).ents.find? (fun e => e.idx = i)

/-- Change that entry. -/
def modEnt (s : State) (q i : Nat) (f : Ent → Ent) : State :=
  modQueue s q (fun x => { x with ents := x.ents.map (fun e => if e.idx = i then f e else e) })

/-! ### Fabric port (R424 to R428) -/

/-- Does a tag stand free: no outstanding request and no quarantine holds it (R427, R428)? -/
def Fab.tagFree (f : Fab) (t : Nat) : Bool :=
  f.reqs.all (fun r => decide (r.tag ≠ t)) && f.quarantine.all (fun e => decide (e.1 ≠ t))

/-- The first free tag at or after t, by fuel. -/
def Fab.findTag (f : Fab) : Nat → Nat → Option Nat
  | 0, _ => none
  | k + 1, t => if f.tagFree (t % 4096) then some (t % 4096) else f.findTag k (t + 1)

/-- A request takes a free tag, whichever (R427), c being where the block looks first; or it waits for one. -/
def Fab.add (f : Fab) (c : Nat) (r : FabReq) : Fab :=
  match f.findTag 4096 c with
  | none => { f with waiting := f.waiting ++ [r] }
  | some t => { f with reqs := f.reqs ++ [{ r with tag := t }] }

/-- What goes out on the port with it. -/
def Fab.out (f : Fab) (c : Nat) (r : FabReq) : List PortOut :=
  match f.findTag 4096 c with
  | none => []
  | some t => [.fabric { r with tag := t }]

/-- R25: the inbound slots used since entry fetch last had one, after a request that goes out, c being where the block looks for a
tag. One that only joins the waiting ones uses no slot. -/
def Fab.slotAfter (f : Fab) (c : Nat) (r : FabReq) : Nat :=
  if r.write ∨ f.findTag 4096 c = none then f.slots else match r.purpose with
    | .fetch _ _ => 0
    | _ => f.slots + 1

/-- Issue a request that moves data of Scree class cls, 4 for none. -/
def fabIssueAt (s : State) (cls : Nat) (write : Bool) (addr len : Nat) (data : List W512) (p : Purpose) : State :=
  let r : FabReq := { tag := 0, write := write, addr := addr, len := len, data := data, purpose := p, since := s.ao.timeUs, cls := cls }
  { s with free := s.free + 1, fab := { s.fab.add (Config.freePick s.free) r with slots := s.fab.slotAfter (Config.freePick s.free) r },
           sent := s.fab.out (Config.freePick s.free) r ++ s.sent }

/-- Issue a request that moves no descriptor's data. -/
def fabIssue (s : State) (write : Bool) (addr len : Nat) (data : List W512) (p : Purpose) : State := fabIssueAt s 4 write addr len data p

/-- A write of fewer than 64 bytes: its data ride at bytes ADDR mod 64 onward of the beat (R426). -/
def fabSmall (s : State) (addr len v : Nat) (p : Purpose) : State :=
  fabIssue s true addr len [place 512 (8 * (addr % 64)) v] p

/-- The owner of some requests has gone: their responses will have no effect. -/
def orphan (s : State) (f : Purpose → Bool) : State :=
  let g := fun r : FabReq => if f r.purpose then { r with purpose := .stale } else r
  { s with fab := { s.fab with reqs := s.fab.reqs.map g, waiting := s.fab.waiting.map g } }

/-- R25: the next of the waiting requests of one direction: entry fetch in the slot reserved for it once in 32 inbound slots, else
data of class 0, else the oldest. -/
def Fab.nextIn (f : Fab) (write : Bool) : Option FabReq :=
  let l := f.waiting.filter (fun r => r.write = write)
  let fetch := l.find? (fun r => match r.purpose with
    | .fetch _ _ => true
    | _ => false)
  if f.slots ≥ 31 ∧ fetch ≠ none then fetch else (l.find? (fun r => r.cls = 0)).or l.head?

/-- Which waiting request takes a tag that has come free. Requests wait only for a tag, tags serve both directions, and the two take
turns while both wait (DEDUCED, log entry 47), so neither keeps the other's reserved slot from it. -/
def Fab.next (f : Fab) : Option FabReq := if f.lastOut then (f.nextIn false).or (f.nextIn true) else (f.nextIn true).or (f.nextIn false)

/-- Let a waiting request take a tag that has come free. -/
def fabDrain (s : State) : State :=
  match s.fab.next with
  | none => s
  | some r => fabIssueAt { s with fab := { s.fab with waiting := s.fab.waiting.erase r, lastOut := r.write } } r.cls r.write r.addr r.len r.data r.purpose

/-- Cut a transfer at 4,096-byte boundaries (R426), by fuel: addresses and lengths. -/
def fabPieces : Nat → Nat → Nat → List (Nat × Nat)
  | 0, _, _ => []
  | k + 1, a, n =>
    if n = 0 then []
    else
      let room := 4096 - a % 4096
      if n ≤ room then [(a, n)] else (a, room) :: fabPieces k (a + room) (n - room)

/-- The outstanding request of a tag. -/
def reqOf (s : State) (tag : Nat) : Option FabReq := s.fab.reqs.find? (fun r => r.tag = tag)

/-- Take an answered request away, count its error (R450), and let a waiting request have the tag. A timeout has a count of
its own (R428). -/
def fabTake (s : State) (r : FabReq) (err : Bool) : State :=
  let s := { s with fab := { s.fab with reqs := s.fab.reqs.filter (fun x => x.tag ≠ r.tag) } }
  let s := if err ∧ ¬ r.timedOut then count s 0x1200 (if r.write then 0x04 else 0x03) else s
  fabDrain s

/-- A response to a tag with no outstanding request is discarded and counted (R428). -/
def lateTag (s : State) : State := count s 0x1200 0x05

/-! ### Cairn records and notices -/

/-- Raise a record toward the log (R403); CAIRN_RECORD stores it. -/
def cairn (s : State) (code unit region detail : Nat) (fpa : W64) (arg0 arg1 arg2 : Nat) : State :=
  modAo s (fun a => { a with cairnIn := a.cairnIn ++ [⟨code, unit, region, detail, fpa, arg0, arg1, arg2, false⟩] })

/-- Raise a record that also goes out as a NOTICE frame (R401). -/
def cairnLoud (s : State) (code unit region detail : Nat) (fpa : W64) (arg0 arg1 arg2 : Nat) : State :=
  modAo s (fun a => { a with cairnIn := a.cairnIn ++ [⟨code, unit, region, detail, fpa, arg0, arg1, arg2, true⟩] })

/-- UNIT of a record: kind and number (R404). -/
def cu (kind n : Nat) : Nat := kind * 4096 + n % 4096

/-- Places of a ring's backlog in use, reserved ones included (R80 BACKLOG). -/
def backlogUsed (r : Ring) : Nat := r.backlog.length + r.reserved

/-- Put a notice in a ring's backlog; it carries DROPPED_BEFORE when autonomous notices were dropped (R85). -/
def ringPut (r : Ring) (n : Notice) : Ring :=
  { r with backlog := r.backlog ++ [{ n with droppedBefore := r.dropped }], dropped := false }

/-- R85: an autonomous notice enters the backlog, or is dropped and counted. -/
def postAuto (s : State) (n : Nat) (x : Notice) : State :=
  if backlogUsed (ring s n) < 256 then modRing s n (fun r => ringPut r x)
  else count (modRing s n (fun r => { r with dropped := true })) (0x1110 + n) 0x0D

/-- An autonomous notice record (R78, R79). DESIGN CHOICE (log entry 51): TIME is the moment the notice is raised, not the one its record is
placed or written; R78 does not say which. -/
def autoNotice (s : State) (code region detail extra : Nat) (fpa : W64) : Notice :=
  { code := code, fpa := fpa, time := s.ao.timeUs % 2 ^ 32, extra := extra, detail := detail, status := 0, region := region,
    index := 0, tag := 0, queue := 0xFFFF, droppedBefore := false }

/-- Post an autonomous notice to a region's NOTICE_RING. -/
def regionNotice (s : State) (r code detail extra : Nat) (fpa : W64) : State :=
  postAuto s (rOd s r 0x1A) (autoNotice s code r detail extra fpa)

/-- Post an autonomous notice to BLOCK_NOTICE_RING. -/
def blockNotice (s : State) (code detail extra : Nat) : State :=
  postAuto s (od s 0x1100 0x02) (autoNotice s code 0xFFFF detail extra 0)

/-- R86: a queue notice enters the backlog; with none free its pending flag is set, or it merges into one pending. -/
def queueNotice (s : State) (q code detail extra : Nat) : State :=
  let n := qOd s q 0x0A
  let x : Notice := { autoNotice s code 0xFFFF detail extra 0 with queue := q }
  let r := ring s n
  if r.pendingQ.any (fun p => p.queue = q ∧ p.code = code) then
    modRing s n (fun r => { r with pendingQ := r.pendingQ.map (fun p =>
      if p.queue = q ∧ p.code = code then { p with extra := extra } else p) })
  else if backlogUsed r < 256 ∧ r.pendingQ = [] then modRing s n (fun r => ringPut r x)
  else modRing s n (fun r => { r with pendingQ := r.pendingQ ++ [x] })

/-- R86: the order of queue-notice codes of one queue: QUEUE_HALTED, WATERMARK, QUEUE_OFF. -/
def queueNoticeRank (c : Nat) : Nat := if c = 2 then 0 else if c = 4 then 1 else 2

/-- The pending queue notice that takes the next place: the oldest queue's, by the rank of R86 within the queue. -/
def nextPending (l : List Notice) : Option Notice :=
  match l with
  | [] => none
  | x :: _ =>
    some ((l.filter (fun p => p.queue = x.queue)).foldl
      (fun b p => if queueNoticeRank p.code < queueNoticeRank b.code then p else b) x)

/-- Give one free place of a ring: to a pending queue notice, then to a stalled queue (R87). -/
def ringGive (s : State) (n : Nat) : State :=
  let r := ring s n
  if backlogUsed r ≥ 256 then s
  else match nextPending r.pendingQ with
    | some x =>
      modRing s n (fun r => ringPut { r with pendingQ := r.pendingQ.filter (fun p => ¬ (p.queue = x.queue ∧ p.code = x.code)) } x)
    | none =>
      match r.stalled with
      | [] => s
      | q :: rest =>
        let s := modRing s n (fun r => { r with stalled := rest, reserved := r.reserved + 1 })
        let s := modQueue s q (fun x => { x with stalledNotice := false })
        match (queue s q).ents.find? (fun e => e.wr = 0) with
        | some e => modEnt s q e.idx (fun e => { e with reserved := true })
        | none => s

/-- Give out freed places, by fuel. -/
def ringGiveAll (s : State) (n : Nat) : Nat → State
  | 0 => s
  | k + 1 => ringGiveAll (ringGive s n) n k

/-- R394: a change of a ready bit: UNIT_READY notice and Cairn record. Kinds as in NOT_READY. -/
def readyChange (s : State) (kind n : Nat) (ready : Bool) (cause : Nat) : State :=
  let d := kind * 4096 + (if ready then 2048 else 0) + n % 64
  cairn (blockNotice s 0x30 d cause) 0x42 (cu kind n) 0xFFFF d 0 cause 0 0

/-! ### Ledger (R355 to R358) -/

/-- R353: the filtered rail in mV: the median of the last three samples, 5 mV a code; 0 with fewer than three. -/
def medianOf (a b c : Nat) : Nat := max (min a b) (min (max a b) c)
/-- R353. -/
def railMv (s : State) : Nat :=
  match s.ao.samples with
  | [a, b, c] => 5 * medianOf a b c
  | _ => 0

/-- R355: E in microjoules; 0 while UNARMED, below V_MIN_MV, or with LEDGER_FAULT (R420). -/
def eAvail (s : State) : Nat :=
  let v := min (railMv s) (od s 0x7000 0x04)
  let m := od s 0x7000 0x05
  if s.ao.pf = .unarmed ∨ v ≤ m ∨ s.ao.ledgerFault then 0
  else od s 0x7000 0x07 * (v * v - m * m) * od s 0x7000 0x08 / 2000000000

/-- R357: the limit, floor(0.8 × E). -/
def ledgerLimit (s : State) : Nat := eAvail s * 8 / 10

/-- R356: energy of a refuge page. -/
def eRefuge (s : State) : Nat := od s 0x7000 0x0A
/-- R356: energy of one program in a cell mode (0 SLC, 1 TLC, 2 QLC). -/
def eProgram (s : State) (mode : Nat) : Nat :=
  if mode = 0 then od s 0x7000 0x0B else if mode = 1 then od s 0x7000 0x0C else od s 0x7000 0x0D

/-- R356: energy of one charge. -/
def kindCost (s : State) : ChargeKind → Nat
  | .refuge => eRefuge s
  | .program m => eProgram s m
  | .larger m => max (eRefuge s) (eProgram s m)
/-- Energy of some charges. -/
def costOf (s : State) (c : Charge) : Nat := c.foldl (fun a x => a + x.2 * kindCost s x.1) 0

/-- R356: the demand D: fixed, units' standing charges, charges held by microroutines, and those of integrator routines
still on their way to an engine. -/
def demand (s : State) : Nat :=
  od s 0x7000 0x09
    + (s.units.entries.foldl (fun a e => a + costOf s e.2.charge) 0)
    + (s.ridges.entries.foldl (fun a e => e.2.fills.foldl (fun b u => b + costOf s u.charge) a) 0)
    + (s.spurs.entries.foldl (fun a e => e.2.ctxs.entries.foldl (fun b c => b + costOf s c.2.charge) a) 0)
    + (s.spurs.entries.foldl (fun a e => e.2.classes.foldl (fun b c => c.packets.foldl (fun d p => d + costOf s p.2.2.charge) b) a) 0)
    + (s.hold.foldl (fun a h => a + costOf s h.desc.charge) 0)

/-- R381: DEMAND_PEAK has seen a demand. -/
def notePeak (s : State) (d : Nat) : State := if d > od s 0x7000 0x11 then setOd s 0x7000 0x11 (sat (2 ^ 32 - 1) d) else s
/-- R381: keep DEMAND_PEAK. -/
def peakDemand (s : State) : State := notePeak s (demand s)

/-- R380, R401: a RAIL notice with its Cairn record; events 2 and 3 also go out as NOTICE frames. While block reset is asserted the
always-on island's outputs are clamped (R443): no notice reaches the rings. -/
def railNotice (s : State) (event extra : Nat) : State :=
  let d := event * 4096 + (s.ao.samples.headD 0) % 4096
  let s := if s.ao.inBlkReset then s else blockNotice s 0x39 d extra
  if event = 2 ∨ event = 3 then cairnLoud s 0x50 0 0xFFFF d 0 extra 0 0 else cairn s 0x50 0 0xFFFF d 0 extra 0 0

/-- R357, R358: a charge denied: counted; the first denial after 1 ms without one raises RAIL event 5. -/
def deny (s : State) : State :=
  let s := count s 0x7000 0x12
  let first := match s.ao.lastDenial with
    | none => true
    | some t => decide (t + 1000 ≤ s.ao.timeUs)
  let s := if first then railNotice s 5 (demand s) else s
  modAo s (fun a => { a with lastDenial := some a.timeUs, denying := a.denying || first })

/-- R26, R357: does the Gate's allowance cover a charge? -/
def covers (s : State) (c : Nat) : Bool := decide (c ≤ s.ao.allowance)

/-- Take a charge out of the allowance. -/
def spend (s : State) (c : Nat) : State := modAo s (fun a => { a with allowance := a.allowance - c })

/-- R365: has the power-fail sequence begun, or has the block halted? No new die operation starts then. -/
def railDown (s : State) : Bool := decide (s.ao.pf = .sequence) || decide (s.ao.pf = .halted)

/-- Does the block fetch and take new work of its own at all: neither FATAL (R421) nor a shutdown or power-fail sequence (R65,
R369)? -/
def fetchOpen (s : State) : Bool := !s.ao.fatal && (decide (s.ao.pf = .unarmed) || decide (s.ao.pf = .armed))

/-! ### Dies and geometry (R352) -/

/-- FOUND. -/
def lunFound (s : State) (l : Nat) : Bool := (lunOf s l).geom.getLsbD 63
/-- Planes used. -/
def lunPlanes (s : State) (l : Nat) : Nat := bitsOf (lunOf s l).geom 55 53 + 1
/-- Blocks per plane. -/
def lunBlocks (s : State) (l : Nat) : Nat := bitsOf (lunOf s l).geom 48 34 + 1
/-- Native pages per block. -/
def lunNative (s : State) (l : Nat) : Nat := bitsOf (lunOf s l).geom 33 20 + 1
/-- Native bits per cell. -/
def lunBits (s : State) (l : Nat) : Nat := bitsOf (lunOf s l).geom 19 17
/-- Physical page in bytes. -/
def lunPhys (s : State) (l : Nat) : Nat := bitsOf (lunOf s l).geom 15 0
/-- Bits per cell of a mode. -/
def modeBits (m : Nat) : Nat := if m = 0 then 1 else if m = 1 then 3 else 4
/-- A byte of the COMMANDS word of the LUN's profile, by the place of its lowest bit; 0 without a profile (R334, R335). -/
def cmdByte (s : State) (l at_ : Nat) : Nat := (lunOf s l).commands / 2 ^ at_ % 256
/-- R343: pages per block in a mode. -/
def lunPages (s : State) (l m : Nat) : Nat := lunNative s l * modeBits m / lunBits s l
/-- R343: does the LUN support a cell mode? Native 3 or 4 bits need one-shot programming (R336). -/
def lunMode (s : State) (l m : Nat) : Bool :=
  if m = 0 then true
  else decide (lunBits s l = modeBits m) && decide (cmdByte s l 8 ≠ 0)
/-- The LUNs found, block-wide. -/
def foundLuns (s : State) : List Nat := (s.luns.entries.filter (fun e => e.2.geom.getLsbD 63)).map (fun e => e.1)

/-- R168: the smallest shift with blocks ≤ 64 × 2^g, by fuel. -/
def groupShift (blocks : Nat) : Nat → Nat → Nat
  | 0, g => g
  | k + 1, g => if blocks ≤ 64 * 2 ^ g then g else groupShift blocks k (g + 1)
/-- GROUP_SHIFT of a LUN. -/
def lunShift (s : State) (l : Nat) : Nat := groupShift (lunBlocks s l) 16 0

/-- R339: wordline and position of a page in a mode. -/
def wordlineOf (s : State) (l m page : Nat) : Nat × Nat :=
  let b := modeBits m
  if m = 0 then (page, 0)
  else
    if (lunOf s l).commands.testBit 56 then
      let w := lunPages s l m / b
      if w = 0 then (page, 0) else (page % w, page / w)
    else (page / b, page % b)

/-- R339: the page of a wordline and position. -/
def pageOf (s : State) (l m wl pos : Nat) : Nat :=
  let b := modeBits m
  if m = 0 then wl
  else if (lunOf s l).commands.testBit 56 then pos * (lunPages s l m / b) + wl
  else wl * b + pos

/-! ### Traverse (R43 to R47) -/

/-- L of a region's window. -/
def winL (s : State) (r : Nat) : Nat := rOd s r 0x04 - rOd s r 0x03
/-- Is Traverse on? -/
def traverseOn (s : State) (r : Nat) : Bool := decide (rOd s r 0x0F = 1)

/-- R43: physical offset of logical block l. -/
def mapOffset (L S G l : Nat) : Nat :=
  let p := (l + S) % L
  if p ≥ G then p + 1 else p

/-- R43 inverse: the logical block at an offset; none at the gap. -/
def unmapOffset (L S G o : Nat) : Option Nat :=
  if o = G then none
  else
    let p := if o > G then o - 1 else o
    some ((p + (L - S % L)) % L)

/-- R44: the Traverse word. -/
def Tv.word (t : Tv) : Nat :=
  (if t.moving then 2 ^ 63 else 0) + (if t.stalled then 2 ^ 62 else 0) + (if t.unset then 2 ^ 61 else 0)
    + t.count % 65536 * 2 ^ 32 + t.start % 65536 * 2 ^ 16 + t.gap % 65536

/-- The move running on a LUN of a region. -/
def moveOf (s : State) (r lun : Nat) : Option Move := s.moves.find? (fun m => m.region = r ∧ m.lun = lun)

/-- R46, step 1: source offset of a move. -/
def moveSrc (L G : Nat) : Nat := if G > 0 then G - 1 else L

/-- R43: the physical FPA of an address in its region. A physical address stands. -/
def physOf (s : State) (r : Nat) (f : W64) : W64 :=
  if fT f then
    let t := tvOf s r (fBlun f)
    fSetBlock f false (rOd s r 0x03 + mapOffset (winL s r) t.start t.gap (fBlock f))
  else f

/-- R172, R276: the tweak form of an address: logical with T = 1 in a Traverse region, the gap's own physical otherwise. -/
def tweakForm (s : State) (r : Nat) (f : W64) : W64 :=
  let f := fSetLine f 0
  if fT f then f
  else if traverseOn s r then
    let t := tvOf s r (fBlun f)
    match unmapOffset (winL s r) t.start t.gap (fBlock f - rOd s r 0x03) with
    | some l => fSetBlock f true l
    | none => f
  else f

/-- Is the logical block of an address under a move (R47, R48)? -/
def underMove (s : State) (r : Nat) (f : W64) : Bool :=
  match moveOf s r (fBlun f) with
  | none => false
  | some m => fT f && decide (fBlock (physOf s r f) = rOd s r 0x03 + m.src)

/-! ### Key slots: binding (R264) -/

/-- Has the slot a live generation an entry can bind to? -/
def slotUsable (k : KState) : Bool := k = .live ∨ k = .reloading ∨ k = .draining

/-- One more user of a generation of a slot. -/
def addUser (s : State) (k g : Nat) : State :=
  modKey s k (fun x => if x.gen = g then { x with users := x.users + 1 } else { x with oldUsers := x.oldUsers + 1 })

/-- R286: a KEY_SLOT notice with its record. -/
def keyNotice (s : State) (k event cause : Nat) : State :=
  let e := event * 2 ^ 24 + cause * 2 ^ 16 + (keySlot s k).gen % 65536
  cairn (blockNotice s 0x28 k e) 0x31 (cu 11 k) 0xFFFF k 0 e 0 0

/-- One user fewer; the last user of the old generation ends DRAINING (R263). A user of an erased generation stays one until it ends
(R264), and is no user of a later one. -/
def dropUser (s : State) (k g : Nat) : State :=
  let x := keySlot s k
  if x.gen = g then modKey s k (fun x => { x with users := x.users - 1 })
  else if (x.gen + 65535) % 65536 ≠ g then s
  else
    let s := modKey s k (fun x => { x with oldUsers := x.oldUsers - 1 })
    let x := keySlot s k
    if x.state = .draining ∧ x.oldUsers = 0 then
      keyNotice (modKey s k (fun x => { x with state := .live, shadow := 0 })) k 4 0
    else s

/-- R265: the material of a generation of a slot: the live copy, or the old one kept while DRAINING. -/
def material (s : State) (kg : Nat × Nat) : Option W512 :=
  let x := keySlot s kg.1
  if ¬ slotUsable x.state then none
  else if x.gen = kg.2 then some x.live
  else if x.state = .draining ∧ (x.gen + 65535) % 65536 = kg.2 then some x.shadow
  else none

/-- Is a slot and generation in a ridge's key cache (R268)? -/
def keyCached (s : State) (rg : Nat) (kg : Nat × Nat) : Bool := (ridge s rg).keyCache.any (fun e => decide (e.1 = kg))

/-- The keys a ridge's AES lanes and GCM engines work with: those its key cache holds, or, on a miss, what a fill brings them (R268). -/
def laneKey (s : State) (rg : Nat) (kg : Nat × Nat) : Option W512 :=
  match (ridge s rg).keyCache.find? (fun e => decide (e.1 = kg)) with
  | some e => some e.2
  | none => material s kg

/-- R268: work that needs a key comes to a ridge: a fill of its key cache is started on a miss. -/
def askKey (s : State) (rg : Nat) (key : Option (Nat × Nat)) : State :=
  match key with
  | some kg => if keyCached s rg kg ∨ (ridge s rg).keyFills.contains kg then s else modRidge s rg (fun r => { r with keyFills := r.keyFills ++ [kg] })
  | none => s

end Sys2Proof.Machine
end

