-- ==== Sys2Proof/Machine/Operands.lean ====
section
/-! DEFINITION. The operand forms of an entry and the checks the Gate makes on them: the opcode table (R92), the dispatch
table of an image (R300), the FPA fields an opcode allows (R34), reserved fields, and R106 steps 1 to 9 and 11. -/

namespace Sys2Proof.Machine

/-- One row of the opcode table of R92. -/
structure OpInfo where
  cls : Nat
  numMax : Nat
  indirect : Bool
  ownTweak : Bool
  ledger : Bool
  /-- an integrator opcode: NUM and the flag bits are unchecked -/
  integrator : Bool
deriving DecidableEq, Repr

/-! ### Dispatch table (R300) -/

/-- Entry of the loaded dispatch table; zero with no image loaded. -/
def dispatchOf (s : State) (op : Nat) : W64 :=
  if s.image.state = 2 then s.image.dispatch.getD op 0 else 0
/-- VALID. -/
def dValid (d : W64) : Bool := d.getLsbD 63
/-- CLASS. -/
def dClass (d : W64) : Nat := bitsOf d 62 61
/-- LEDGER. -/
def dLedger (d : W64) : Bool := d.getLsbD 60
/-- FABRIC. -/
def dFabric (d : W64) : Bool := d.getLsbD 59
/-- ENTRY. -/
def dEntry (d : W64) : Nat := bitsOf d 51 40

/-- R92, R93: the row of an opcode; an integrator opcode takes its row from the dispatch table. -/
def opInfo (s : State) (op : Nat) : Option OpInfo :=
  if op = 0x01 then some ⟨0, 0, false, true, false, false⟩
  else if op = 0x02 then some ⟨1, 0, true, true, false, false⟩
  else if op = 0x03 then some ⟨1, 5, true, true, false, false⟩
  else if op = 0x04 then some ⟨0, 4, false, false, false, false⟩
  else if op = 0x08 then some ⟨2, 0, false, true, true, false⟩
  else if op = 0x09 then some ⟨2, 5, false, false, false, false⟩
  else if op = 0x0A then some ⟨2, 0, false, false, true, false⟩
  else if op = 0x0B then some ⟨2, 5, true, true, true, false⟩
  else if op = 0x10 then some ⟨3, 5, false, false, false, false⟩
  else if op = 0x11 then some ⟨2, 5, false, false, true, false⟩
  else if op = 0x18 then some ⟨3, 5, false, false, false, false⟩
  else if op = 0x19 then some ⟨1, 0, false, false, false, false⟩
  else if op = 0x20 then some ⟨0, 0, false, false, false, false⟩
  else if op = 0x30 then some ⟨1, 0, false, false, false, false⟩
  else if 0x80 ≤ op ∧ op < 0x100 then
    let d := dispatchOf s op
    if dValid d then some ⟨dClass d, 7, true, true, dLedger d, true⟩ else none
  else none

/-- R91: the Scree class of an entry's descriptors. -/
def entryClass (s : State) (e : W512) : Nat :=
  match opInfo s (eOpcode e) with
  | some i => min 3 (i.cls + if eOpcode e = 0x20 then 0 else eHint e % 4)
  | none => 0

/-- A read opcode of R92 (0x01 to 0x04). -/
def isRead (op : Nat) : Bool := decide (1 ≤ op ∧ op ≤ 4)

/-- Opcodes whose NUM is planes − 1. -/
def multiPlane (op : Nat) : Bool :=
  op = 0x03 ∨ op = 0x09 ∨ op = 0x0B ∨ op = 0x10 ∨ op = 0x11 ∨ op = 0x18

/-- Planes − 1 of an entry. -/
def ePlanes (e : W512) : Nat := if multiPlane (eOpcode e) then eNum e else 0

/-- R94: the transfer length in bytes, 0 for an opcode that moves no user data. -/
def xferLen (e : W512) : Nat :=
  let op := eOpcode e
  if op = 0x01 ∨ op = 0x08 then 64
  else if op = 0x04 then 64 * (eNum e + 1)
  else if op = 0x02 then 4096
  else if op = 0x03 ∨ op = 0x0B then 16384 * (eNum e + 1)
  else 0

/-- R100: is the merge source of a LINE_WRITE read and checked? -/
def mergeLive (e : W512) : Bool :=
  decide (eOpcode e = 0x08) && decide (eMask e ≠ BitVec.allOnes 64) && decide (eMerge e ≠ 0)

/-- The FPAs an entry carries, with their byte offsets, ascending (R98 to R104). UNIT_COMMIT and FENCE carry none. -/
def entryFpas (e : W512) : List (Nat × W64) :=
  let op := eOpcode e
  if op = 0x0A ∨ op = 0x20 then []
  else if op = 0x04 then (List.range (eNum e + 1)).map (fun i => (if i = 0 then 8 else 16 + 8 * i, eGather e i))
  else if op = 0x11 then [(8, eFpa e), (16, eTarget e)]
  else if mergeLive e then [(8, eFpa e), (32, eMerge e)]
  else [(8, eFpa e)]

/-- BAD_ENTRY with a reason and the offset of the field at fault (R110, R112). -/
def badEntry (reason off : Nat) : Status := ⟨0x42, reason, off⟩
/-- ADDRESS_FAULT. -/
def addrFault (reason off : Nat) : Status := ⟨0x41, reason, off⟩
/-- UNIT_STATE. -/
def unitState (cause : Nat) (h : BitVec 32) : Status := ⟨0x43, cause, h.toNat⟩

/-- The first field that is not zero, by offset. -/
def firstSet (l : List (Nat × Bool)) : Option Nat := (l.find? (fun x => x.2)).map (fun x => x.1)

/-- R106, step 4: every reserved field of an entry with its byte offset, ascending; true where it is not zero. DESIGN CHOICE (log entry 26):
of several fields that are no FPAs and not zero, EXTRA gives the lowest offset; R106 orders FPAs only. -/
def reservedFields (e : W512) : List (Nat × Bool) :=
  let op := eOpcode e
  let nz (hi lo : Nat) : Bool := decide (bitsOf e hi lo ≠ 0)
  let fp (off : Nat) : Nat × Bool := (off, decide (fRes (eWord e off) ≠ 0))
  let hint : Nat × Bool := (6, nz 63 50)
  let flags : Nat × Bool := (1, nz 12 11)
  if op ≥ 0x80 then [hint, fp 8]
  else if op = 0x01 ∨ op = 0x02 ∨ op = 0x03 ∨ op = 0x0B then
    [flags, hint, fp 8, (24, !eIndirect e && nz 207 192), (26, nz 255 208), (32, !eOwnTweak e && nz 319 256), (40, nz 447 320)]
  else if op = 0x04 then
    [flags, hint, fp 8] ++ [1, 2, 3, 4].map (fun i =>
      (16 + 8 * i, if i ≤ eNum e then decide (fRes (eGather e i) ≠ 0) else decide (eGather e i ≠ 0)))
  else if op = 0x08 then
    [flags, hint, fp 8, (32, mergeLive e && decide (fRes (eMerge e) ≠ 0)), (40, !eOwnTweak e && nz 383 320), (52, nz 447 416)]
  else if op = 0x09 then [flags, hint, fp 8, (16, nz 447 128)]
  else if op = 0x0A then [flags, hint, (8, nz 383 64), (52, nz 447 416)]
  else if op = 0x10 then [flags, hint, fp 8, (16, nz 191 128), (24, nz 447 192)]
  else if op = 0x11 then [flags, hint, fp 8, fp 16, (24, nz 447 192)]
  else if op = 0x18 ∨ op = 0x19 then [flags, hint, fp 8, (20, nz 191 160), (24, nz 447 192)]
  else if op = 0x20 then [flags, hint, (8, nz 447 64)]
  else if op = 0x30 then
    [flags, hint, fp 8, (18, nz 159 144), (20, (eSubop e = 0 ∨ eSubop e = 2) && nz 191 160), (24, nz 447 192)]
  else []

/-- R34: are the fields of an FPA allowed for the opcode? -/
def fpaForm (op : Nat) (f : W64) : Bool :=
  if op = 0x01 ∨ op = 0x08 ∨ op = 0x04 ∨ op ≥ 0x80 then true
  else if op = 0x02 then decide (fLine f % 64 = 0)
  else if op = 0x03 ∨ op = 0x0B ∨ op = 0x09 ∨ op = 0x11 ∨ op = 0x19 ∨ op = 0x18 then decide (fLine f = 0)
  else if op = 0x10 then decide (fLine f = 0) && decide (fPage f = 0)
  else if op = 0x30 then
    decide (fLine f = 0) && decide (fPage f = 0) && decide (fPlane f = 0) && !fT f && decide (fBlock f = 0)
  else true

/-- R349: feature addresses the SET forms are refused at. -/
def featureHeld (s : State) (a : Nat) : Bool :=
  decide (a = 1 ∨ a = 2 ∨ a = 0x10 ∨ (0x20 ≤ a ∧ a ≤ 0x2F) ∨ a = 0x58 ∨ a = 0x89) ||
  (List.range 8).any (fun p =>
    decide (od s (0x4320 + p) 0x01 = 1) &&
    (List.range 4).any (fun i =>
      let f := od s (0x4320 + p) 0x06 / 256 ^ i % 256
      decide (f ≠ 0) && decide (a = f ∨ a = f + 1)))

/-- R106, step 6: opcode-specific values, in the order the step lists them: reason and offset. -/
def valueFault (s : State) (e : W512) : Option (Nat × Nat) :=
  let op := eOpcode e
  let moves := op = 0x01 ∨ op = 0x02 ∨ op = 0x03 ∨ op = 0x04 ∨ op = 0x08 ∨ op = 0x0B
  if moves ∧ eAddr e % (if eIndirect e then 16 else 64) ≠ 0 then some (0x07, 16)
  else if moves ∧ eIndirect e ∧ (eFrag e = 0 ∨ eFrag e > 256) then some (0x08, 24)
  else if op = 0x08 ∧ eMask e = 0 then some (0x0C, 24)
  else if op = 0x18 ∧ (eArg e = 0 ∨ eArg e > 16384) then some (0x0E, 16)
  else if op = 0x30 ∧ eSubop e > 3 then some (0x0F, 16)
  else if op = 0x30 ∧ eSubop e % 2 = 1 ∧ featureHeld s (eFeature e) then some (0x10, 17)
  else if op = 0x20 ∧ eHint e = 3 then some (0x12, 6)
  else if (op = 0x30 ∨ (op = 0x20 ∧ eHint e ≠ 1)) ∧ eRegion e ≠ 0 then some (0x01, 4)
  else none

/-- R106 steps 1 to 6 with check 1 of R36: the status of the first failure, and the FPA at fault (R78). -/
def staticCheck (s : State) (e : W512) : Option (Status × W64) :=
  match opInfo s (eOpcode e) with
  | none => some (badEntry 0x02 0, 0)
  | some i =>
    if ¬ i.integrator ∧ ((eIndirect e ∧ ¬ i.indirect) ∨ (eOwnTweak e ∧ ¬ i.ownTweak)) then some (badEntry 0x06 1, 0)
    else if ¬ i.integrator ∧ eNum e > i.numMax then some (badEntry 0x05 1, 0)
    else match firstSet (reservedFields e) with
      | some off => some (badEntry 0x03 off, 0)
      | none =>
        match (entryFpas e).find? (fun x => !fpaForm (eOpcode e) x.2) with
        | some (off, f) => some (badEntry 0x04 off, f)
        | none =>
          match valueFault s e with
          | some (r, off) => some (badEntry r off, 0)
          | none => if eRegion e > 255 then some (badEntry 0x01 4, 0) else none

/-! ### Address checks (R36) -/

/-- The result of R36 for one FPA: passed, waiting for a spur that has no geometry yet, or failed. -/
inductive FpaVerdict where
  | good | deferred | bad (st : Status) (f : W64)
deriving DecidableEq, Repr

/-- Is a spur ready, its ridge with it (R16, R29)? -/
def spurReady (s : State) (p : Nat) : Bool :=
  decide ((spur s p).svc = .inService) && decide ((ridge s (p / 4)).svc = .inService)

/-- R37: is T allowed for the opcode in a region? -/
def tAllowed (s : State) (op r : Nat) (f : W64) : Bool :=
  if traverseOn s r then fT f || isRead op || decide (op = 0x18)
  else !fT f

/-- R36 checks 3 to 8 on a LUN whose geometry is known: reason of the first failure. Planes counts those beyond the first,
pages those beyond the first (SCRUB_RANGE). -/
def addrReason (s : State) (op r : Nat) (f : W64) (planes pages : Nat) : Option Nat :=
  let l := fBlun f
  if ¬ ((List.range 16).any (fun i => lunFound s (fChan f * 16 + i))) then some 0x02
  else if ¬ lunFound s l then some 0x03
  else if fPlane f + planes ≥ lunPlanes s l then some 0x04
  else if op = 0x30 then none
  else if ¬ tAllowed s op r f then some 0x08
  else if ¬ fT f ∧ (fBlock f < rOd s r 0x03 ∨ fBlock f > rOd s r 0x04) then some 0x05
  else if fT f ∧ fBlock f ≥ winL s r then some 0x06
  else if fPage f + pages ≥ lunPages s l (rOd s r 0x06) then some 0x07
  else none

/-- R36 for one FPA of an entry; checks 3 to 8 wait while the spur is not ready. -/
def checkFpa (s : State) (e : W512) (off : Nat) (f : W64) : FpaVerdict :=
  if ¬ spurReady s (fSpur f) then .deferred
  else
    let pages := if eOpcode e = 0x18 then eArg e - 1 else 0
    match addrReason s (eOpcode e) (eRegion e) f (if off = 32 ∧ eOpcode e = 0x08 then 0 else ePlanes e) pages with
    | some reason => .bad (addrFault reason off) f
    | none => .good

/-- The first failing FPA of a list decides; otherwise deferred if any waits. -/
def firstVerdict : List FpaVerdict → FpaVerdict
  | [] => .good
  | .bad st f :: _ => .bad st f
  | .good :: r => firstVerdict r
  | .deferred :: r => match firstVerdict r with
    | .bad st f => .bad st f
    | _ => .deferred

/-- R106 step 7: check 2 of R36, then checks 3 to 8 for each FPA. FENCE is not judged, UNIT_COMMIT by check 2 alone, and
DIE_FEATURE skips check 2, and so does an entry admitted before that is judged again out of the hold store (R41). -/
def addressCheck (s : State) (e : W512) (admitted : Bool) : FpaVerdict :=
  let op := eOpcode e
  let st := (region s (eRegion e)).state
  if op = 0x20 then .good
  else if op ≠ 0x30 ∧ ¬ admitted ∧ ¬ (st = 1 ∨ (op = 0x0A ∧ st = 2)) then .bad (addrFault 0x01 4) 0
  else firstVerdict ((entryFpas e).map (fun x => checkFpa s e x.1 x.2))

/-- Is a region enciphered? -/
def ciphered (s : State) (r : Nat) : Bool := decide (rOd s r 0x0A ≠ 0)
/-- Is a region an ORIGIN? -/
def isOrigin (s : State) (r : Nat) : Bool := decide (rOd s r 0x0C = 1)

/-- R103: do source and target of a COPYBACK share a plane-page? -/
def sharesPlane (a b : W64) (num : Nat) : Bool :=
  decide (fChan a = fChan b) && decide (fLun a = fLun b) && decide (fBlock a = fBlock b) && decide (fPage a = fPage b)
    && decide (fPlane a ≤ fPlane b + num) && decide (fPlane b ≤ fPlane a + num)

/-- R106 steps 8 and 9. -/
def roleCheck (s : State) (e : W512) : Option Status :=
  let op := eOpcode e
  let r := eRegion e
  if op = 0x11 ∧ (fRidge (eFpa e) ≠ fRidge (eTarget e) ∨ sharesPlane (eFpa e) (eTarget e) (eNum e)) then some (badEntry 0x0D 16)
  else if op < 0x80 ∧ eOwnTweak e ∧ ¬ ciphered s r then some (badEntry 0x11 1)
  else if (op = 0x08 ∨ op = 0x0B) ∧ eOwnTweak e ∧ isOrigin s r then some (badEntry 0x13 1)
  else if (op = 0x08 ∨ op = 0x09 ∨ op = 0x0B ∨ op = 0x11) ∧ rOd s r 0x0C = 2 then some ⟨0x51, 3, 0⟩
  else none

/-! ### Fragment tables (R95) -/

/-- The elements of a fragment table as read, 16 bytes each, from the enclosing 64-byte blocks (R426): address, length,
and whether the element is good. -/
def fragElems (addr n : Nat) (beats : List W512) : List (Nat × Nat × Bool) :=
  (List.range n).map (fun i =>
    let o := addr % 64 / 16 + i
    let w := (beats.getD (o / 4) 0).extractLsb' (128 * (o % 4)) 128
    let a := bitsOf w 63 0
    let len := bitsOf w 95 64
    (a, len, decide (bitsOf w 127 96 = 0) && decide (a % 64 = 0) && decide (len ≠ 0) && decide (len % 64 = 0)))

/-- R95, R112: the checked fragment list, or the status of the first failure. An integrator opcode has no transfer length (R94) to hold
it to. -/
def fragCheck (e : W512) (beats : List W512) : Except Status (List (Nat × Nat)) :=
  let l := fragElems (eAddr e) (eFrag e) beats
  match l.findIdx? (fun x => !x.2.2) with
  | some i => .error (badEntry 0x09 (i * 65536 + 16))
  | none =>
    if eOpcode e < 0x80 ∧ l.foldl (fun a x => a + x.2.1) 0 ≠ xferLen e then .error (badEntry 0x0A (eFrag e * 65536 + 24))
    else .ok (l.map (fun x => (x.1, x.2.1)))

/-- The appliance address of byte n of a transfer, through the fragments (R95). -/
def fragAddr : List (Nat × Nat) → Nat → Nat
  | [], n => n
  | (a, len) :: r, n => if n < len then a + n else fragAddr r (n - len)

/-- The appliance address of byte n of an entry's data. -/
def dataAddr (x : Ent) (n : Nat) : Nat :=
  match x.frags with
  | some l => fragAddr l n
  | none => eAddr x.raw + n

/-! ### Units (R101, R106 step 11) -/

/-- The key of a handle's unit in the unit store. -/
def unitKey (h : BitVec 32) : Nat := hRidge h * 232 + hIndex h

/-- The handle of unit key u as it stands. -/
def handleOf (s : State) (u : Nat) : BitVec 32 := mkHandle (u / 232) (u % 232) (unit s u).gen

/-- Does unit u target the page of an address, region by region, on plane fPlane f (R117)? -/
def targets (d : Led) (r : Nat) (f : W64) : Bool :=
  decide (d.state ≠ .free) && decide (d.region = r) && decide (fT d.target = fT f) && decide (fBlun d.target = fBlun f)
    && decide (fBlock d.target = fBlock f) && decide (fPage d.target = fPage f)
    && decide (fPlane d.target ≤ fPlane f) && decide (fPlane f ≤ fPlane d.target + d.planesM1)

/-- R277: the tweak base a LINE_WRITE gives its unit. -/
def writeBase (s : State) (e : W512) (d : Led) : W64 :=
  if eOwnTweak e then eTweak e - BitVec.ofNat 64 ((fPlane (eFpa e) - fPlane d.target) * 2 ^ 49)
  else tweakForm s d.region d.target

/-- R106 step 11: the unit handle of LINE_WRITE and UNIT_COMMIT. A member unit is no host unit: it is unknown here. A
FAILED unit takes no LINE_WRITE (R198). An entry admitted before a commit still reaches its COMMITTED unit (R192), and a unit whose
commit a gap move holds is committed to every later entry (R48). -/
def unitCheck (s : State) (e : W512) (admitted : Bool) : Option Status :=
  let h := eUnit e
  let d := unit s (unitKey h)
  if hIndex h > 231 ∨ d.gen ≠ hGen h ∨ d.state = .free ∨ d.reserved ∨ ¬ (d.kind = .host ∨ d.kind = .repair) then some (unitState 2 h)
  else if (d.state ≠ .opened ∨ d.commitDue) ∧ ¬ (admitted ∧ (d.state = .opened ∨ d.state = .committed) ∧ ¬ d.ready) then some (unitState 3 h)
  else if d.region ≠ eRegion e then some (unitState 5 h)
  else if eOpcode e = 0x08 then
    if d.failed then some (unitState 3 h)
    else if ¬ targets d (eRegion e) (eFpa e) then some (unitState 4 h)
    else if ciphered s d.region ∧ d.base ≠ none ∧ d.base ≠ some (writeBase s e d) then some (unitState 4 h)
    else none
  else none

end Sys2Proof.Machine
end

