-- ==== Sys2Proof/Machine/Scree.lean ====
section
/-! DEFINITION. The Scree queues of a spur (R302 to R307), the hold store of the Gate (R16, R17), and the report of a
descriptor to the retire unit (R15, R69). -/

namespace Sys2Proof.Machine

/-! ### Scree classes -/

/-- Items of a descriptor's packet (R303). -/
def Desc.items (d : Desc) : Nat :=
  if d.op = 0x04 then max 1 d.lines.length else if d.op = 0x08 ∨ d.op = 0x11 then 2 else if d.op ≥ 0x80 then 3 else 1

/-- Reserved slots: W − P (R302). -/
def Scree.occupancy (c : Scree) : Nat := (c.w + 512 - c.p % 512) % 512
/-- Published items: C − P (R302). -/
def Scree.depth (c : Scree) : Nat := (c.c + 512 - c.p % 512) % 512
/-- Has the class room for n more items? -/
def Scree.room (c : Scree) (n : Nat) : Bool := decide (c.occupancy + n ≤ 256)

/-- Reserve n slots for a packet: W advances, nothing is published yet (R304). -/
def Scree.reserve (c : Scree) (d : Desc) : Scree :=
  { c with w := (c.w + d.items) % 512, packets := c.packets ++ [(d.items, false, d)] }

/-- R304: C advances over the packets written, in reservation order. The number of slots it may pass. -/
def Scree.written : List (Nat × Bool × Desc) → Nat
  | [] => 0
  | (n, true, _) :: r => n + Scree.written r
  | (_, false, _) :: _ => 0

/-- Publish: C stands behind the packets that stand whole at the front. -/
def Scree.publish (c : Scree) : Scree := { c with c := (c.p + c.unread + Scree.written c.packets) % 512 }

/-- A producer writes its bodies and its head: the last reserved packet is whole, and C advances over what it can. DESIGN CHOICE: a
command reserves, writes and publishes a packet in one step, so no other producer comes between (log entry 49). -/
def Scree.push (c : Scree) (d : Desc) : Scree :=
  let c := c.reserve d
  Scree.publish { c with packets := c.packets.dropLast ++ [(d.items, true, d)] }

/-- Pop the oldest published packet: P advances over its head; its body items stay unread (R305). -/
def Scree.pop (c : Scree) : Option (Desc × Scree) :=
  match c.packets with
  | (n, true, d) :: r => some (d, { c with p := (c.p + min 1 n) % 512, unread := c.unread + (n - 1), packets := r })
  | _ => none

/-- NEXT, DROP and END: P advances over n body items (R305). -/
def Scree.readItems (c : Scree) (n : Nat) : Scree := { c with p := (c.p + min n c.unread) % 512, unread := c.unread - min n c.unread }

/-- Class k of a spur. -/
def screeOf (s : State) (p k : Nat) : Scree := (spur s p).classes.getD k {}

/-- Replace element k of a list. -/
def setAt {α : Type} : List α → Nat → α → List α
  | [], _, _ => []
  | _ :: r, 0, v => v :: r
  | x :: r, k + 1, v => x :: setAt r k v

/-- Change class k of a spur. -/
def modScree (s : State) (p k : Nat) (f : Scree → Scree) : State :=
  modSpur s p (fun x => { x with classes := setAt x.classes k (f (x.classes.getD k {})) })

/-- A context reads or drops n body items of its packet. -/
def readBodies (s : State) (p k n : Nat) : State := if n = 0 then s else modScree s p k (fun c => c.readItems n)

/-! ### Hold store (R16, R17) -/

/-- HOLD_USED: descriptors in the hold store. -/
def holdUsed (s : State) : Nat := s.hold.length - s.holdWait.length

/-- Descriptors the hold store has room for (R17). -/
def holdRoom (s : State) : Nat := 4096 - holdUsed s

/-- R307: work of the block's own that finds its class full stalls its producer and takes no place in the Gate. -/
def stalledProducer (h : Held) : Bool := decide (h.desc.q = 0xFFFF) && decide (h.cause = .screeFull)

/-- Places that are free go to the descriptors that wait for one, in arrival order. -/
def takePlaces (s : State) : State :=
  let w := ((s.hold.filter (fun h => s.holdWait.contains h.id && !stalledProducer h)).take (holdRoom s)).map (fun h => h.id)
  { s with holdWait := s.holdWait.filter (fun n => !w.contains n) }

/-- A descriptor enters a list of held ones by its number: the list keeps the order of arrival. -/
def insertHeld : List Held → Held → List Held
  | [], h => [h]
  | x :: r, h => if h.id < x.id then h :: x :: r else x :: insertHeld r h

/-- A descriptor with a number waits in the Gate. One that finds the store full stands outside until a place comes free: work of the
block's own, packets a lost spur gives back, and a merge read that falls due after its entry's admission (log entry 49). Any
other entry is admitted only with room for all of its descriptors (R17). -/
def holdAs (s : State) (n : Nat) (cause : HoldCause) (d : Desc) : State :=
  let h : Held := ⟨n, s.ao.timeUs, cause, d⟩
  { s with hold := insertHeld s.hold h, holdWait := if holdRoom s = 0 ∨ stalledProducer h then s.holdWait ++ [n] else s.holdWait }

/-- Put a descriptor in the hold store under the next number. -/
def hold (s : State) (cause : HoldCause) (d : Desc) : State :=
  { holdAs s s.nextHold cause d with nextHold := s.nextHold + 1 }

/-- Take one out; the place goes to the first that waits for one. -/
def unhold (s : State) (id : Nat) : State :=
  takePlaces { s with hold := s.hold.filter (fun h => h.id ≠ id), holdWait := s.holdWait.filter (fun n => n ≠ id) }

/-- Give a held descriptor another cause in its place, keeping its order and its arrival time. -/
def rehold (s : State) (id : Nat) (cause : HoldCause) : State :=
  let l := s.hold.map (fun h => if h.id = id then { h with cause := cause } else h)
  let out := l.any (fun h => decide (h.id = id) && stalledProducer h)
  takePlaces { s with hold := l, holdWait := if out ∧ ¬ s.holdWait.contains id then s.holdWait ++ [id] else s.holdWait }

/-- Stands a descriptor of the same spur and class, with a number below n, in the Gate for want of room (R307)? -/
def screeAhead (s : State) (d : Desc) (n : Nat) : Bool :=
  s.hold.any (fun h => decide (h.id < n) && decide (h.cause = .screeFull) && decide (fSpur h.desc.named = fSpur d.named) && decide (h.desc.cls = d.cls))

/-- R47, R115: descriptor number n as it is pushed, with its physical FPA and the tweak form of each page it names as the push finds the
Traverse state (R172, R276). An address that is physical stands. -/
def mapDesc (s : State) (n : Nat) (d : Desc) : Desc :=
  { d with phys := physOf s d.region d.named,
           forms := ((d.named :: d.lines.map (fun x => x.2.2)).map (fun f => fSetPlane (fSetLine f 0) 0)).eraseDups.map
             (fun f => (f, tweakForm s d.region f)),
           lines := d.lines.map (fun (x : Nat × W64 × W64) => (x.1, physOf s d.region x.2.2, x.2.2)),
           targetPhys := physOf s d.region d.target, no := n }

/-- Does a descriptor with number n find its spur ready and room in its class? -/
def pushable (s : State) (d : Desc) (n : Nat) : Bool :=
  spurReady s (fSpur d.named) && !screeAhead s d n && (screeOf s (fSpur d.named) d.cls).room d.items

/-- Push a descriptor into its class; it waits in the Gate while its spur is not ready (R16) or its class is full
(R307). Its ridge's key cache is filled with its key (R268). -/
def pushDesc (s : State) (d : Desc) : State :=
  if pushable s d s.nextHold then
    modScree (askKey { s with nextHold := s.nextHold + 1 } (fRidge d.named) d.key) (fSpur d.named) d.cls (fun c => c.push (mapDesc s s.nextHold d))
  else hold s (if spurReady s (fSpur d.named) then .screeFull else .unitNotReady) d

/-- Push a held descriptor, or leave it in its place for what it now waits for. -/
def pushHeld (s : State) (h : Held) : State :=
  if pushable s h.desc h.id then modScree (unhold s h.id) (fSpur h.desc.named) h.desc.cls (fun c => c.push (mapDesc s h.id h.desc))
  else rehold s h.id (if spurReady s (fSpur h.desc.named) then .screeFull else .unitNotReady)

/-- Push every descriptor of a list, in order. -/
def pushAll (s : State) (l : List Desc) : State := l.foldl pushDesc s

/-- R307: descriptors held for want of room take the room there is, in arrival order. -/
def screeDrain (s : State) (p k : Nat) : State :=
  if spurReady s p then
    (s.hold.filter (fun h => decide (h.cause = .screeFull) && decide (fSpur h.desc.named = p) && decide (h.desc.cls = k))).foldl pushHeld s
  else s

/-- R16: a spur is no longer ready: what waits for room in its classes waits for the spur from now on. -/
def holdSpur (s : State) (p : Nat) : State :=
  takePlaces { s with hold := s.hold.map (fun h =>
      if h.cause = .screeFull ∧ fSpur h.desc.named = p then { h with cause := .unitNotReady, since := s.ao.timeUs } else h) }

/-! ### Patrol steps (R227 to R230) -/

/-- N of R227: the most pages per block in the region's cell mode among the LUNs found. -/
def scrubN (s : State) (r : Nat) : Nat := (foundLuns s).foldl (fun a l => max a (lunPages s l (rOd s r 0x06))) 0

/-- R230: the records of a block the scrubber has left, one for each LUN with a Refresh page. -/
def flushRefresh (s : State) (r : Nat) : State :=
  let l := (region s r).refresh
  l.foldl (fun s (e : Nat × Nat × Nat × W64 × Nat) =>
    cairn s 0x22 (cu 12 e.1) r (e.2.1 * 16 + e.2.2.1) e.2.2.2.1 e.2.2.2.2 0 0) (modRegion s r (fun g => { g with refresh := [] }))

/-- A step is over: the cursor moves on in ascending page, then ascending block; after the last step a pass is counted. -/
def scrubAdvance (s : State) (r : Nat) : State :=
  let g := region s r
  if g.page + 1 < scrubN s r then modRegion s r (fun g => { g with page := g.page + 1 })
  else
    let s := flushRefresh s r
    if g.block < rOd s r 0x04 then modRegion s r (fun g => { g with page := 0, block := g.block + 1 })
    else count (modRegion s r (fun g => { g with page := 0, block := rOd s r 0x03 })) (0x2300 + r) 0x01

/-- Is the block of a page in the half-erased table, on whatever planes? -/
def halfListed (s : State) (f : W64) : Bool :=
  (ridge s (fRidge f)).half.entries.any (fun e => e.2.used && decide (e.2.lun = fBlun f) && decide (e.2.block = fBlock f))

/-- R228: the LUNs a step reads: not at the gap offset, nor at the destination of a running move, nor where the block is in the
half-erased table. -/
def scrubLuns (s : State) (r : Nat) : List Nat :=
  let g := region s r
  (foundLuns s).filter (fun l =>
    decide (g.page < lunPages s l (rOd s r 0x06)) && !halfListed s (mkFpaB false l 0 g.block 0 0) &&
    !(traverseOn s r && (decide (g.block = rOd s r 0x03 + (tvOf s r l).gap) ||
      (match moveOf s r l with
        | some m => decide (g.block = rOd s r 0x03 + m.dst)
        | none => false))))

/-- Does the patrol of a region run (R227)? -/
def scrubRuns (s : State) (r : Nat) : Bool :=
  decide ((region s r).state = 1) && fetchOpen s && decide (rOd s r 0x08 ≠ 0) && decide (od s 0x2240 0x01 ≠ 0)

/-- Run a patrol step: one class 3 descriptor per LUN. -/
def scrubStep (s : State) (r : Nat) : State :=
  let g := region s r
  let ls := scrubLuns s r
  if ls = [] then scrubAdvance s r
  else ls.foldl (fun s l =>
    let f := mkFpaB false l 0 g.block g.page 0
    pushDesc s { op := 0x40, cls := 3, region := r, named := f, phys := f }) (modRegion s r (fun g => { g with scrubOut := ls.length, scrubTimed := false }))

/-- One LUN's reads of a step are over. The last ends the step while the region is RUNNING; a step that fell due meanwhile
follows while the patrol runs (R227). -/
def scrubDone (s : State) (r : Nat) : State :=
  let s := modRegion s r (fun g => { g with scrubOut := g.scrubOut - 1 })
  let g := region s r
  if g.scrubOut = 0 ∧ g.state = 1 then
    let s := scrubAdvance s r
    let s := modRegion s r (fun g => { g with scrubLate := false })
    if g.scrubLate ∧ scrubRuns s r then scrubStep s r else s
  else s

/-- R232: a read of a step has reached the bring-up timeout: the step counts late, once. -/
def scrubTimeout (s : State) (r : Nat) : State :=
  scrubDone (if (region s r).scrubTimed then s else count (modRegion s r (fun g => { g with scrubTimed := true })) (0x2300 + r) 0x05) r

/-! ### Reports to the retire unit (R15, R69) -/

/-- Give an entry its final status; its key generation loses a user (R264). DEGRADED_WRITES counts MIRROR_DEGRADED
(R261), COPYBACKS every COPYBACK by the ridge of its target (R235). -/
def finalise (s : State) (q i : Nat) (st : Status) (fpa : W64) : State :=
  match entOf s q i with
  | none => s
  | some e =>
    if e.fin ≠ none then s
    else
      let s := modEnt s q i (fun e => { e with fin := some (st, fpa), key := none, left := 0, data := [] })
      let s := if st.code = 0x50 then count s (0x8100 + eRegion e.raw) 0x06 else s
      let s := if eOpcode e.raw = 0x11 then count s (0x2210 + fRidge (eTarget e.raw)) 0x06 else s
      match e.key with
      | some (k, g) => dropUser s k g
      | none => s

/-- An entry is final once no descriptor, no data transfer and no chain acknowledge is outstanding. -/
def settle (s : State) (q i : Nat) : State :=
  match entOf s q i with
  | none => s
  | some e =>
    if e.order ≠ none ∧ e.left = 0 ∧ e.io = 0 ∧ ¬ e.mirror ∧ e.fin = none then
      match e.worst with
      | some (st, f, _) => finalise s q i st f
      | none => s
    else s

/-- Merge a status into an entry's outcome. -/
def mergeStatus (s : State) (q i : Nat) (st : Status) (fpa : W64) (line : Nat) : State :=
  modEnt s q i (fun e => { e with worst := some (match e.worst with
    | none => (st, fpa, line)
    | some w => worse w (st, fpa, line)) })

/-- A descriptor of an entry reports (R15). Own work reports to nobody. -/
def report (s : State) (q i : Nat) (st : Status) (fpa : W64) (line : Nat) : State :=
  if q = 0xFFFF then s
  else settle (modEnt (mergeStatus s q i st fpa line) q i (fun e => { e with left := e.left - 1 })) q i

/-- The address of a descriptor as its notices show it (R78): as the entry named it. -/
def Desc.fpa (d : Desc) : W64 := if d.op = 0x04 then (match d.lines with | (_, _, n) :: _ => n | [] => d.named) else d.named

/-- A descriptor ends with a status. Of several descriptors of a GATHER_LINE_READ with the same status, the one that carries the
lowest slot gives detail and extra (R15, R99): DESIGN CHOICE, the spec does not say whether "the lowest-numbered line" is the
lowest of the lines with that status instead (log entry 26). -/
def reportDesc (s : State) (d : Desc) (st : Status) : State :=
  report s d.q d.idx st d.fpa (match d.lines with | (k, _, _) :: _ => k | [] => 0)

/-- R97: a data transfer of an entry ended in an error response. -/
def dataFail (s : State) (q i addr : Nat) : State :=
  mergeStatus s q i ⟨0xF0, 1, addr % 2 ^ 32⟩ (match entOf s q i with | some e => eFpa e.raw | none => 0) 0

end Sys2Proof.Machine
end

