-- ==== Sys2Proof/Machine/Queues.lean ====
section
/-! DEFINITION. Submission queues (R52 to R68, R88): doorbells, states, watermarks. -/

namespace Sys2Proof.Machine

/-- The outcome of a command that came to a port or to a unit in reset: nothing. Otherwise the state given. -/
def gate (s t : State) : Host.Outcome State Fault Refusal := .next (if s.ao.portsUp then t else s)

/-! ### Indices (R53) -/

/-- 2^(k+1) of a queue. -/
def qMod (s : State) (q : Nat) : Nat := 2 ^ (qOd s q 0x05 + 1)
/-- Distance from b to a, in the low k + 1 bits. -/
def qDist (s : State) (q b a : Nat) : Nat := (a % qMod s q + qMod s q - b % qMod s q) % qMod s q
/-- BACKLOG: distance from DONE to DOORBELL. -/
def qBacklog (s : State) (q : Nat) : Nat := qDist s q (queue s q).done (queue s q).doorbell
/-- Entries rung and not fetched. -/
def qRung (s : State) (q : Nat) : Nat := qDist s q (queue s q).fetch (queue s q).doorbell

/-- POOL_USED: entries fetched and not retired, over all queues (R68). -/
def poolUsed (s : State) : Nat := s.queues.entries.foldl (fun a e => a + e.2.ents.length) 0

/-! ### QERR, halts, watermarks -/

/-- Set a sticky bit of QERR (R61). -/
def setQerr (s : State) (q bit : Nat) : State := setOd s (0x3000 + q) 0x03 (qOd s q 0x03 ||| bit)

/-- R63, R72: a queue that is RUNNING or HALTED is HALTED with a cause; QUEUE_HALTED notice and Cairn record. -/
def haltQueue (s : State) (q cause addr : Nat) : State :=
  let s := modQueue s q (fun x => { x with state := .halted, cause := cause })
  let db := (queue s q).doorbell
  cairn (queueNotice s q 0x02 cause db) 0x10 (cu 9 q) 0xFFFF cause 0 db addr 0

/-- R88: while RUNNING with WATERMARK non-zero, evaluate the backlog. -/
def evalWatermark (s : State) (q : Nat) : State :=
  let w := qOd s q 0x0C
  if (queue s q).state = .running ∧ w ≠ 0 ∧ ¬ (qOd s q 0x03).testBit 5 ∧ qBacklog s q ≥ w then
    queueNotice (setQerr s q qerrWm) q 0x04 w (qBacklog s q)
  else s

/-- R57: does a doorbell value overrun the ring or withdraw entries? -/
def overruns (s : State) (q v : Nat) : Bool :=
  let d := qDist s q (queue s q).done v
  decide (d > 2 ^ qOd s q 0x05) || decide (d < qBacklog s q)

/-- What DOORBELL holds once v is accepted: v equal to it in the low k + 1 bits changes nothing (R57). -/
def doorbellAfter (s : State) (q v : Nat) : Nat :=
  if qDist s q (queue s q).done v = qBacklog s q then (queue s q).doorbell else v

/-- R56, R57: a well-formed doorbell write of value v. -/
def ringDoorbell (s : State) (q v : Nat) : State :=
  match (queue s q).state with
  | .off => count s (0x3000 + q) 0x13
  | .running =>
    if overruns s q v then haltQueue (setQerr s q qerrOverrun) q 1 0
    else evalWatermark (modQueue s q (fun x => { x with doorbell := doorbellAfter s q v })) q
  | .draining | .halted =>
    if overruns s q v then setQerr s q qerrOverrun
    else modQueue s q (fun x => { x with doorbell := doorbellAfter s q v })

/-- DOORBELL_WRITE (R55, R56, R429). -/
def execDoorbellWrite (off len : Nat) (data : BitVec 128) (s : State) : Host.Outcome State Fault Refusal :=
  gate s (
    if off ≥ 32768 ∨ len < 1 ∨ len > 16 then count s 0x1200 0x06
    else if len ≠ 8 ∨ off % 8 ≠ 0 ∨ bitsOf data 63 16 ≠ 0 then count s (0x3000 + off / 8) 0x13
    else ringDoorbell s (off / 8) (bitsOf data 15 0))

/-- TREAD (R55, R429): answered with zeros; it has no other effect. -/
def execTread (off len tag : Nat) (s : State) : Host.Outcome State Fault Refusal :=
  gate s (if off ≥ 32768 ∨ len < 1 ∨ len > 16 then count s 0x1200 0x06 else emit s (.treadDone tag 0))

/-- RESERVED_KIND_MESSAGE (R425): discarded and counted; a kind the block knows is no such message. -/
def execReservedKindMessage (kind : Nat) (s : State) : Host.Outcome State Fault Refusal :=
  gate s (if kind = 3 ∨ kind = 4 ∨ kind = 5 ∨ kind = 6 then s else count s 0x1200 0x06)

/-! ### Enable and disable (R62, R63) -/

/-- R62: the checks of an enable, in order; 0 when all pass. -/
def enableRefusal (s : State) (q : Nat) : Nat :=
  if qOd s q 0x05 < 4 ∨ qOd s q 0x05 > 15 then 0x01
  else if qOd s q 0x04 = 0 ∨ qOd s q 0x04 % 4096 ≠ 0 then 0x02
  else if qOd s q 0x06 = 0 ∨ qOd s q 0x06 % 8 ≠ 0 then 0x03
  else if qOd s q 0x0A > 15 then 0x04
  else if qOd s q 0x07 = 0 then 0x05
  else if qOd s q 0x08 = 0 ∨ qOd s q 0x08 > 16 then 0x06
  else if qOd s q 0x09 = 0 ∨ qOd s q 0x09 > 32768 then 0x07
  else 0

/-- Issue a done word write of value v (R71). -/
def writeDone (s : State) (q v : Nat) : State :=
  fabSmall (modQueue s q (fun x => { x with doneOut := some v })) (qOd s q 0x06) 8 (v % 65536) (.done q)

/-- A write of 1 to ENABLE (R62); with the retire unit stopped by FATAL no done word is written (R421). -/
def enableQueue (s : State) (q : Nat) : State :=
  match (queue s q).state with
  | .running => s
  | .draining | .halted => setQerr (modQueue s q (fun x => { x with refusal := 0x10 })) q qerrEarly
  | .off =>
    let c := enableRefusal s q
    if c ≠ 0 then modQueue s q (fun x => { x with refusal := c })
    else
      let s := modQueue s q (fun _ => { state := .running })
      if s.ao.fatal then s else writeDone s q 0

/-- A write of 0 to ENABLE (R63): a RUNNING or HALTED queue drains. -/
def disableQueue (s : State) (q : Nat) : State :=
  match (queue s q).state with
  | .running | .halted => modQueue s q (fun x => { x with state := .draining, cause := 0 })
  | .off | .draining => s
/-- A write of ENABLE (R62, R63). -/
def switchQueue (s : State) (q v : Nat) : State := if v = 1 then enableQueue s q else disableQueue s q

/-- Retirements the published done word does not cover. -/
def uncovered (x : Queue) : Nat := (x.done + 65536 - x.published % 65536) % 65536

/-- Has every fetched entry of a queue been retired or, after a freeze, reported, with the done word that the retired ones are
owed published (R63, R72)? -/
def queueDrained (x : Queue) : Bool :=
  (x.ents = [] || (x.frozen && x.ents.all (fun e => decide (e.fin ≠ none) && decide (e.wr ≠ 1))))
    && (x.doneDead || (decide (uncovered x = 0) && decide (x.doneOut = none)))

/-- Does a fabric request serve queue q? -/
def Purpose.ofQueue (q : Nat) : Purpose → Bool
  | .fetch q' _ | .frag q' _ | .wdata q' _ | .status q' _ | .done q' | .rdata q' _ => decide (q' = q)
  | _ => false

/-- R63, R64: a drained queue reaches OFF; the extra field of its notice counts the statuses of a freeze. Its abandoned and
frozen entries leave the tracking pool. -/
def offQueue (s : State) (q : Nat) : State :=
  let x := queue s q
  if x.state = .draining ∧ queueDrained x then
    queueNotice (modQueue (orphan s (Purpose.ofQueue q)) q (fun x =>
      { ({} : Queue) with refusal := x.refusal, doorbell := x.doorbell, fetch := x.fetch, done := x.done })) q 0x03 0 x.atFreeze
  else s

/-- QUEUE_OFF (R63). -/
def execQueueOff (q : Nat) (s : State) : Host.Outcome State Fault Refusal := gate s (offQueue s q)

/-! ### Fetch (R66 to R68) -/

/-- Is a FENCE of the queue admitted and not complete (R76)? -/
def fenceWaits (x : Queue) : Bool :=
  x.ents.any (fun e => decide (eOpcode e.raw = 0x20) && decide (e.order ≠ none) && decide (e.fin = none))

/-- Entries fetched and not admitted. -/
def unadmitted (x : Queue) : Nat := (x.ents.filter (fun e => e.order = none)).length

/-- The first entry not admitted. -/
def frontEnt (x : Queue) : Option Ent := x.ents.find? (fun e => e.order = none)

end Sys2Proof.Machine
end

