-- ==== Sys2Proof/Machine/Retire.lean ====
section
/-! DEFINITION. The retire unit (R69 to R72, R77) and the notice rings (R78 to R87). -/

namespace Sys2Proof.Machine

/-! ### Rings -/

/-- Entry of ring n. -/
def nOd (s : State) (n sub : Nat) : Nat := od s (0x1110 + n) sub
/-- Records outstanding in appliance memory: distance from HEAD to TAIL (R81). -/
def ringOut (s : State) (n : Nat) : Nat :=
  let m := 2 ^ (nOd s n 0x04 + 1)
  ((ring s n).tail % m + m - (ring s n).head % m) % m
/-- Is the ring full by its last-read HEAD? -/
def ringFull (s : State) (n : Nat) : Bool := decide (ringOut s n ≥ 2 ^ nOd s n 0x04)

/-- Does a fabric request serve ring n? -/
def Purpose.ofRing (n : Nat) : Purpose → Bool
  | .record n' _ | .tail n' | .msg n' | .head n' => decide (n' = n)
  | _ => false

/-- R80: may the ring be enabled? -/
def ringRefused (s : State) (n : Nat) : Bool :=
  decide (nOd s n 0x03 = 0) || decide (nOd s n 0x03 % 4096 ≠ 0) || decide (nOd s n 0x04 < 4) || decide (nOd s n 0x04 > 12)
    || decide (nOd s n 0x05 = 0) || decide (nOd s n 0x05 % 8 ≠ 0) || decide (nOd s n 0x06 % 8 ≠ 0) || decide (nOd s n 0x07 % 4 ≠ 0)

/-- A write of 1 to a ring's ENABLE (R80): refused, without effect, or accepted. Records of the backlog are then written
first, in order (R82). -/
def enableRing (s : State) (n : Nat) : State :=
  if (ring s n).enabled ∨ ringRefused s n then s
  else modRing (orphan s (Purpose.ofRing n)) n (fun r =>
    { r with enabled := true, fault := false, tail := 0, head := 0, written := 0, acks := [], tailOut := false,
             tailDue := false, msgDue := false, msgOut := false, headOut := false })

/-- A write of 0: writing stops, the backlog stays. -/
def disableRing (s : State) (n : Nat) : State := modRing s n (fun r => { r with enabled := false })

/-- Does the block write a ring: it is enabled, has no FAULT (R82), and the block is not FATAL (R421)? -/
def ringRuns (s : State) (n : Nat) : Bool := (ring s n).enabled && !(ring s n).fault && !s.ao.fatal

/-- The 32 bytes of a notice record (R78). -/
def noticeRecord (x : Notice) (seq : Nat) : Nat :=
  seq % 65536 + x.code % 256 * 2 ^ 16 + (if x.droppedBefore then 2 ^ 24 else 0) + x.queue % 65536 * 2 ^ 32
    + x.tag % 65536 * 2 ^ 48 + x.index % 65536 * 2 ^ 64 + x.region % 65536 * 2 ^ 80 + x.status % 65536 * 2 ^ 96
    + x.detail % 65536 * 2 ^ 112 + x.extra % 2 ^ 32 * 2 ^ 128 + x.time % 2 ^ 32 * 2 ^ 160 + x.fpa.toNat * 2 ^ 192

/-- NOTICE_RECORD_WRITE (R81): the next record of the backlog goes into the ring at TAIL. -/
def execNoticeRecordWrite (n : Nat) (s : State) : Host.Outcome State Fault Refusal :=
  gate s (
    let r := ring s n
    match r.backlog[r.written]? with
    | some x =>
      if ringRuns s n ∧ ¬ ringFull s n then
        fabSmall (modRing s n (fun r => { r with written := r.written + 1, tail := (r.tail + 1) % 65536, acks := r.acks ++ [false] }))
          (nOd s n 0x03 + r.tail % 2 ^ nOd s n 0x04 * 32) 32 (noticeRecord x r.tail) (.record n r.tail)
      else s
    | none => s)

/-- R82: a write or head word read of a ring failed: FAULT, writing stops, Cairn record. -/
def ringFault (s : State) (n addr : Nat) : State :=
  cairn (modRing s n (fun r => { r with fault := true })) 0x11 (cu 10 n) 0xFFFF 0 0 0 addr 0

/-- R83: a message write falls due: it goes out unless the holdoff runs or the ring has stopped (R82). -/
def messageDue (s : State) (n : Nat) : State :=
  if nOd s n 0x07 = 0 ∨ ¬ ringRuns s n then s
  else if (ring s n).holdoff ∧ nOd s n 0x09 ≠ 0 then modRing s n (fun r => { r with msgDue := true })
  else fabSmall (modRing s n (fun r => { r with msgDue := false, msgOut := true, holdoff := decide (nOd s n 0x09 ≠ 0) }))
    (nOd s n 0x07) 4 (nOd s n 0x08) (.msg n)

/-- R81: the tail word follows the records it covers; with TAIL_ADDR at 0 the message does. A ring that has stopped gets
neither (R82). -/
def tailDue (s : State) (n : Nat) : State :=
  let r := ring s n
  if nOd s n 0x06 = 0 then messageDue s n
  else if ¬ ringRuns s n then s
  else if r.tailOut then modRing s n (fun r => { r with tailDue := true })
  else fabSmall (modRing s n (fun r => { r with tailDue := false, tailOut := true }))
    (nOd s n 0x06) 8 ((r.tail + 65536 - r.written) % 65536) (.tail n)

/-- How many of the first answers have arrived. -/
def leadingTrue : List Bool → Nat
  | true :: r => leadingTrue r + 1
  | _ => 0

/-- Acknowledged records leave the backlog in order (R82), and the places freed are given out (R87). -/
def ringRetire (s : State) (n : Nat) : State :=
  let k := leadingTrue (ring s n).acks
  if k = 0 then s
  else
    let s := modRing s n (fun r => { r with backlog := r.backlog.drop k, written := r.written - k, acks := r.acks.drop k })
    let s := countBy s (0x1110 + n) 0x0E k
    tailDue (ringGiveAll s n k) n

/-- The place in the written part of the backlog of the record with index k. -/
def recordPos (r : Ring) (k : Nat) : Nat := (k + 65536 + r.written - r.tail % 65536) % 65536

/-- Does a fabric request write a record of ring n at or behind a place of its backlog? -/
def Purpose.recordFrom (r : Ring) (n pos : Nat) : Purpose → Bool
  | .record m k => decide (m = n) && decide (recordPos r k ≥ pos)
  | _ => false

/-- The answer to the write of record k of a ring (R82): after an error the answers to later records count no more, those to earlier ones
do. -/
def recordAnswer (s : State) (q : FabReq) (n k : Nat) (err : Bool) : State :=
  let s := fabTake s q err
  let pos := recordPos (ring s n) k
  if err then
    ringFault (modRing (orphan s (Purpose.recordFrom (ring s n) n pos)) n (fun r =>
      { r with tail := k, written := pos, acks := r.acks.take pos })) n q.addr
  else ringRetire (modRing s n (fun r => { r with acks := setAt r.acks pos true })) n

/-- NOTICE_RECORD_RESPONSE (R82). -/
def execNoticeRecordResponse (tag : Nat) (err : Bool) (s : State) : Host.Outcome State Fault Refusal :=
  gate s (match reqOf s tag with
    | none => lateTag s
    | some q => match q.purpose with
      | .record n k => recordAnswer s q n k err
      | .stale => fabTake s q err
      | _ => s)

/-- The answer to a tail word write (R81, R83). -/
def tailAnswer (s : State) (q : FabReq) (n : Nat) (err : Bool) : State :=
  let s := modRing (fabTake s q err) n (fun r => { r with tailOut := false })
  if err then ringFault s n q.addr
  else
    let s := messageDue s n
    if (ring s n).tailDue then tailDue s n else s

/-- TAIL_WORD_RESPONSE (R81, R83). -/
def execTailWordResponse (tag : Nat) (err : Bool) (s : State) : Host.Outcome State Fault Refusal :=
  gate s (match reqOf s tag with
    | none => lateTag s
    | some q => match q.purpose with
      | .tail n => tailAnswer s q n err
      | .stale => fabTake s q err
      | _ => s)

/-- The answer to a message write (R82). -/
def messageAnswer (s : State) (q : FabReq) (n : Nat) (err : Bool) : State :=
  let s := modRing (fabTake s q err) n (fun r => { r with msgOut := false })
  if err then ringFault s n q.addr else s

/-- MESSAGE_WRITE_RESPONSE (R82). -/
def execMessageWriteResponse (tag : Nat) (err : Bool) (s : State) : Host.Outcome State Fault Refusal :=
  gate s (match reqOf s tag with
    | none => lateTag s
    | some q => match q.purpose with
      | .msg n => messageAnswer s q n err
      | .stale => fabTake s q err
      | _ => s)

/-- MSG_HOLDOFF_EXPIRY (R83): records acknowledged in the meantime are announced by one message. -/
def execMsgHoldoffExpiry (n : Nat) (s : State) : Host.Outcome State Fault Refusal :=
  gate s (
    let s := modRing s n (fun r => { r with holdoff := false })
    if (ring s n).msgDue then messageDue s n else s)

/-- HEAD_WORD_REREAD (R81): the head word is read while the ring is full by its last-read HEAD. -/
def execHeadWordReread (n : Nat) (s : State) : Host.Outcome State Fault Refusal :=
  gate s (
    let r := ring s n
    if ringRuns s n ∧ ringFull s n ∧ ¬ r.headOut then
      fabIssue (modRing s n (fun r => { r with headOut := true })) false (nOd s n 0x05) 8 [] (.head n)
    else s)

/-- The answer to a head word read (R81): a value that moves backwards or stands beyond TAIL is ignored. -/
def headAnswer (s : State) (q : FabReq) (n : Nat) (err : Bool) (v : W64) : State :=
  let s := modRing (fabTake s q err) n (fun r => { r with headOut := false })
  if err then ringFault s n q.addr
  else
    let m := 2 ^ (nOd s n 0x04 + 1)
    let h := bitsOf v 15 0
    if ((ring s n).tail % m + m - h % m) % m ≤ ringOut s n then modRing s n (fun r => { r with head := h }) else s

/-- HEAD_WORD_RESPONSE (R81). -/
def execHeadWordResponse (tag : Nat) (err : Bool) (v : W64) (s : State) : Host.Outcome State Fault Refusal :=
  gate s (match reqOf s tag with
    | none => lateTag s
    | some q => match q.purpose with
      | .head n => headAnswer s q n err v
      | .stale => fabTake s q err
      | _ => s)

/-! ### Retirement -/

/-- The first entry whose status write has not been issued, when every earlier one has. -/
def nextToRetire (x : Queue) : Option Ent := x.ents.find? (fun e => e.wr = 0)

/-- R70 step 2: issue the status write of an entry. -/
def writeStatus (s : State) (q : Nat) (e : Ent) (st : Status) : State :=
  let a := qOd s q 0x04 + e.idx % 2 ^ qOd s q 0x05 * 64 + 56
  fabSmall (modEnt s q e.idx (fun e => { e with wr := 1 })) a 8 (statusWord st.code st.detail st.extra).toNat (.status q e.idx)

/-- R77: does an entry with this final status need a notice? -/
def entNeedsNotice (s : State) (q : Nat) (e : Ent) (st : Status) : Bool := needsNotice (eNotify e.raw) st.code (qOd s q 0x0B)

/-- R84: the queue stalls at the entry for want of a notice place. -/
def noticeStall (s : State) (q : Nat) : State :=
  let s := modQueue (setQerr s q qerrNotice) q (fun x => { x with stalledNotice := true })
  modRing (count s (0x3000 + q) 0x12) (qOd s q 0x0A) (fun r => { r with stalled := r.stalled ++ [q] })

/-- RETIRE_ENTRY (R70): steps 1 and 2 for the next entry in index order with a final status. -/
def execRetireEntry (q : Nat) (s : State) : Host.Outcome State Fault Refusal :=
  gate s (
    let x := queue s q
    match nextToRetire x with
    | some e =>
      match e.fin with
      | some (st, _) =>
        if x.frozen ∨ x.stalledNotice ∨ s.ao.fatal then s
        else if entNeedsNotice s q e st ∧ ¬ e.reserved then
          let n := qOd s q 0x0A
          if backlogUsed (ring s n) < 256 ∧ (ring s n).pendingQ = [] ∧ (ring s n).stalled = [] then
            writeStatus (modEnt (modRing s n (fun r => { r with reserved := r.reserved + 1 })) q e.idx
              (fun e => { e with reserved := true })) q e st
          else noticeStall s q
        else writeStatus s q e st
      | none => s
    | none => s)

/-- R70 step 3, R78: the notice record of a retired entry takes its reserved place. Its TIME is the moment DONE passes the entry (DESIGN
CHOICE, log entry 51). -/
def postCompletion (s : State) (q : Nat) (e : Ent) (st : Status) (fpa : W64) : State :=
  if e.reserved then
    let region := if eRegion e.raw > 255 ∨ eOpcode e.raw = 0x30 ∨ (eOpcode e.raw = 0x20 ∧ eHint e.raw ≠ 1) then 0xFFFF else eRegion e.raw
    modRing s (qOd s q 0x0A) (fun r => ringPut { r with reserved := r.reserved - 1 }
      { code := 1, fpa := fpa, time := s.ao.timeUs % 2 ^ 32, extra := st.extra, detail := st.detail, status := st.code,
        region := region, index := e.idx, tag := eTag e.raw, queue := q, droppedBefore := false })
  else s

/-- DONE passes the acknowledged entries in index order (R70), by fuel. -/
def advanceDone (s : State) (q : Nat) : Nat → State
  | 0 => s
  | k + 1 =>
    match (queue s q).ents with
    | e :: rest =>
      match e.fin with
      | some (st, f) =>
        if e.wr = 2 then
          let s := modQueue s q (fun x => { x with ents := rest, done := (x.done + 1) % 65536 })
          let s := evalWatermark (postCompletion (count s (0x3000 + q) 0x11) q e st f) q
          advanceDone s q k
        else s
      | none => s
    | [] => s

/-- R71: the done word falls due. It is issued, or, while another is outstanding, waits for that one's response. -/
def publish (s : State) (q : Nat) : State :=
  let x := queue s q
  if uncovered x > 0 ∧ ¬ x.doneDead ∧ x.state ≠ .off ∧ ¬ s.ao.fatal then
    (match x.doneOut with
     | some v => if v = x.done then s else modQueue s q (fun x => { x with doneDue := true })
     | none => writeDone (modQueue s q (fun x => { x with doneDue := false })) q x.done)
  else s

/-- R71: at 32 uncovered retirements, or with a done word already due, the next one does not wait for its timer. -/
def publishMany (s : State) (q : Nat) : State :=
  if uncovered (queue s q) ≥ 32 ∨ (queue s q).doneDue then publish s q else s

/-- DONE_WORD_TIMER (R71): 64 ns after the first uncovered retirement. -/
def execDoneWordTimer (q : Nat) (s : State) : Host.Outcome State Fault Refusal := gate s (publish s q)

/-- R72: release the notice places reserved for the entries from position k on. -/
def releasePlaces (s : State) (q k : Nat) : State :=
  let n := qOd s q 0x0A
  let m := ((queue s q).ents.drop k).filter (fun e => e.reserved)
  let s := modQueue s q (fun x =>
    { x with ents := x.ents.take k ++ (x.ents.drop k).map (fun e => { e with reserved := false }), stalledNotice := false })
  let s := modRing s n (fun r => { r with reserved := r.reserved - m.length, stalled := r.stalled.filter (fun y => y ≠ q) })
  ringGiveAll s n m.length

/-- R72: a status or done word write failed: retirement freezes at the entry in position k, and a RUNNING or HALTED queue
is HALTED. Entries before it, whose writes were issued earlier, still pass as their responses arrive; a later failure of one of
them moves the freeze up to it. The count for QUEUE_OFF is what is fetched and not retired when the response arrives, entries
before the failing one with their writes outstanding among them (DEDUCED from "at the freeze": log entry 13). -/
def freezeQueue (s : State) (q k addr : Nat) : State :=
  let s := setQerr s q qerrStatus
  let x := queue s q
  let s := modQueue (releasePlaces s q k) q (fun x =>
    { x with frozen := true, atFreeze := if x.frozen then x.atFreeze else x.ents.length })
  match x.state with
  | .running | .halted => haltQueue s q 3 addr
  | .draining | .off => s

/-- The answer to the status write of entry i of a queue (R70, R72); a retire unit that FATAL has stopped does nothing with it (R421). -/
def statusAnswer (s : State) (r : FabReq) (q i : Nat) (err : Bool) : State :=
  let s := fabTake s r err
  if s.ao.fatal then s
  else if err then freezeQueue (modEnt s q i (fun e => { e with wr := 3 })) q ((queue s q).ents.findIdx (fun e => e.idx = i)) r.addr
  else
    let s := modEnt s q i (fun e => { e with wr := 2 })
    if (queue s q).doneDead then s else publishMany (advanceDone s q (queue s q).ents.length) q

/-- STATUS_WRITE_RESPONSE (R70, R72). -/
def execStatusWriteResponse (tag : Nat) (err : Bool) (s : State) : Host.Outcome State Fault Refusal :=
  gate s (match reqOf s tag with
    | none => lateTag s
    | some r => match r.purpose with
      | .status q i => statusAnswer s r q i err
      | .stale => fabTake s r err
      | _ => s)

/-- The answer to a done word write (R71, R72). -/
def doneAnswer (s : State) (r : FabReq) (q : Nat) (err : Bool) : State :=
  let v := (queue s q).doneOut.getD 0
  let s := modQueue (fabTake s r err) q (fun x => { x with doneOut := none })
  if s.ao.fatal then s
  else if err then freezeQueue (modQueue s q (fun x => { x with doneDead := true })) q 0 r.addr
  else publishMany (modQueue s q (fun x => { x with published := v })) q

/-- DONE_WORD_RESPONSE (R71, R72). -/
def execDoneWordResponse (tag : Nat) (err : Bool) (s : State) : Host.Outcome State Fault Refusal :=
  gate s (match reqOf s tag with
    | none => lateTag s
    | some r => match r.purpose with
      | .done q => doneAnswer s r q err
      | .stale => fabTake s r err
      | _ => s)

/-! ### Fences (R75) -/

/-- Does an entry of queue q2 hold up a fence of queue q with scope, region and admission number o? An entry whose region
field must be zero, DIE_FEATURE, counts as naming region 0; a FENCE of queue or global scope, whose field is not read, names
none (DESIGN CHOICE, log entry 13). -/
def holdsFence (q scope reg o q2 : Nat) (e : Ent) : Bool :=
  (match e.order with
   | some n => decide (n < o)
   | none => false) && decide (e.fin = none) &&
  (if scope = 0 then decide (q2 = q) else if scope = 1 then decide (eRegion e.raw = reg) && decide (eOpcode e.raw ≠ 0x20 ∨ eHint e.raw = 1)
   else true)

/-- Is the condition of R75 met for the fence entry e of queue q? -/
def fenceMet (s : State) (q : Nat) (e : Ent) : Bool :=
  match e.order with
  | none => false
  | some o => s.queues.entries.all (fun x => x.2.ents.all (fun y => !holdsFence q (eHint e.raw) (eRegion e.raw) o x.1 y))

/-- The waiting fence of a queue: at most one is admitted and not complete (R76). -/
def waitingFence (x : Queue) : Option Ent :=
  x.ents.find? (fun e => decide (eOpcode e.raw = 0x20) && decide (e.order ≠ none) && decide (e.fin = none))

/-- FENCES_WAITING (R68). -/
def fencesWaiting (s : State) : Nat := (s.queues.entries.filter (fun x => (waitingFence x.2).isSome)).length

end Sys2Proof.Machine
end

