-- ==== Sys2Proof/Machine/ColOps.lean ====
section
/-! DEFINITION. The Col port's sending side: flits and frames (R241 to R243), credits and the replay buffer (R244, R245),
acknowledges (R243, R247), and the copies of an ORIGIN region (R190, R248). -/

namespace Sys2Proof.Machine

/-! ### Flits -/

/-- CRC-32C over bytes 0 to 123. -/
def flitCrc (f : Flit) : BitVec 32 := crc32c (bytesOf 124 f)
/-- Put the CRC in its place. -/
def sealFlit (f : Flit) : Flit :=
  let b := f.extractLsb' 0 992
  b.setWidth 1024 ||| ((flitCrc f).setWidth 1024 <<< 992)
/-- Does a flit carry its CRC? -/
def flitIntact (f : Flit) : Bool := decide (flitCrc f = f.extractLsb' 992 32)

/-- KIND of a header. -/
def fhKind (f : Flit) : Nat := bitsOf f 7 0
/-- POS. -/
def fhPos (f : Flit) : Nat := bitsOf f 10 8
/-- CHAIN_ID. -/
def fhChain (f : Flit) : Nat := bitsOf f 31 16
/-- SEQ. -/
def fhSeq (f : Flit) : Nat := bitsOf f 63 32
/-- Bytes 8 to 15. -/
def fhFpa (f : Flit) : W64 := f.extractLsb' 64 64
/-- Bytes 16 to 19: HANDLE or REQUEST_ID. -/
def fhHandle (f : Flit) : BitVec 32 := f.extractLsb' 128 32
/-- Byte 20. -/
def fhByte20 (f : Flit) : Nat := bitsOf f 167 160

/-- A header without its SEQ and CRC (R241, R242). -/
def mkHeader (kind pos chain : Nat) (fpa : W64) (handle : BitVec 32) (b20 : Nat) (more : Flit) : Flit :=
  place 1024 0 (kind % 256) ||| place 1024 8 (pos % 8) ||| place 1024 16 (chain % 65536) ||| (fpa.setWidth 1024 <<< 64)
    ||| (handle.setWidth 1024 <<< 128) ||| place 1024 160 (b20 % 256) ||| more

/-- A header with its SEQ, sealed. -/
def withSeq (f : Flit) (seq : Nat) : Flit := sealFlit (f ||| place 1024 32 (seq % 2 ^ 32))

/-- The data flits of stored bytes: 128 bytes a flit. -/
def dataFlits (n : Nat) (bytes : Nat) : List Flit :=
  (List.range n).map (fun i => BitVec.ofNat 1024 (bytes / 2 ^ (1024 * i)))
/-- CRC-32C over data flits. -/
def dataCrc (l : List Flit) : BitVec 32 := crc32c ((l.map (fun f => bytesOf 128 f)).flatten)
/-- The tail flit of data flits (R242). -/
def tailFlit (l : List Flit) : Flit := sealFlit ((dataCrc l).setWidth 1024)
/-- The 64-byte lines of a plane as one number, line 0 lowest. -/
def packLines (w : Nat) (l : List Nat) : Nat := l.foldr (fun x a => x % 2 ^ w + 2 ^ w * a) 0

/-! ### Sending (R244, R245) -/

/-- Flits a link's replay buffer holds. -/
def replayUsed (l : Link) : Nat := l.replay.foldl (fun a f => a + f.flits.length) 0

/-- Put the flits of a frame on link l. -/
def emitFrame (s : State) (l : Nat) (f : TxFrame) : State := f.flits.foldl (fun s x => emit s (.col l x.1 x.2)) s

/-- Issue the frames that wait, in order, while credits and the replay buffer cover them, by fuel. A REPAIR_SERVE ends when the link
accepts its frame (R258). -/
def linkIssue (s : State) (l : Nat) : Nat → State
  | 0 => s
  | k + 1 =>
    let x := link s l
    match x.waiting with
    | f :: rest =>
      if x.state = 2 ∧ ¬ railDown s ∧ f.flits.length ≤ x.credits ∧ replayUsed x + f.flits.length ≤ 512 then
        let s := modLink s l (fun x =>
          { x with waiting := rest, credits := x.credits - f.flits.length, replay := x.replay ++ [{ f with sends := 1, serve := none }] })
        let s := count (emitFrame s l f) (0x8010 + l) 0x04
        linkIssue (match f.serve with
          | some (d, st) => reportDesc s d st
          | none => s) l k
      else s
    | [] => s

/-- SEQ of the next frame on link l. -/
def nextSeq (s : State) (l : Nat) : Nat := (link s l).txSeq

/-- Send a frame on link l: header without SEQ, data and tail flits, and the REPAIR_SERVE it ends. Nothing is sent on a link that is
not UP, nor once the power-fail sequence has begun (R365). -/
def sendServed (s : State) (l : Nat) (h : Flit) (rest : List (Nat × Flit)) (reg : Nat) (serve : Option (Desc × Status)) : State :=
  let x := link s l
  if x.state ≠ 2 ∨ railDown s then s
  else
    let f : TxFrame := { seq := x.txSeq, flits := (0, withSeq h x.txSeq) :: rest, sends := 0, region := reg, serve := serve }
    let s := modLink s l (fun x => { x with txSeq := (x.txSeq + 1) % 2 ^ 32, waiting := x.waiting ++ [f] })
    linkIssue s l 1

/-- Send a frame on link l that ends no entry. -/
def sendFrame (s : State) (l : Nat) (h : Flit) (rest : List (Nat × Flit)) (reg : Nat) : State := sendServed s l h rest reg none

/-- Send an ACK flit on link l from its state (R243). -/
def sendAck (s : State) (l : Nat) (nakSeq nakHops nakCause : Nat) (retry : Bool) : State :=
  let x := link s l
  let f : Flit := place 1024 0 0x10 ||| place 1024 64 ((x.rxNext + 2 ^ 32 - 1) % 2 ^ 32) ||| place 1024 96 (x.freed % 2 ^ 32)
    ||| place 1024 128 (x.heldOut.getD 0 0) ||| place 1024 160 (x.heldOut.getD 1 0) ||| place 1024 192 (x.heldOut.getD 2 0)
    ||| place 1024 224 (x.heldOut.getD 3 0) ||| place 1024 264 (nakCause % 256) ||| place 1024 272 (nakHops % 256)
    ||| place 1024 288 (nakSeq % 2 ^ 32) ||| place 1024 320 (if retry then 1 else 0) ||| place 1024 352 (if retry then x.rxNext else 0)
  if x.state = 2 then emit s (.col l 3 (sealFlit f)) else s

/-! ### Copies of an ORIGIN region -/

/-- DOWN_LINK of a region. -/
def downLink (s : State) (r : Nat) : Nat := od s (0x8100 + r) 0x03
/-- UP_LINK of a region. -/
def upLink (s : State) (r : Nat) : Nat := od s (0x8100 + r) 0x02
/-- CHAIN_ID of a region. -/
def chainId (s : State) (r : Nat) : Nat := od s (0x8100 + r) 0x01
/-- CHAIN_POS and CHAIN_LEN. -/
def chainPos (s : State) (r : Nat) : Nat := rOd s r 0x0D
/-- CHAIN_LEN. -/
def chainLen (s : State) (r : Nat) : Nat := rOd s r 0x0E

/-- R252: are the writes of an ORIGIN region framed (RESYNC or SYNCED)? -/
def mirrorOn (s : State) (r : Nat) : Bool := isOrigin s r && (decide ((region s r).mirror = 1) || decide ((region s r).mirror = 2))

/-- Send a frame of an ORIGIN region on its DOWN_LINK; a NAK for it will find its region (R248). -/
def sendOwned (s : State) (r : Nat) (h : Flit) (rest : List (Nat × Flit)) (serve : Option (Desc × Status)) : State :=
  let l := downLink s r
  if (link s l).state = 2 then
    let n := nextSeq s l
    sendServed (modLink s l (fun x => { x with own := x.own ++ [(n, r)] })) l h rest r serve
  else s

/-- Such a frame that ends no entry. -/
def sendOwn (s : State) (r kind : Nat) (fpa : W64) (h : BitVec 32) (b20 : Nat) (more : Flit) (rest : List (Nat × Flit)) : State :=
  sendOwned s r (mkHeader kind 0 (chainId s r) fpa h b20 more) rest none

/-- Send a frame of an ORIGIN region down its chain, in RESYNC and SYNCED. -/
def sendDown (s : State) (r kind : Nat) (fpa : W64) (h : BitVec 32) (b20 : Nat) (more : Flit) (rest : List (Nat × Flit)) : State :=
  if mirrorOn s r then sendOwn s r kind fpa h b20 more rest else s

/-- Send a timed frame (LINE, PAGE): its hop timer waits for the chain, the entry and the unit with it (R248). -/
def sendTimed (s : State) (r kind : Nat) (fpa : W64) (h : BitVec 32) (b20 : Nat) (more : Flit) (rest : List (Nat × Flit))
    (q idx u : Nat) : State :=
  let l := downLink s r
  if mirrorOn s r ∧ (link s l).state = 2 then
    let n := nextSeq s l
    let s := modLink s l (fun x => { x with timers := x.timers ++ [⟨n, r, q, idx, u, []⟩] })
    let s := modUnit s u (fun d => { d with mirror := d.mirror ++ [(l, n)] })
    let s := if q = 0xFFFF then s else modEnt s q idx (fun e => { e with mirror := true })
    sendOwn s r kind fpa h b20 more rest
  else s

/-- The further bytes of a LINE frame: 64 data bytes at 21, META0 at 85. -/
def lineBytes (l : BitVec 528) : Flit := ((lData l).setWidth 1024 <<< 168) ||| ((lMeta0 l).setWidth 1024 <<< 680)

/-- Data and tail flits of one plane of a PAGE frame: the 64 data bytes of each line. -/
def pageFlits (lines : List (BitVec 528)) : List (Nat × Flit) :=
  let d := dataFlits 128 (packLines 512 (lines.map (fun l => (lData l).toNat)))
  d.map (fun f => (1, f)) ++ [(2, tailFlit d)]

/-- Data and tail flits of a REPAIR frame: 66 bytes a line. -/
def repairFlits (lines : List (BitVec 528)) : List (Nat × Flit) :=
  let d := dataFlits 132 (packLines 528 (lines.map (fun l => l.toNat)))
  d.map (fun f => (1, f)) ++ [(2, tailFlit d)]

/-- R254: is a write of a region sent down its chain: not one admitted while the region was DEGRADED, nor one that the chain's failure
has already ended? -/
def framesWrite (s : State) (r : Nat) (x : Ent) : Bool :=
  mirrorOn s r && !x.unframed && x.worst.all (fun w => decide (w.1.code ≠ 0x50))

/-- R254: a write of an ORIGIN region that is not framed completes MIRROR_DEGRADED once held locally: DETAIL 0, unless the position
that failed the chain stands already. -/
def degradedWrite (s : State) (r q idx : Nat) (fpa : W64) : State :=
  if isOrigin s r ∧ q ≠ 0xFFFF ∧ ((entOf s q idx).bind (fun x => x.worst)).all (fun w => decide (w.1.code ≠ 0x50)) then
    mergeStatus s q idx ⟨0x50, 0, 0⟩ fpa 0
  else s

/-- R256: a MIRROR_LINK notice with its Cairn record. -/
def mirrorNotice (s : State) (r l pos cause : Nat) : State :=
  let d := l * 4096 + (link s l).state * 256 + (region s r).mirror * 16 + pos % 16
  cairn (regionNotice s r 0x20 d cause 0) 0x38 (cu 6 l) r d 0 cause 0 0

/-! ### What a member holds (R247) -/

/-- SEQ a stands at or before b in the wrapping order. -/
def seqLe (a b : Nat) : Bool := decide ((b + 2 ^ 32 - a % 2 ^ 32) % 2 ^ 32 < 2 ^ 31)

/-- The SEQ before the earliest of some, all at or before the last received; that one where there is none. -/
def beforeAll (last : Nat) (l : List Nat) : Nat :=
  l.foldl (fun a x => if seqLe x a then (x + 2 ^ 32 - 1) % 2 ^ 32 else a) last

/-- HELDk of a link (R247): every frame up to it is held here and, for k hops further, at each of them. -/
def heldUpTo (s : State) (l k : Nat) : Nat :=
  let x := link s l
  let last := (x.rxNext + 2 ^ 32 - 1) % 2 ^ 32
  if k = 0 then beforeAll last x.unheld
  else
    let h := (link s (1 - l)).heldIn.getD (k - 1) 0
    beforeAll last (x.unheld ++ (x.fwd.filter (fun e => match e.2.2 with
      | some n => !seqLe n h
      | none => true)).map (fun e => e.1))

/-- The HELD fields of a link: they stop where a further hop can no longer hold a frame, and never fall back (R255). -/
def heldFields (s : State) (l : Nat) : List Nat :=
  (List.range 4).map (fun k =>
    let was := (link s l).heldOut.getD k 0
    if seqLe (heldUpTo s l k) was then was else heldUpTo s l k)

/-- Bring the HELD fields of a link up to date and send them with an ACK, a refusal or a retry (R243). Forwarded frames that
every further hop holds are forgotten. -/
def ackOn (s : State) (l nakSeq nakHops nakCause : Nat) (retry : Bool) : State :=
  let hs := heldFields s l
  let all := (link s (1 - l)).heldIn
  let s := modLink s l (fun x => { x with
    heldOut := hs, fwd := x.fwd.filter (fun e => match e.2.2 with
      | some n => !all.all (fun h => seqLe n h)
      | none => true) })
  sendAck s l nakSeq nakHops nakCause retry

/-- Frames received on a link are held now. -/
def nowHeld (s : State) (l : Nat) (qs : List Nat) : State :=
  if qs = [] then s
  else ackOn (modLink s l (fun x => { x with unheld := x.unheld.filter (fun n => ¬ qs.contains n) })) l 0 0 0 false

/-! ### What a member forwards (R246) -/

/-- The bits lo to hi - 1. -/
def spanBits (lo hi : Nat) : Flit := place 1024 lo (2 ^ (hi - lo) - 1)

/-- The fields of a frame's header that go on as they came: KIND, CHAIN_ID and those R242 gives its kind. Reserved and unused bits are
none of them, for the block writes them as zero (R7, R241). -/
def frameFields (kind : Nat) : Flit :=
  spanBits 0 8 ||| spanBits 16 32 ||| (match kind with
    | 0x02 | 0x06 => spanBits 64 168
    | 0x03 => spanBits 64 160 ||| spanBits 168 688
    | 0x04 | 0x05 => spanBits 128 160
    | 0x07 => spanBits 64 128 ||| spanBits 160 168
    | 0x08 => spanBits 64 128 ||| spanBits 160 168 ||| spanBits 192 256
    | 0x09 => spanBits 160 168
    | 0x0A => spanBits 64 160
    | 0x0B => spanBits 64 176
    | _ => 0)

/-- A header with another POS, for forwarding; SEQ and CRC are set again. -/
def rehead (f : Flit) (pos : Nat) : Flit := (f &&& frameFields (fhKind f)) ||| place 1024 8 (pos % 8)

/-- Does check 3 of the unit of a frame received on link l still run? A refused frame is not forwarded, so it waits (R246). -/
def framePending (s : State) (l seq : Nat) : Bool :=
  s.units.entries.any (fun e => e.2.reserved && e.2.mkey.any (fun k => decide (k.1 = l)) && e.2.due.contains seq)

/-- Forward one frame on the DOWN_LINK of its region, with its own SEQ there. -/
def forwardOne (s : State) (l : Nat) (e : LaterFrame) : State :=
  let dl := downLink s e.region
  if (link s dl).state = 2 then
    let n := nextSeq s dl
    sendFrame (modLink s l (fun x => { x with fwd := x.fwd.map (fun y => if y.1 = e.seq then (y.1, y.2.1, some n) else y) })) dl
      (rehead e.flit (chainPos s e.region)) e.rest e.region
  else s

/-- Forward the frames received on link l, in the order received, up to one whose check still runs; by fuel. -/
def forwardSome (s : State) (l : Nat) : Nat → State
  | 0 => s
  | k + 1 =>
    match (link s l).later with
    | e :: rest => if framePending s l e.seq then s else forwardSome (forwardOne (modLink s l (fun x => { x with later := rest })) l e) l k
    | [] => s

/-- Forward what can go on. -/
def forwardLater (s : State) (l : Nat) : State := forwardSome s l (link s l).later.length

/-- R246 cause 5: a frame whose check has failed is refused: it is not forwarded and never held. -/
def refuseLater (s : State) (l seq : Nat) : State :=
  ackOn (modLink s l (fun x => { x with later := x.later.filter (fun e => e.seq ≠ seq), fwd := x.fwd.filter (fun e => e.1 ≠ seq) })) l seq 0 5 false

/-! ### Repair requests (R257) -/

/-- R260: a REPAIR_REQUEST notice with its Cairn record. -/
def repairNotice (s : State) (r event requester extra : Nat) (fpa : W64) (l id : Nat) : State :=
  let d := event * 4096 + requester * 512
  cairn (regionNotice s r 0x21 d extra fpa) 0x39 (cu 6 l) r d fpa id 0 0

/-- R239, R257: the chain's form of an address of a region: logical in a Traverse window. -/
def chainForm (s : State) (r : Nat) (f : W64) : W64 := fSetLine (tweakForm s r f) 0

/-- Send a REPAIR_REQ, upstream unless this block is the origin, downstream unless it is the tail. -/
def sendRepairReq (s : State) (r : Nat) (fpa : W64) (id : BitVec 32) (up down : Bool) : State :=
  let pos := chainPos s r
  let h := mkHeader 0x0A pos (chainId s r) fpa id 0 0
  let s := if up ∧ rOd s r 0x0C = 2 then sendFrame s (upLink s r) h [] r else s
  if ¬ down then s
  else if isOrigin s r then sendOwn s r 0x0A fpa id 0 0 []
  else if pos < chainLen s r then sendFrame s (downLink s r) h [] r else s

/-- R257: request a repair of a plane-page of a mirrored region. -/
def requestRepair (s : State) (r : Nat) (f : W64) : State :=
  if rOd s r 0x0C = 0 then s
  else if s.col.table.length ≥ 128 then
    cairn (count s 0x8000 0x07) 0x39 (cu 6 (downLink s r)) r (5 * 4096 + chainPos s r * 512) f 0 0 0
  else
    let c := if s.col.count ≥ 2 ^ 24 - 1 then 1 else s.col.count + 1
    let id : BitVec 32 := BitVec.ofNat 32 (chainPos s r % 8 * 2 ^ 29 + c)
    let f := chainForm s r f
    let s := { s with col := { s.col with count := c, table := s.col.table ++ [⟨id, f, r, true, false, s.ao.timeUs⟩] } }
    sendRepairReq s r f id true true

end Sys2Proof.Machine
end

