-- ==== Sys2Proof/Machine/Ledge.lean ====
section
/-! DEFINITION. The Ledge banks: granules and records (R178, R179), states of a unit (R180), standing charges (R202), the
pre-program check (R182, R222, R223), wordline groups and fills (R195), and the closing of units (R41, R206). -/

namespace Sys2Proof.Machine

/-! ### Banks -/

/-- The units of a ridge that are not FREE, by key. -/
def unitsOf (s : State) (r : Nat) : List (Nat × Led) :=
  s.units.entries.filter (fun e => decide (e.1 / 232 = r) && decide (e.2.state ≠ .free))

/-- GRANULES_FREE (R207): fill units take none. -/
def granulesFree (s : State) (r : Nat) : Nat := 232 - (unitsOf s r).foldl (fun a e => a + e.2.planesM1 + 1) 0

/-- Does a unit still to be restored come back under a record number (R374)? -/
def recordAwaited (s : State) (r i : Nat) : Bool :=
  (ridge s r).units.any (fun e => decide (e ≠ 0) && decide (bitsOf e 27 16 = i))

/-- A free record of the bank, whichever (R179): the first at or after c, by fuel. -/
def freeRecord (s : State) (r : Nat) : Nat → Nat → Option Nat
  | 0, _ => none
  | k + 1, c => if (unit s (r * 232 + c % 232)).state = .free ∧ ¬ recordAwaited s r (c % 232) then some (r * 232 + c % 232) else freeRecord s r k (c + 1)

/-- Is a record FREE as software sees it: free, or only reserved by a UNIT_OPEN in check 3 (R180, R182) or for a pending unit (R374)? -/
def Led.unopened (d : Led) : Bool := decide (d.state = .free) || d.pending.isSome || (d.reserved && decide (d.kind = .host))

/-- Units in a state. -/
def unitsIn (s : State) (r : Nat) (x : UState) : Nat := ((unitsOf s r).filter (fun e => decide (e.2.state = x) && !e.2.unopened)).length

/-- Does a unit of the ridge that is not FREE target the page of f on any of the planes (R182 check 1)? -/
def pageTaken (s : State) (r : Nat) (f : W64) (planesM1 : Nat) : Bool :=
  ((unitsOf s (fRidge f)).map (fun e => e.2) ++ (ridge s (fRidge f)).fills).any (fun d =>
    (List.range (planesM1 + 1)).any (fun k => targets d r (fSetPlane f (fPlane f + k))))

/-- R117: is a unit a read source? -/
def isSource (d : Led) : Bool :=
  (decide (d.state = .opened) || decide (d.state = .committed) || decide (d.state = .programming)) && !d.reserved && !d.keyLost
    && !d.keyHit && decide (d.kind ≠ .copyback) && decide (d.kind ≠ .gapMove)

/-- The unit a read of a page is served from (R116, rule 2). -/
def sourceUnit (s : State) (r : Nat) (f : W64) : Option Nat :=
  ((unitsOf s (fRidge f)).find? (fun e => isSource e.2 && targets e.2 r f)).map (fun e => e.1)

/-- R117: does a fill unit target the page of a read? It holds no line: every line is read as the fill programs it. -/
def sourceFill (s : State) (r : Nat) (f : W64) : Bool := (ridge s (fRidge f)).fills.any (fun d => targets d r f)

/-- R182 checks 1 and 2: the status of the first that fails. -/
def openRefusal (s : State) (r : Nat) (f : W64) (planesM1 : Nat) : Option Status :=
  if pageTaken s r f planesM1 then some (unitState 3 0)
  else if granulesFree s (fRidge f) < planesM1 + 1 ∨ freeRecord s (fRidge f) 232 0 = none then some (unitState 1 0)
  else none

/-- The record a new unit takes, which the manual leaves open (R179), and the state with the choice counted. -/
def takeRecord (s : State) (r : Nat) : Nat := (freeRecord s r 232 (Config.freePick s.free)).getD (r * 232)

/-- Open a unit in record u: everything of the record but its generation is new. -/
def openUnit (s : State) (u : Nat) (kind : UKind) (region : Nat) (f : W64) (planesM1 : Nat) (reserved : Bool) : State :=
  modUnit { s with free := s.free + 1 } u (fun d =>
    { state := .opened, gen := d.gen, kind := kind, target := fSetLine f 0, phys := physOf s region (fSetLine f 0),
      region := region, planesM1 := planesM1, reserved := reserved, since := s.ao.timeUs })

/-- Back to FREE: granules freed, the generation's user gone, GEN advanced (R180). -/
def freeUnit (s : State) (u : Nat) : State :=
  let d := unit s u
  let s := modUnit s u (fun d => { gen := (d.gen + 1) % 65536 })
  match d.key with
  | some (k, g) => dropUser s k g
  | none => s

/-- A reservation is released: nothing stays allocated. That of a UNIT_OPEN never left FREE and gave no handle, so its generation stands
(R180, R182); an internal unit was OPEN, and returns to FREE (R179). -/
def dropReservation (s : State) (u : Nat) : State :=
  let d := unit s u
  let s := modUnit s u (fun d => { gen := if d.kind = .host then d.gen else (d.gen + 1) % 65536 })
  match d.key with
  | some (k, g) => dropUser s k g
  | none => s

/-! ### Charges (R202) -/

/-- One program per plane, or one refuge page where that is larger. -/
def programKinds (s : State) (region planes : Nat) : Charge := [(.larger (rOd s region 0x06), planes)]
/-- Its energy. -/
def programCharge (s : State) (region planes : Nat) : Nat := costOf s (programKinds s region planes)

/-- Set a unit's standing charge, whatever the allowance: a charge raised with no admission behind it. -/
def setCharge (s : State) (u : Nat) (c : Charge) : State := peakDemand (modUnit s u (fun d => { d with charge := c }))

/-- Granules of a unit that hold a line. -/
def granulesHeld (d : Led) : Nat :=
  ((List.range (d.planesM1 + 1)).filter (fun p => d.lines.keys.any (fun k => decide (k / 256 = p)))).length

/-! ### Wordline groups (R195) -/

/-- The cell mode, wordline and position of a unit's page. -/
def unitWl (s : State) (d : Led) : Nat × Nat × Nat :=
  let m := rOd s d.region 0x06
  let w := wordlineOf s (fBlun d.phys) m (fPage d.phys)
  (m, w.1, w.2)

/-- Do two units belong to one program: in SLC a unit alone, otherwise those of one wordline? -/
def sameGroup (s : State) (a b : Led) : Bool :=
  decide (fBlun a.phys = fBlun b.phys) && decide (fBlock a.phys = fBlock b.phys) && decide ((unitWl s a).2.1 = (unitWl s b).2.1)

/-- The units of a unit's group, by key: COMMITTED, or OPEN, FAILED ones included, which the group waits for (R195). -/
def groupUnits (s : State) (u : Nat) : List (Nat × Led) :=
  let d := unit s u
  if (unitWl s d).1 = 0 then [(u, d)]
  else (unitsOf s (u / 232)).filter (fun e => (decide (e.2.state = .committed) || decide (e.2.state = .opened)) && sameGroup s d e.2)

/-! ### State changes -/

/-- To DONE: no charge, no source (R180, R202). -/
def toDone (s : State) (u : Nat) : State := modUnit s u (fun d => { d with state := .done, charge := [] })

/-- The sectors of a unit, plane offset × 4 + sector. -/
def unitSectors (d : Led) : List Nat := List.range ((d.planesM1 + 1) * 4)

/-- Is a region sealed? -/
def isSealed (s : State) (r : Nat) : Bool := decide (rOd s r 0x0A ≥ 2)

/-- Does the unit hold plaintext that its sealed region has yet to seal? Copies keep their stored lines (R197). -/
def sealsHere (s : State) (d : Led) : Bool :=
  isSealed s d.region && decide (d.kind ≠ .copyback) && decide (d.kind ≠ .gapMove) && !d.copied

/-- The next waiting sector takes a free GCM engine of the ridge (R194). -/
def gcmStart (s : State) (r : Nat) : State :=
  match (ridge s r).gcmWait with
  | j :: rest =>
    if (ridge s r).gcm0 = none then modRidge s r (fun x => { x with gcm0 := some j, gcmWait := rest })
    else if (ridge s r).gcm1 = none then modRidge s r (fun x => { x with gcm1 := some j, gcmWait := rest })
    else s
  | [] => s

/-- Give a sector to the ridge's engines. -/
def gcmAdd (s : State) (r : Nat) (j : GcmJob) : State := gcmStart (modRidge s r (fun x => { x with gcmWait := x.gcmWait ++ [j] })) r

/-- R195: when the positions of a unit's group are to be filled: WL_FILL_MS after the group's first commit, as WL_FILL_MS stood
then (R207). -/
def fillDue (s : State) (u : Nat) : Nat :=
  match (groupUnits s u).find? (fun e => decide (e.1 ≠ u) && decide (e.2.state = .committed)) with
  | some e => e.2.fillUs
  | none => s.ao.timeUs + od s 0x5000 0x01 * 1000

/-! ### The pre-program check (R182 check 3, R222, R223) -/

/-- The half-erased entry that covers a block on one of the planes, lowest plane first: plane and cause. -/
def halfErased (s : State) (f : W64) (planesM1 : Nat) : Option (Nat × Nat) :=
  let es := (ridge s (fRidge f)).half.entries
  ((List.range (planesM1 + 1)).findSome? (fun k =>
    let p := fPlane f + k
    (es.find? (fun e => e.2.used && decide (e.2.lun = fBlun f) && decide (e.2.block = fBlock f) && e.2.planes.testBit p)).map
      (fun e => (p, e.2.cause))))

/-- Does the fresh-erase record hold the block of a page on every plane of the target (R211, R223)? -/
def freshOn (s : State) (f : W64) (planesM1 : Nat) : Bool :=
  (ridge s (fRidge f)).fresh.any (fun x => decide (x.1 = fBlun f) && decide (x.2.1 = fBlock f)
    && (List.range (planesM1 + 1)).all (fun k => x.2.2.testBit (fPlane f + k)))

/-- The outcome of check 3: pass, fail with a status, or a probe first. -/
inductive PreCheck where
  | pass | fail (st : Status) | probe
deriving DecidableEq, Repr

/-- HALF_ERASED. -/
def halfStatus (plane cause block : Nat) : Status := ⟨0x30, plane * 256 + cause, block⟩

/-- Check 3 on a physical page: the half-erased table, the lock of R222, and the probe of R223. -/
def preCheck (s : State) (region : Nat) (f : W64) (planesM1 : Nat) : PreCheck :=
  match halfErased s f planesM1 with
  | some (p, c) => .fail (halfStatus p c (fBlock f))
  | none =>
    -- the lock refuses the blocks that are not in the table
    if (lunOf s (fBlun f)).heLock ∧ ¬ halfListed s f then .fail (halfStatus (fPlane f) 0 (fBlock f))
    else if od s 0x2200 0x01 = 1 ∧ rOd s region 0x05 = 0 ∧ (wordlineOf s (fBlun f) (rOd s region 0x06) (fPage f)).1 = 0
        ∧ ¬ freshOn s f planesM1 then .probe
    else .pass

/-! ### Holes and fills (R195) -/

/-- The fills of a unit's group. -/
def groupFills (s : State) (u : Nat) : List Led :=
  if (unitWl s (unit s u)).1 = 0 then [] else (ridge s (u / 232)).fills.filter (fun x => decide (x.state = .committed) && sameGroup s (unit s u) x)

/-- The planes of a unit. -/
def unitPlanes (d : Led) : List Nat := (List.range (d.planesM1 + 1)).map (fun k => fPlane d.phys + k)

/-- The union of planes of the COMMITTED units of a group. -/
def groupPlanes (s : State) (u : Nat) : List Nat :=
  (((groupUnits s u).filter (fun e => decide (e.2.state = .committed))).map (fun e => unitPlanes e.2)).flatten.eraseDups

/-- The (plane, position) pairs of a group with no unit and no fill, OPEN units counting as units. -/
def groupHoles (s : State) (u : Nat) : List (Nat × Nat) :=
  let m := (unitWl s (unit s u)).1
  if m = 0 then []
  else
    let all := (groupPlanes s u).flatMap (fun p => (List.range (modeBits m)).map (fun k => (p, k)))
    let taken := ((groupUnits s u).map (fun e => (unitPlanes e.2).map (fun p => (p, (unitWl s e.2).2.2)))).flatten
      ++ ((groupFills s u).map (fun x => (unitPlanes x).map (fun p => (p, (unitWl s x).2.2)))).flatten
    all.filter (fun x => ¬ taken.contains x)

/-- Is a unit sealed as far as its region asks (R194)? -/
def sealDone (s : State) (d : Led) : Bool := d.ready && (!sealsHere s d || decide (d.sealedSec.length = (d.planesM1 + 1) * 4))

/-- R195: does every position on every plane of the union have a COMMITTED, sealed unit or a fill? -/
def groupComplete (s : State) (u : Nat) : Bool :=
  (groupUnits s u).all (fun e => decide (e.2.state = .committed) && sealDone s e.2) && decide (groupHoles s u = [])

/-- Fill one hole of a group with an internal unit of lines that are not VALID; charged at once, counted, recorded. -/
def fillHole (u : Nat) (s : State) (h : Nat × Nat) : State :=
  let d := unit s u
  let w := unitWl s d
  let pg := pageOf s (fBlun d.phys) w.1 w.2.1 h.2
  let f := fSetPage (fSetPlane d.phys h.1) pg
  let x : Led := { state := .committed, kind := .fill, target := fSetPage (fSetPlane d.target h.1) pg, phys := f, region := d.region,
                   charge := programKinds s d.region 1, ready := true }
  let s := modRidge s (u / 232) (fun r => { r with fills := r.fills ++ [x] })
  cairn (count (peakDemand s) 0x5000 0x05) 0x23 (cu 12 (fBlun f)) d.region 0 f 0 0 0

/-- R183: a group that has become complete takes its turn behind those that were complete before it. -/
def noteComplete (s : State) (u : Nat) : State :=
  if groupComplete s u ∧ (unit s u).turn = 0 then
    (groupUnits s u).foldl (fun s e => modUnit s e.1 (fun d => { d with turn := s.turns + 1 })) { s with turns := s.turns + 1 }
  else s

/-- Has the gap move of a LUN a position of a group still to copy? The pages of a move's wordline stand together (R46), so no fill takes
one (DEDUCED, log entry 28). -/
def moveOwes (s : State) (u : Nat) (h : Nat × Nat) : Bool :=
  let d := unit s u
  let w := unitWl s d
  decide (d.kind = .gapMove) && s.moves.any (fun m => decide (m.region = d.region) && decide (m.lun = fBlun d.phys) && decide (m.stage = 3)
    && decide (pageOf s m.lun w.1 w.2.1 h.2 ≤ m.last))

/-- Fill the holes of a group that pass a test (R195, R205). A position whose unit is OPEN is no hole. -/
def fillSome (s : State) (u : Nat) (p : Nat × Nat → Bool) : State :=
  noteComplete (((groupHoles s u).filter (fun h => p h && !moveOwes s u h)).foldl (fillHole u) s) u

/-- Fill every hole of a group (R195). -/
def fillGroup (s : State) (u : Nat) : State := fillSome s u (fun _ => true)

/-- Are the groups of a unit to be filled without waiting for WL_FILL_MS: while its region or its ridge drains, or in an orderly
shutdown (R41, R206, R369)? -/
def fillsAtOnce (s : State) (u : Nat) : Bool :=
  decide ((region s (unit s u).region).state = 2) || decide ((ridge s (u / 232)).svc = .draining) || decide (s.ao.pf = .shutdown)

/-- Move a unit to COMMITTED with its target mapped to a physical block (R43). -/
def toCommitted (s : State) (u : Nat) : State :=
  let s := modUnit s u (fun d => { d with state := .committed, phys := physOf s d.region d.target, since := s.ao.timeUs, commitDue := false })
  let s := modUnit s u (fun d => { d with fillUs := fillDue s u })
  if fillsAtOnce s u then fillGroup s u else s

/-- R183: is a complete group of the LUN, which may be programmed, earlier than the one of unit u? -/
def turnAhead (s : State) (u : Nat) : Bool :=
  let d := unit s u
  (unitsOf s (u / 232)).any (fun e => decide (e.2.state = .committed) && decide (fBlun e.2.phys = fBlun d.phys) && decide (0 < e.2.turn)
    && decide (e.2.turn < d.turn) && !(e.2.restored && decide ((region s e.2.region).state ≠ 1)))

/-- Fill the groups of the COMMITTED units that pass a test, at once (R41, R205, R206, R369). -/
def fillGroups (s : State) (p : Led → Bool) : State :=
  (s.units.entries.filter (fun e => decide (e.2.state = .committed) && p e.2)).foldl (fun s e => fillGroup s e.1) s

/-! ### Commits -/

/-- R192, R194: every write of a committed unit is in: its sealing starts, and its COMMIT frame goes down the chain. -/
def startSealing (s : State) (u : Nat) : State :=
  let d := unit s u
  let s := askKey (modUnit s u (fun d => { d with ready := true })) (u / 232) d.key
  let s := if d.kind = .host ∧ ¬ d.restored then sendDown s d.region 0x04 0 (handleOf s u) 0 0 [] else s
  if sealsHere s d then
    ((unitSectors d).filter (fun k => !d.sealedSec.contains k)).foldl (fun s k => gcmAdd s (u / 232) ⟨true, u, k, 0, 0, d.phys, [], 0, d.key, 0⟩) s
  else noteComplete s u

/-- Does a LINE_WRITE admitted before a commit wait in the hold store for the unit? -/
def heldWriter (s : State) (u : Nat) : Bool :=
  s.hold.any (fun h => decide (h.desc.q ≠ 0xFFFF) && decide (h.desc.source = 1) && decide (h.desc.op = 0x08) && decide (unitKey h.desc.handle = u))

/-- Once no LINE_WRITE is outstanding a committed unit goes on to its sealing. -/
def commitReady (s : State) (u : Nat) : State :=
  let d := unit s u
  if d.state = .committed ∧ ¬ d.ready ∧ d.writers = [] ∧ d.loading = 0 ∧ ¬ heldWriter s u then startSealing s u else s

/-- The block commits an OPEN unit as it stands, its charge raised at once (R41, R202); a unit on a logical block under move is
held until the move's end (R48). -/
def commitNow (s : State) (u : Nat) : State :=
  let d := unit s u
  if underMove s d.region d.target then modUnit s u (fun d => { d with commitDue := true })
  else commitReady (setCharge (toCommitted s u) u (programKinds s d.region (d.planesM1 + 1))) u

/-- A commit the block has held goes on, if it still can: no check, no data and no move before it (R48, R250). -/
def commitGo (s : State) (u : Nat) : State :=
  let d := unit s u
  if d.commitDue ∧ d.state = .opened ∧ ¬ d.reserved ∧ d.loading = 0 ∧ ¬ underMove s d.region d.target then
    let s := modUnit s u (fun d => { d with commitDue := false })
    if d.keyLost then toDone s u else commitNow s u
  else s

/-- A member's unit whose check 3 has passed: its frames are held and go on down the chain, and its commit, if it is due, goes on
(R246, R247, R250). -/
def memberGo (s : State) (u : Nat) : State :=
  let d := unit s u
  let l := (d.mkey.getD (0, 0)).1
  if d.reserved then s
  else commitGo (forwardLater (nowHeld (modUnit s u (fun d => { d with due := [] })) l d.due) l) u

/-- R405 code 0x24: a UNIT_CLOSED record. -/
def closedRecord (s : State) (u detail : Nat) : State :=
  let d := unit s u
  cairn s 0x24 (cu 2 (u / 232)) d.region detail d.target (handleOf s u).toNat 0 0

/-- R41, R206: close an OPEN unit: commit it, or end one whose lines a key erase took. A FAILED unit stays. -/
def closeUnit (s : State) (u : Nat) : State :=
  let d := unit s u
  if d.state ≠ .opened ∨ d.reserved ∨ d.loading ≠ 0 ∨ d.commitDue then s
  else if d.keyLost then toDone (closedRecord s u 3) u
  else if d.failed then s
  else commitNow (closedRecord s u 1) u

/-- A unit that becomes OPEN while its region or its ridge drains is closed like those that were (R41, R206). -/
def closeLate (s : State) (u : Nat) : State :=
  if (region s (unit s u).region).state = 2 ∨ (ridge s (u / 232)).svc = .draining then closeUnit s u else s

/-- Close every OPEN unit that passes a test. -/
def closeUnits (s : State) (p : Led → Bool) : State :=
  (s.units.entries.filter (fun e => p e.2)).foldl (fun s e => closeUnit s e.1) s

/-- A line not held is stored with VALID = 0 (R189): the line as the unit will program it. In a sealed region SEALED is
set. -/
def unitLine (s : State) (d : Led) (k : Nat) : BitVec 528 :=
  let l := d.lines.get 0 k
  if isSealed s d.region ∧ d.kind ≠ .copyback ∧ d.kind ≠ .gapMove then l ||| place 528 517 1 else l

/-- LINES_WRITTEN (R207): lines stored in a unit; the unwritten ones of a restored sealed sector are none. -/
def linesWritten (d : Led) : Nat := (((d.lines.entries.filter (fun e => lValid e.2)).length : Int) - d.surplus).toNat

/-- Does the unit hold the line? The key of a line held is listed even when its bytes are zero: META0 has VALID set. -/
def holdsLine (d : Led) (k : Nat) : Bool := d.lines.keys.contains k

end Sys2Proof.Machine
end

