-- ==== Sys2Proof/Machine/Gate.lean ====
section
/-! DEFINITION. The Gate: admission of fetched entries (R14, R67, R106, R107, R264), the hold store's releases (R16, R48,
R264), and what each opcode does when it is admitted. -/

namespace Sys2Proof.Machine

/-! ### Verdicts -/

/-- What the Gate decides of an entry: refused with a status, a fragment table to read first, held, short of energy, or
admitted with a charge. -/
inductive Verdict where
  | refuse (st : Status) (fpa : W64)
  | ask
  | hold (cause : HoldCause)
  | short
  | go (charge : Nat)
deriving DecidableEq, Repr

/-- Opcodes that bind a key in a ciphered region (R264). -/
def bindsKey (op : Nat) : Bool := isRead op || decide (op = 0x08) || decide (op = 0x0B)

/-- KEY_SLOT of a region. -/
def slotOf (s : State) (r : Nat) : Nat := rOd s r 0x0B

/-- R264: step 12 for an entry that binds, against its slot; one that has bound keeps its generation, unless a slot erase has taken
it (R265, R267). -/
def keyVerdict (s : State) (x : Ent) : Option Verdict :=
  let e := x.raw
  let r := eRegion e
  let k := slotOf s r
  let d := unit s (unitKey (eUnit e))
  if ¬ (bindsKey (eOpcode e) ∧ ciphered s r) then none
  else if eOpcode e ≠ 0x08 ∧ x.key ≠ none then
    match x.key with
    | some kg => if material s kg = none then some (.refuse ⟨0x20, kg.1, 0⟩ 0) else none
    | none => none
  else if eOpcode e = 0x08 ∧ d.key ≠ none then
    match d.key with
    | some kg => if d.keyLost ∨ material s kg = none then some (.refuse ⟨0x20, kg.1, 0⟩ 0) else none
    | none => none
  else match (keySlot s k).state with
    | .live | .reloading | .draining => none
    | .loading => some (.hold .keyLoading)
    | .empty => some (.refuse ⟨0x22, k, 1⟩ 0)
    | .failed => some (.refuse ⟨0x22, k, 2⟩ 0)
    | .erased => some (.refuse ⟨0x20, k, 0⟩ 0)

/-- The plane offset of a LINE_WRITE in its unit. -/
def writePlane (e : W512) (d : Led) : Nat := fPlane (eFpa e) - fPlane d.target

/-- Has the granule of a plane a line, or a LINE_WRITE on its way to it? -/
def granuleClaimed (s : State) (d : Led) (p : Nat) : Bool :=
  d.lines.keys.any (fun k => decide (k / 256 = p)) ||
  d.writers.any (fun w => match entOf s w.1 w.2 with
    | some x => decide (writePlane x.raw d = p)
    | none => false)

/-- R202: the charge an entry asks for at step 13. -/
def entryCharge (s : State) (e : W512) : Nat :=
  let op := eOpcode e
  let r := eRegion e
  let d := unit s (unitKey (eUnit e))
  if op = 0x08 then (if granuleClaimed s d (writePlane e d) then 0 else eRefuge s)
  else if op = 0x0A then (if d.failed ∨ d.keyLost then 0 else programCharge s r (d.planesM1 + 1) - costOf s d.charge)
  else if op = 0x0B ∨ op = 0x11 then programCharge s r (eNum e + 1)
  else if op ≥ 0x80 ∧ dLedger (dispatchOf s op) then (eNum e + 1) * eProgram s (rOd s r 0x06)
  else 0

/-- Does a gap move hold an entry (R48)? -/
def moveHolds (s : State) (e : W512) : Bool :=
  let op := eOpcode e
  if op = 0x0A then underMove s (eRegion e) (unit s (unitKey (eUnit e))).target
  else if op = 0x11 then underMove s (eRegion e) (eFpa e) || underMove s (eRegion e) (eTarget e)
  else if op = 0x08 ∨ op = 0x09 ∨ op = 0x0B ∨ op = 0x10 then underMove s (eRegion e) (eFpa e)
  else false

/-- Opcodes that push nothing until every FPA has passed step 7 (R107). -/
def writeLike (op : Nat) : Bool := decide (op = 0x08) || decide (op = 0x09) || decide (op = 0x0B) || decide (op = 0x11) || decide (op = 0x10)

/-- R376: does a write wait for its ridge's Ledge bank to be ready? DESIGN CHOICE (log entry 51): a read is no work for the bank, even one
that needs read staging there (R24, R29); the spec does not say. -/
def ledgeWaits (s : State) (e : W512) : Bool :=
  decide (eOpcode e ≠ 0x10) && !(ridge s (fRidge (if eOpcode e = 0x11 then eTarget e else eFpa e))).ledgeReady

/-- NOT_READY for a held address: unit kind and number by what is not ready, ridge before spur before Ledge bank (R110). -/
def notReady (s : State) (f : W64) (us : Nat) : Status :=
  let p := fSpur f
  let u := if (ridge s (p / 4)).svc ≠ .inService then 2 * 256 + p / 4
    else if (spur s p).svc ≠ .inService then 256 + p
    else 4 * 256 + p / 4
  ⟨0x40, u, sat (2 ^ 32 - 1) us⟩

/-- R258: the request a REPAIR_SERVE answers, and the link toward its requester; a push goes down. -/
def servedRequest (s : State) (e : W512) : Option RepReq :=
  s.col.table.find? (fun x => decide (x.id.toNat = eArg e) && decide (x.region = eRegion e) && decide (x.fpa = chainForm s (eRegion e) (eFpa e)))

/-- The link toward the requester: UP_LINK where it lies upstream. -/
def serveLink (s : State) (e : W512) : Nat :=
  if (servedRequest s e).any (fun x => decide (x.id.toNat / 2 ^ 29 < chainPos s (eRegion e))) then upLink s (eRegion e) else downLink s (eRegion e)

/-- R258: the fate of a REPAIR_SERVE before it reads: a status, a link that trains, or nothing against it. -/
def repairVerdict (s : State) (e : W512) : Option Verdict :=
  let r := eRegion e
  let id := eArg e
  if eOpcode e ≠ 0x19 then none
  else
    let push := decide (id = 0) && isOrigin s r && decide ((region s r).mirror = 1)
    if (servedRequest s e).isNone && !push then some (.refuse ⟨0x51, 2, id⟩ 0)
    else
      let l := serveLink s e
      let st := (link s l).state
      if st = 1 then some (.hold (.link l)) else if st ≠ 2 then some (.refuse ⟨0x51, 1, id⟩ 0) else none

/-- Does the Gate read a fragment table for an entry: one that moves data through it, or an integrator routine with FABRIC (R95, R300)?
The bytes of the latter are not checked (R93): with no FRAG_COUNT or address of R95 there is no table (DESIGN CHOICE, log entry 20). -/
def needsFrags (s : State) (e : W512) : Bool :=
  eIndirect e && (if eOpcode e < 0x80 then decide (xferLen e > 0)
    else dFabric (dispatchOf s (eOpcode e)) && decide (1 ≤ eFrag e) && decide (eFrag e ≤ 256) && decide (eAddr e % 16 = 0))

/-- R106 for an entry: the steps in order, the first that decides. One whose tracking pool place is lost is not admitted: it completes
INTERNAL (R420), unless it is a FENCE (R114). -/
def verdict (s : State) (x : Ent) : Verdict :=
  let e := x.raw
  if x.lost ∧ eOpcode e ≠ 0x20 then .refuse ⟨0xF0, 2, 0⟩ 0
  else match staticCheck s e with
  | some (st, f) => .refuse st f
  | none =>
    match addressCheck s e (decide (x.order ≠ none)) with
    | .bad st f => .refuse st f
    | av =>
      match roleCheck s e with
      | some st => .refuse st 0
      | none =>
        if needsFrags s e ∧ x.frags = none then .ask
        else match (if eOpcode e = 0x08 ∨ eOpcode e = 0x0A then unitCheck s e (decide (x.order ≠ none)) else none) with
          | some st => .refuse st 0
          | none =>
            match keyVerdict s x with
            | some v => v
            | none =>
              if writeLike (eOpcode e) ∧ (av = .deferred ∨ ledgeWaits s e) then .hold .unitNotReady
              else if moveHolds s e then .hold .gapMove
              else match repairVerdict s e with
                | some v => v
                | none => if covers s (entryCharge s e) then .go (entryCharge s e) else .short

/-! ### Admission -/

/-- R264, R265: a UNIT_OPEN takes the live generation of its region's slot at its admission, if there is one; its unit binds to that. -/
def bindOpen (s : State) (q i : Nat) (e : W512) : State :=
  let k := slotOf s (eRegion e)
  let g := (keySlot s k).gen
  if eOpcode e = 0x09 ∧ ciphered s (eRegion e) ∧ slotUsable (keySlot s k).state then
    addUser (modEnt s q i (fun x => { x with key := some (k, g) })) k g
  else s

/-- R75: give an entry its place in the admission order. -/
def takeOrder (s : State) (q i : Nat) : State :=
  match entOf s q i with
  | some e => if e.order ≠ none then s
    else bindOpen (modEnt { s with admitNo := s.admitNo + 1 } q i (fun e => { e with order := some s.admitNo })) q i e.raw
  | none => s

/-- An entry is refused: its status is final at once (R14, R69). -/
def refuseEntry (s : State) (q i : Nat) (st : Status) (fpa : W64) : State := finalise (takeOrder s q i) q i st fpa

/-- The generation an entry binds to: the one of its unit, or the live one of its region's slot (R264). -/
def bindTo (s : State) (e : W512) : Nat × Nat :=
  let live := (slotOf s (eRegion e), (keySlot s (slotOf s (eRegion e))).gen)
  if eOpcode e = 0x08 then (unit s (unitKey (eUnit e))).key.getD live else live

/-- Bind an entry that has passed step 12, once; a unit with no key binds with its first LINE_WRITE (R264). -/
def bindEntry (s : State) (q i : Nat) (e : W512) : State :=
  if ¬ (bindsKey (eOpcode e) ∧ ciphered s (eRegion e)) ∨ (entOf s q i).any (fun x => decide (x.key ≠ none)) then s
  else
    let kg := bindTo s e
    let u := unitKey (eUnit e)
    let fresh := decide (eOpcode e = 0x08) && decide ((unit s u).key = none)
    let s := addUser (modEnt s q i (fun x => { x with key := some kg })) kg.1 kg.2
    if fresh then addUser (modUnit s u (fun d => { d with key := some kg })) kg.1 kg.2 else s

/-- The descriptor an entry becomes, before its own fields. -/
def entryDesc (s : State) (q : Nat) (x : Ent) : Desc :=
  { op := eOpcode x.raw, cls := entryClass s x.raw, q := q, idx := x.idx, region := eRegion x.raw, flags := eFlags x.raw,
    named := eFpa x.raw, phys := physOf s (eRegion x.raw) (eFpa x.raw), key := x.key, link := serveLink s x.raw }

/-- Push the descriptors of an entry; it waits for all of them. -/
def pushEntry (s : State) (q i : Nat) (l : List Desc) : State :=
  pushAll (modEnt s q i (fun x => { x with left := l.length })) l

/-- Issue the next fabric read of a data transfer of len bytes of an entry, of which n have been asked: one request, cut at
fragment ends and 4,096-byte boundaries (R426). -/
def fragRoom : List (Nat × Nat) → Nat → Nat
  | [], _ => 4096
  | (_, len) :: r, n => if n < len then len - n else fragRoom r (n - len)

/-- The bytes of the next request at offset n. -/
def pieceLen (x : Ent) (len n : Nat) : Nat :=
  let a := dataAddr x n
  let room := match x.frags with
    | some l => fragRoom l n
    | none => len - n
  min (min room (len - n)) (4096 - a % 4096)

/-- Ask for the next write data of an entry. -/
def askData (s : State) (q : Nat) (x : Ent) : State :=
  let n := 64 * x.data.length
  if n < xferLen x.raw then
    fabIssue (modEnt s q x.idx (fun y => { y with io := y.io + 1 })) false (dataAddr x n) (pieceLen x (xferLen x.raw) n) [] (.wdata q x.idx)
  else s

/-- Ask for the next part of an entry's fragment table: the enclosing 64-byte blocks (R95, R426). -/
def askFrags (s : State) (q : Nat) (x : Ent) : State :=
  let a := eAddr x.raw
  let lo := a / 64 * 64
  let hi := (a + 16 * eFrag x.raw + 63) / 64 * 64
  let at_ := lo + 64 * x.data.length
  if at_ < hi then
    fabIssue (modEnt s q x.idx (fun y => { y with fragAsked := true })) false at_ (min (hi - at_) (4096 - at_ % 4096)) [] (.frag q x.idx)
  else s

/-- LINE_READ, SECTOR_READ, PAGE_READ, SCRUB_RANGE, REPAIR_SERVE, ERASE: one descriptor. -/
def admitPlain (s : State) (q : Nat) (x : Ent) (arg : Nat) : State :=
  pushEntry s q x.idx [{ entryDesc s q x with arg := arg }]

/-- The descriptors of a GATHER_LINE_READ: one for each LUN its slots touch, each with its slots in order (R115). -/
def gatherDescs (s : State) (q : Nat) (x : Ent) : List Desc :=
  let e := x.raw
  let slots := (List.range (eNum e + 1)).map (fun k => (k, physOf s (eRegion e) (eGather e k), eGather e k))
  let luns := (slots.map (fun y => fBlun y.2.2)).eraseDups
  luns.map (fun l =>
    let mine := slots.filter (fun y => decide (fBlun y.2.2 = l))
    match mine with
    | (_, p, n) :: _ => { entryDesc s q x with phys := p, named := n, lines := mine }
    | [] => entryDesc s q x)

/-- GATHER_LINE_READ (R99). -/
def admitGather (s : State) (q : Nat) (x : Ent) : State := pushEntry s q x.idx (gatherDescs s q x)

/-- The merge-source read of a LINE_WRITE: a descriptor of the entry's class, 2 but for DEMOTE (R91), on the spur that owns the
source (R185). -/
def mergeDesc (s : State) (q : Nat) (x : Ent) : Desc :=
  let e := x.raw
  { entryDesc s q x with named := eMerge e, phys := physOf s (eRegion e) (eMerge e), merge := eMerge e, mask := eMask e, handle := eUnit e }

/-- Ask for it. -/
def pushMerge (s : State) (q : Nat) (x : Ent) : State :=
  pushDesc (modEnt s q x.idx (fun y => { y with mergeAsked := true })) (mergeDesc s q x)

/-- Does a LINE_WRITE need its merge source (R186)? -/
def needsMerge (s : State) (e : W512) : Bool :=
  let d := unit s (unitKey (eUnit e))
  mergeLive e && !holdsLine d (writePlane e d * 256 + fLine (eFpa e))

/-- A writer's place among a unit's LINE_WRITEs, by admission number (R185), behind those whose number is not known any more. -/
def addWriter (s : State) (q i : Nat) (l : List (Nat × Nat)) : List (Nat × Nat) :=
  let num := fun w : Nat × Nat => ((entOf s w.1 w.2).bind (fun y => y.order)).getD 0
  l.takeWhile (fun w => decide (num w < num (q, i))) ++ (q, i) :: l.dropWhile (fun w => decide (num w < num (q, i)))

/-- LINE_WRITE (R185): the unit gains a writer, the data is read, and a merge source where R186 asks for one. -/
def admitLineWrite (s : State) (q : Nat) (x : Ent) : State :=
  let e := x.raw
  let u := unitKey (eUnit e)
  let more : Charge := if granuleClaimed s (unit s u) (writePlane e (unit s u)) then [] else [(.refuge, 1)]
  let s := peakDemand (modUnit s u (fun d => { d with writers := addWriter s q x.idx d.writers, charge := d.charge ++ more }))
  let s := askData (modEnt s q x.idx (fun y => { y with left := 1 })) q x
  if needsMerge s e then pushMerge s q x else s

/-- Bind a new unit to the live generation of its region's slot, if there is one (R184, R264). -/
def bindUnit (s : State) (u r : Nat) : State :=
  let k := slotOf s r
  if ciphered s r ∧ slotUsable (keySlot s k).state then
    addUser (modUnit s u (fun d => { d with key := some (k, (keySlot s k).gen) })) k (keySlot s k).gen
  else s

/-- OPEN_REFUSED counts cause 1 of UNIT_OPEN and PAGE_PROGRAM (R207). -/
def countRefused (s : State) (f : W64) (st : Status) : State := if st.detail = 1 then count s (0x5010 + fRidge f) 0x06 else s

/-- The unit of a UNIT_OPEN takes over the generation its entry bound at admission; where that has been erased since, the unit is KEY_LOST
(R184, R205, R264). -/
def takeKey (s : State) (q i u : Nat) : State :=
  match (entOf s q i).bind (fun x => x.key) with
  | some kg =>
    let s := modEnt s q i (fun x => { x with key := none })
    modUnit s u (fun d => { d with key := some kg, keyLost := decide (material s kg = none) })
  | none => s

/-- UNIT_OPEN (R182): checks 1 and 2 at admission, check 3 on the engine. -/
def admitUnitOpen (s : State) (q : Nat) (x : Ent) : State :=
  let e := x.raw
  let r := eRegion e
  match openRefusal s r (eFpa e) (eNum e) with
  | some st => finalise (countRefused s (eFpa e) st) q x.idx st 0
  | none =>
    let u := takeRecord s (fRidge (eFpa e))
    let s := takeKey (openUnit s u .host r (eFpa e) (eNum e) true) q x.idx u
    let s := sendDown s r 0x02 (fSetLine (eFpa e) 0) (handleOf s u) (eNum e) 0 []
    pushEntry s q x.idx [{ entryDesc s q x with handle := handleOf s u, arg := eNum e, key := none }]

/-- UNIT_COMMIT (R192): the unit moves to COMMITTED at once; a FAILED or KEY_LOST unit is released. The notice of such a release
carries the unit's target as its FPA: DESIGN CHOICE, the entry has no FPA and runs no descriptor, and R78 does not say what stands
there (log entry 26). -/
def admitUnitCommit (s : State) (q : Nat) (x : Ent) : State :=
  let u := unitKey (eUnit x.raw)
  let d := unit s u
  if d.keyLost then finalise (toDone s u) q x.idx ⟨0x20, (d.key.getD (slotOf s d.region, 0)).1, 0⟩ d.target
  else if d.failed then finalise (toDone s u) q x.idx Status.ok d.target
  else
    let s := setCharge (toCommitted s u) u (programKinds s d.region (d.planesM1 + 1))
    modEnt (modUnit s u (fun d => { d with commit := some (q, x.idx), cls := entryClass s x.raw })) q x.idx (fun y => { y with left := 1 })

/-- PAGE_PROGRAM (R197): an internal unit, its data read at once, check 3 on the engine. -/
def admitPageProgram (s : State) (q : Nat) (x : Ent) : State :=
  let e := x.raw
  let r := eRegion e
  match openRefusal s r (eFpa e) (eNum e) with
  | some st => finalise (countRefused s (eFpa e) st) q x.idx st 0
  | none =>
    let u := takeRecord s (fRidge (eFpa e))
    let s := openUnit s u .pageProgram r (eFpa e) (eNum e) true
    let s := match x.key with
      | some (k, g) => addUser (modUnit s u (fun d => { d with key := some (k, g) })) k g
      | none => s
    let base := if eOwnTweak e then eTweak e else tweakForm s r (eFpa e)
    let s := peakDemand (modUnit s u (fun d =>
      { d with charge := programKinds s r (eNum e + 1), commit := some (q, x.idx), cls := entryClass s e, base := some base, loading := 1 }))
    pushEntry (askData s q x) q x.idx [{ entryDesc s q x with handle := handleOf s u, arg := eNum e }]

/-- COPYBACK (R225): an internal unit on the target, the source read as a class 2 descriptor. -/
def admitCopyback (s : State) (q : Nat) (x : Ent) : State :=
  let e := x.raw
  let r := eRegion e
  match openRefusal s r (eTarget e) (eNum e) with
  | some st => finalise s q x.idx st 0
  | none =>
    let u := takeRecord s (fRidge (eTarget e))
    let s := openUnit s u .copyback r (eTarget e) (eNum e) true
    let s := peakDemand (modUnit s u (fun d =>
      { d with charge := programKinds s r (eNum e + 1), commit := some (q, x.idx), cls := entryClass s e, loading := 1, copied := true }))
    let s := sendDown s r 0x08 (eFpa e) 0 (eNum e) ((eTarget e).setWidth 1024 <<< 192) []
    pushEntry s q x.idx [{ entryDesc s q x with target := eTarget e, targetPhys := physOf s r (eTarget e), handle := handleOf s u,
                                                  arg := eNum e }]

/-- ERASE (R208): one class 3 descriptor; its frame goes down the chain at admission. -/
def admitErase (s : State) (q : Nat) (x : Ent) : State :=
  let e := x.raw
  admitPlain (sendDown s (eRegion e) 0x07 (eFpa e) 0 (eNum e) 0 []) q x (eNum e)

/-- DIE_FEATURE (R348): feature, sub-operation and parameters ride with the descriptor. -/
def admitFeature (s : State) (q : Nat) (x : Ent) : State :=
  pushEntry s q x.idx [{ entryDesc s q x with arg := (eParams x.raw).toNat, body := x.raw.extractLsb' 128 320 }]

/-- An integrator opcode: bytes 16 to 55 pass unchecked (R93); its charge rides with it (R356). -/
def admitIntegrator (s : State) (q : Nat) (x : Ent) : State :=
  let c : Charge := if dLedger (dispatchOf s (eOpcode x.raw)) then [(.program (rOd s (eRegion x.raw) 0x06), eNum x.raw + 1)] else []
  pushEntry s q x.idx [{ entryDesc s q x with body := x.raw.extractLsb' 128 320, charge := c }]

/-- R254: an entry of an origin admitted while its region does not mirror is never framed. -/
def noteUnframed (s : State) (q i r : Nat) : State :=
  if isOrigin s r ∧ ¬ mirrorOn s r then modEnt s q i (fun e => { e with unframed := true }) else s

/-- Carry out the admission of an entry that has passed every step. -/
def perform (s : State) (q i : Nat) (charge : Nat) : State :=
  match entOf s q i with
  | none => s
  | some x =>
    let s := noteUnframed (bindEntry (spend (takeOrder s q i) charge) q i x.raw) q i (eRegion x.raw)
    match entOf s q i with
    | none => s
    | some x =>
      let op := eOpcode x.raw
      if op = 0x04 then admitGather s q x
      else if op = 0x08 then admitLineWrite s q x
      else if op = 0x09 then admitUnitOpen s q x
      else if op = 0x0A then admitUnitCommit s q x
      else if op = 0x0B then admitPageProgram s q x
      else if op = 0x10 then admitErase s q x
      else if op = 0x11 then admitCopyback s q x
      else if op = 0x20 then s
      else if op = 0x30 then admitFeature s q x
      else if op ≥ 0x80 then admitIntegrator s q x
      else admitPlain s q x (eArg x.raw)

/-- The stand-in of a held entry in the hold store: the whole entry waits, no descriptor of it is formed. -/
def heldEntry (s : State) (q : Nat) (x : Ent) : Desc := { entryDesc s q x with source := 1, handle := eUnit x.raw }

/-- R27: an entry is refused for want of energy: counted, and its queue stalls. -/
def ledgerStall (s : State) (q : Nat) : State := modQueue (deny s) q (fun x => { x with stalledLedger := true })

/-- R27: does a refused write stall a queue: its front entry, or one that left the hold store for want of a unit or a move only to be
refused for energy? An entry that waited for its key stalls nothing (R264). -/
def ledgerStalled (s : State) (q : Nat) : Bool :=
  (queue s q).stalledLedger || s.hold.any (fun h => decide (h.cause = .ledgerStalls) && decide (h.desc.q = q))

/-- The descriptors an entry's admission pushes at once. -/
def formed (s : State) (x : Ent) : List Desc :=
  let op := eOpcode x.raw
  if op = 0x0A ∨ op = 0x20 then []
  else if op = 0x04 then gatherDescs s 0 x
  else if op = 0x08 then (if needsMerge s x.raw then [mergeDesc s 0 x] else [])
  else [entryDesc s 0 x]

/-- The places in the hold store an entry's admission takes (R17): one for a held entry, one for each descriptor that its spur
or its class does not take. -/
def holdNeed (s : State) (x : Ent) : Nat :=
  match verdict s x with
  | .hold _ => 1
  | .go _ => (pushAll s (formed s x)).hold.length - s.hold.length
  | _ => 0

/-- Has the hold store room for all of them? -/
def holdFits (s : State) (x : Ent) : Bool := decide (holdNeed s x = 0) || decide (holdUsed s + holdNeed s x ≤ 4096)

/-- An entry that is held behind step 12 has bound; one held for its key has not (R264, R265). -/
def holdBound (s : State) (q : Nat) (x : Ent) (c : HoldCause) : State := if c = .keyLoading then s else bindEntry s q x.idx x.raw

/-- Judge the front entry of a queue and carry the verdict out; it stays in front while the hold store has no room for it. -/
def admitEnt (s : State) (q : Nat) (x : Ent) : State :=
  if ¬ holdFits s x then s else
  match verdict s x with
  | .refuse st f => refuseEntry s q x.idx st f
  | .ask => if x.fragAsked then s else askFrags s q x
  | .hold c => hold (holdBound (takeOrder s q x.idx) q x c) c (heldEntry s q x)
  | .short => ledgerStall s q
  | .go c => perform s q x.idx c

/-- May the Gate take an entry from a queue: no fence of it waits (R76), no refused write stalls it (R27), the rail has not failed
(R366)? -/
def mayAdmit (s : State) (q : Nat) : Bool :=
  let x := queue s q
  !fenceWaits x && !ledgerStalled s q && decide (s.ao.pf ≠ .sequence) && decide (s.ao.pf ≠ .halted)

/-- The front entry is refused, or its fragment table asked for: what needs no opcode row. -/
def passive : Verdict → Bool
  | .refuse _ _ => true
  | .ask => true
  | _ => false

/-- Refuse failing entries at the front of a queue, in index order, by fuel. -/
def refuseLoop (s : State) (q : Nat) : Nat → State
  | 0 => s
  | k + 1 =>
    match frontEnt (queue s q) with
    | some x =>
      if x.arrived ∧ mayAdmit s q ∧ passive (verdict s x) ∧ ¬ (verdict s x = .ask ∧ x.fragAsked) then refuseLoop (admitEnt s q x) q k else s
    | none => s

/-- Admit the front entry of a queue when it passes a test, then go on to the refusals behind it. -/
def admitRow (p : W512 → Bool) (q : Nat) (s : State) : State :=
  match frontEnt (queue s q) with
  | some x =>
    if x.arrived ∧ p x.raw ∧ mayAdmit s q then refuseLoop (admitEnt s q x) q (queue s q).ents.length else s
  | none => s

/-! ### Releases from the hold store -/

/-- A held descriptor's deferred checks run once its spur is ready (R107). -/
def deferredFault (s : State) (d : Desc) : Option Status :=
  if d.q = 0xFFFF then none
  else match entOf s d.q d.idx with
    | none => none
    | some x =>
      match firstVerdict ((entryFpas x.raw).map (fun y => if spurReady s (fSpur y.2) then checkFpa s x.raw y.1 y.2 else .good)) with
      | .bad st _ => some st
      | _ => none

/-- What a held entry waits for when its energy is short: one that waited for its key stalls no queue (R264), another stalls its own
(R27). -/
def shortCause (c : HoldCause) : HoldCause := if c = .keyLoading ∨ c = .ledger then .ledger else .ledgerStalls

/-- Has the hold store room for what a held entry turns into, with its own place free again (R17)? -/
def leavesFit (s : State) (x : Ent) : Bool := decide (holdUsed s + holdNeed s x ≤ 4097)

/-- Try a held descriptor again: a held entry is judged afresh, a descriptor whose spur is ready is checked and pushed. DESIGN CHOICE (log
entry 51): an entry whose descriptors do not all find room in the store stays held with its cause, and so with that cause's timeout.
For a GATHER_LINE_READ whose key has come R17 does not say which it waits for. -/
def retryHeld (s : State) (h : Held) : State :=
  if h.desc.q ≠ 0xFFFF ∧ h.desc.source = 1 then
    match entOf s h.desc.q h.desc.idx with
    | none => unhold s h.id
    | some x =>
      if x.fin ≠ none then unhold s h.id
      else match verdict s x with
        | .refuse st f => finalise (unhold s h.id) h.desc.q x.idx st f
        | .ask => s
        | .hold c => rehold (holdBound s h.desc.q x c) h.id c
        | .short => rehold (deny (bindEntry s h.desc.q x.idx x.raw)) h.id (shortCause h.cause)
        | .go c => if leavesFit s x then perform (unhold s h.id) h.desc.q x.idx c else s
  else if ¬ spurReady s (fSpur h.desc.named) then s
  else match deferredFault s h.desc with
    | some st => reportDesc (unhold s h.id) h.desc st
    | none => pushHeld s h

/-- Try every held descriptor with a cause, in arrival order. Once the power-fail sequence has begun held entries stay held
(R365). -/
def releaseHeld (s : State) (p : HoldCause → Bool) : State :=
  if railDown s then s else (s.hold.filter (fun h => p h.cause)).foldl retryHeld s

/-- R48: entries and commits held for a gap move go on with S and G as they stand. -/
def releaseMoves (s : State) : State :=
  let s := releaseHeld s (fun c => decide (c = .gapMove))
  s.units.entries.foldl (fun s e => if railDown s then s else commitGo s e.1) s

/-! ### The rows -/

/-- LINE_READ (R115): admitted as one class 0 descriptor. -/
def execLineRead (q : Nat) (s : State) : Host.Outcome State Fault Refusal := gate s (admitRow (fun e => eOpcode e = 0x01) q s)
/-- SECTOR_READ (R129). -/
def execSectorRead (q : Nat) (s : State) : Host.Outcome State Fault Refusal := gate s (admitRow (fun e => eOpcode e = 0x02) q s)
/-- PAGE_READ (R129). -/
def execPageRead (q : Nat) (s : State) : Host.Outcome State Fault Refusal := gate s (admitRow (fun e => eOpcode e = 0x03) q s)
/-- GATHER_LINE_READ (R99). -/
def execGatherLineRead (q : Nat) (s : State) : Host.Outcome State Fault Refusal := gate s (admitRow (fun e => eOpcode e = 0x04) q s)
/-- LINE_WRITE (R185). -/
def execLineWrite (q : Nat) (s : State) : Host.Outcome State Fault Refusal := gate s (admitRow (fun e => eOpcode e = 0x08) q s)
/-- UNIT_OPEN (R182). -/
def execUnitOpen (q : Nat) (s : State) : Host.Outcome State Fault Refusal := gate s (admitRow (fun e => eOpcode e = 0x09) q s)
/-- UNIT_COMMIT (R192). -/
def execUnitCommit (q : Nat) (s : State) : Host.Outcome State Fault Refusal := gate s (admitRow (fun e => eOpcode e = 0x0A) q s)
/-- PAGE_PROGRAM (R197). -/
def execPageProgram (q : Nat) (s : State) : Host.Outcome State Fault Refusal := gate s (admitRow (fun e => eOpcode e = 0x0B) q s)
/-- ERASE (R208). -/
def execErase (q : Nat) (s : State) : Host.Outcome State Fault Refusal := gate s (admitRow (fun e => eOpcode e = 0x10) q s)
/-- COPYBACK (R225). -/
def execCopyback (q : Nat) (s : State) : Host.Outcome State Fault Refusal := gate s (admitRow (fun e => eOpcode e = 0x11) q s)
/-- SCRUB_RANGE (R233). -/
def execScrubRange (q : Nat) (s : State) : Host.Outcome State Fault Refusal := gate s (admitRow (fun e => eOpcode e = 0x18) q s)
/-- REPAIR_SERVE (R258). -/
def execRepairServe (q : Nat) (s : State) : Host.Outcome State Fault Refusal := gate s (admitRow (fun e => eOpcode e = 0x19) q s)
/-- FENCE (R75): admitted; its queue is not eligible until it completes (R76). -/
def execFence (q : Nat) (s : State) : Host.Outcome State Fault Refusal := gate s (admitRow (fun e => eOpcode e = 0x20) q s)
/-- An integrator opcode (R93). -/
def execIntegratorOpcode (q : Nat) (s : State) : Host.Outcome State Fault Refusal := gate s (admitRow (fun e => decide (eOpcode e ≥ 0x80)) q s)

/-- FENCE_COMPLETE (R75): the condition of the queue's waiting fence holds; it completes OK. -/
def execFenceComplete (q : Nat) (s : State) : Host.Outcome State Fault Refusal :=
  gate s (match waitingFence (queue s q) with
    | some e => if fenceMet s q e then refuseLoop (finalise s q e.idx Status.ok 0) q (queue s q).ents.length else s
    | none => s)

/-- R67: the entries of a returned fetch read are stored. -/
def storeEntries (s : State) (q rd : Nat) (data : List W512) : State :=
  modQueue s q (fun x =>
    let first := x.ents.findIdx (fun e => e.rd = rd)
    { x with ents := x.ents.mapIdx (fun i e =>
      if e.rd = rd then { e with arrived := true, raw := data.getD (i - first) 0 } else e) })

/-- R67: a fetch read failed: its entries and those of every later read leave the queue, FETCH is set back, and a RUNNING
queue halts. Entries already admitted stay: only earlier reads have been admitted. -/
def fetchFault (s : State) (q rd addr : Nat) : State :=
  let x := queue s q
  let back := match x.ents.find? (fun e => e.rd = rd) with
    | some e => e.idx
    | none => x.fetch
  let drop := fun p : Purpose => match p with
    | .fetch q' rd' => decide (q' = q) && decide (rd' ≥ rd)
    | _ => false
  let s := modQueue (orphan s drop) q (fun x =>
    { x with ents := x.ents.filter (fun e => decide (e.rd < rd) || decide (e.order ≠ none)), fetch := back })
  let s := setQerr s q qerrFetch
  if x.state = .running then haltQueue s q 2 addr else s

/-- The answer to a fetch read (R67). -/
def fetchAnswer (s : State) (r : FabReq) (q rd : Nat) (err : Bool) (data : List W512) : State :=
  let s := fabTake s r err
  if err then fetchFault s q rd r.addr
  else refuseLoop (storeEntries s q rd data) q (queue s q).ents.length

/-- ENTRY_FETCH_RESPONSE (R67): the entries of the read are taken, and the Gate checks in index order; an entry that passes
goes on by the row of its opcode. -/
def execEntryFetchResponse (tag : Nat) (err : Bool) (data : List W512) (s : State) : Host.Outcome State Fault Refusal :=
  gate s (match reqOf s tag with
    | none => lateTag s
    | some r => match r.purpose with
      | .fetch q rd => fetchAnswer s r q rd err data
      | .stale => fabTake s r err
      | _ => s)

/-- HOLD_TIMEOUT (R16): held descriptor n reaches the bring-up timeout. NOT_READY for a unit, KEY_UNAVAILABLE cause 3 for a
LOADING slot, and no timeout for work the block creates, a gap move, room in a class, or energy. A held patrol read gives
its step up (R232). -/
def execHoldTimeout (n : Nat) (s : State) : Host.Outcome State Fault Refusal :=
  gate s (match s.hold.find? (fun h => h.id = n) with
    | none => s
    | some h =>
      let d := h.desc
      let us := s.ao.timeUs - h.since
      if us < od s 0x7100 0x01 * 1000 then s
      else if d.q = 0xFFFF then
        (if d.op = 0x40 ∧ h.cause = .unitNotReady then scrubTimeout (unhold s n) d.region else s)
      else match h.cause with
        | .unitNotReady =>
          let f := match entOf s d.q d.idx with
            | some x => ((entryFpas x.raw).find? (fun y => decide (d.source = 1) && !spurReady s (fSpur y.2))).elim d.named (fun y => y.2)
            | none => d.named
          let st := notReady s f us
          if d.source = 1 then finalise (unhold s n) d.q d.idx st 0 else reportDesc (unhold s n) d st
        | .keyLoading => finalise (unhold s n) d.q d.idx ⟨0x22, slotOf s d.region, 3⟩ 0
        | .link l => finalise (unhold s n) d.q d.idx ⟨0x40, 6 * 256 + l, sat (2 ^ 32 - 1) us⟩ 0
        | .gapMove | .ledger | .ledgerStalls | .screeFull => s)

end Sys2Proof.Machine
end

