-- ==== Sys2Proof/Machine/Deliver.lean ====
section
/-! DEFINITION. Delivery of lines to a read descriptor (R147, R225, R186): the poison map (R171 to R174), the rules of R147,
deciphering (R275 to R283), and the end of a descriptor. -/

namespace Sys2Proof.Machine

/-! ### Poison map (R172 to R174) -/

/-- The key of a page in the poison map: its tweak form, line zero. -/
def poisonKey (s : State) (r : Nat) (f : W64) : W64 := tweakForm s r f

/-- The mask of lines a map holds for a page; all clear where none. -/
def poisonMask (s : State) (r : Nat) (f : W64) : BitVec 256 :=
  let k := poisonKey s r f
  ((ridge s (fRidge f)).poison.entries.findSome? (fun e => if e.2.used ∧ e.2.fpa = k then some e.2.mask else none)).getD 0

/-- The place a page takes: its own, or the lowest free of 256. DESIGN CHOICE (log entry 26): the spec does not say which free place a
new page takes. -/
def poisonPlace (s : State) (rg : Nat) (k : W64) : Option Nat :=
  let m := (ridge s rg).poison
  match m.entries.find? (fun e => e.2.used ∧ e.2.fpa = k) with
  | some e => some e.1
  | none => (List.range 256).find? (fun i => !(m.get {} i).used)

/-- POISON_USED. -/
def poisonUsed (s : State) (rg : Nat) : Nat := ((ridge s rg).poison.entries.filter (fun e => e.2.used)).length

/-- R173, R174: enter lines of a page, with a Cairn record; refused when the map is full. The record names the page as it is given: as
the entry named it, physical for autonomous work (R43). -/
def poisonInsert (s : State) (r : Nat) (f : W64) (mask : BitVec 256) (source : Nat) : State :=
  let rg := fRidge f
  let k := poisonKey s r f
  let rec1 (s : State) (refused : Nat) : State := cairn s 0x20 (cu 12 (fBlun f)) r (source * 2 + refused) (fSetLine f 0) (popCount mask) 0 0
  match poisonPlace s rg k with
  | some i =>
    rec1 (modRidge s rg (fun x => { x with poison := x.poison.modify {} i (fun e =>
      { used := true, fpa := k, mask := (if e.used then e.mask else 0) ||| mask, source := source }) })) 0
  | none => rec1 (count s (0x2110 + rg) 0x0E) 1

/-- R174: an erase of a block removes the entries of its pages on the erased planes. -/
def poisonErase (s : State) (r : Nat) (f : W64) (plane : Nat) : State :=
  let k := poisonKey s r (fSetPlane f plane)
  modRidge s (fRidge f) (fun x => { x with poison := { entries := x.poison.entries.filter (fun e =>
    !(e.2.used && decide (fT e.2.fpa = fT k) && decide (fBlun e.2.fpa = fBlun k) && decide (fBlock e.2.fpa = fBlock k)
      && decide (fPlane e.2.fpa = plane))) } })

/-! ### What a line is -/

/-- What the codes made of a line. -/
inductive LineRes where
  /-- a decoded line, the bits the inner code corrected in it, and whether the page code gave it -/
  | line (l : BitVec 528) (bits : Nat) (outer : Bool)
  /-- an erased slot of a page without a valid header -/
  | blank
  /-- it failed the whole ladder; the line as far as recovered -/
  | lost
  /-- the poison map names it -/
  | mapped
deriving DecidableEq, Repr

/-- The 528 bits a copy holds of a line: as it is stored (R46, R188, R197, R242), and for COPYBACK zero data where it is not VALID
(R225). A line of a sealed sector is never changed: its ciphertext and META1 stand under the sector's tag (R143). -/
def copyLine (op : Nat) (recovered : W512) (x : LineRes) : BitVec 528 :=
  match x with
  | .line l _ _ => if decide (op = 0x11) && !lValid l && !lPoison l && !lSealed l then l &&& place 528 512 0xFFFF else l
  | .blank => 0
  | .lost => mkLine recovered true true false 0 0
  | .mapped => mkLine 0 true true false 0 0

/-- R172, R276: the tweak form of a page of a descriptor, which it carries from the Gate. -/
def descForm (s : State) (d : Desc) (f : W64) : W64 :=
  match d.forms.find? (fun e => decide (e.1 = fSetPlane (fSetLine f 0) 0)) with
  | some e => fSetPlane e.2 (fPlane f)
  | none => tweakForm s d.region f

/-- The data unit number of a line of a descriptor (R276): its tweak base on the plane, plus the line. -/
def descDu (s : State) (d : Desc) (w : Want) : W64 :=
  let own := d.q ≠ 0xFFFF ∧ d.flags.testBit 5 ∧ isRead d.op
  let base := if own then
      (match entOf s d.q d.idx with
       | some x => eTweak x.raw + BitVec.ofNat 64 ((w.plane - fPlane (eFpa x.raw)) * 2 ^ 49)
       | none => 0)
    else descForm s d w.named
  base + BitVec.ofNat 64 (w.line * 4096)

/-- Does a line come before every one noted so far: the first failing line is the lowest by plane and line. The spec does not say how
GATHER_LINE_READ's lines on several pages are ordered: DESIGN CHOICE, log entry 26. -/
def firstLine (w : Want) (n line plane : Nat) : Bool := decide (n = 0) || decide (w.plane * 256 + w.line < plane * 256 + line)

/-- A poisoned line: bit 0 a stored poison bit, bit 1 a map entry (R110). -/
def accPoison (a : Acc) (w : Want) (bit : Nat) : Acc :=
  let first := firstLine w a.pois a.poisLine a.poisPlane
  { a with pois := a.pois + 1, poisBits := a.poisBits ||| bit, poisLine := if first then w.line else a.poisLine,
           poisPlane := if first then w.plane else a.poisPlane }

/-- Add one line's outcome to the accumulator (R109, R110). A line that is not VALID is OK whatever its decoding took (R147). -/
def accLine (a : Acc) (w : Want) (x : LineRes) : Acc :=
  match x with
  | .line l bits outer =>
    let k := if outer then 1 else 0
    let a := { a with gBits := max a.gBits bits, gErasures := a.gErasures + k }
    if lPoison l then accPoison a w 1
    else if lValid l then { a with maxBits := max a.maxBits bits, bits := a.bits + bits, erasures := a.erasures + k }
    else a
  | .blank => a
  | .lost =>
    let first := firstLine w a.unc a.uncLine a.uncPlane
    { a with unc := a.unc + 1, uncLine := if first then w.line else a.uncLine, uncPlane := if first then w.plane else a.uncPlane }
  | .mapped => accPoison a w 2

/-- The plaintext of a line by rules 1 to 6 of R147, given how rule 6 deciphers. -/
def linePlain (x : LineRes) (line : Nat) (f : W512 → W512) : W512 :=
  match x with
  | .mapped => poisonPattern 3 line
  | .blank => 0
  | .lost => poisonPattern 1 line
  | .line l _ _ => if lPoison l then poisonPattern 2 line else if lValid l then f (lData l) else 0

/-- R267, R282 reason 1: is the bound key gone? -/
def keyGone (s : State) (d : Desc) : Bool :=
  match d.key with
  | some kg => decide (material s kg = none)
  | none => false

/-- R298: the bit of a line in the delivery mask, plane-major. The slots of a GATHER_LINE_READ, which may name one line twice or equal
lines of several pages, have a bit each (log entry 26). -/
def maskBit (d : Desc) (w : Want) : Nat := if d.op = 0x04 then w.dst / 64 else w.plane * 256 + w.line

/-- R300: does a routine's line go out on the fabric port: FABRIC is set, and the line lies within the fragments there are? A shipped
routine's always does. -/
def fabricMoves (s : State) (d : Desc) (x : Ent) (n : Nat) : Bool :=
  decide (d.op < 0x80) || (dFabric (dispatchOf s d.op) && (match x.frags with
    | some l => decide (n + 64 ≤ l.foldl (fun a f => a + f.2) 0)
    | none => true))

/-- Issue the fabric write of a delivered line, once for each line (R97, R298), in its descriptor's class (R25); a line that is not
asked for goes nowhere, a merge source's to read staging alone (R185). Once the bound key is gone every line goes out as poison,
which does not count as delivered (R267, R110). -/
def writeLine (s : State) (p c : Nat) (w : Want) (d : W512) : State :=
  let x := (ctxOf s p c).desc
  if w.dst ≥ 2 ^ 24 ∨ x.q = 0xFFFF ∨ x.op = 0x08 ∨ (ctxOf s p c).mask.contains (maskBit x w) then s
  else match entOf s x.q x.idx with
    | some e =>
      if ¬ fabricMoves s x e w.dst then s else
      let gone := keyGone s x
      let s := modCtx s p c (fun y =>
        { y with mask := y.mask ++ [maskBit x w],
                 acc := { y.acc with delivered := y.acc.delivered + (if gone then 0 else 1), keyErased := y.acc.keyErased || gone } })
      fabIssueAt (modEnt s x.q x.idx (fun e => { e with io := e.io + 1 })) x.cls true (dataAddr e w.dst) 64
        [if gone then poisonPattern 5 w.line else d] (.rdata x.q x.idx)
    | none => s

/-- Is the descriptor a read that deciphers: a read opcode or a merge source in a ciphered region? -/
def deciphers (s : State) (d : Desc) : Bool := ciphered s d.region && (isRead d.op || decide (d.op = 0x08))

/-- Does it verify sealed sectors (R131, R187)? -/
def verifies (s : State) (d : Desc) : Bool := isSealed s d.region && (isRead d.op || decide (d.op = 0x08))

/-- Opcodes whose lines are collected as stored: COPYBACK, REPAIR_SERVE, gap moves. -/
def collects (op : Nat) : Bool := decide (op = 0x11) || decide (op = 0x19) || decide (op = 0x41)

/-- The key of a line in a context's collections: bits [63:12] of its physical FPA. -/
def Want.key (w : Want) : Nat := w.fpa.toNat / 4096
/-- The line of a key. -/
def keyLine (k : Nat) : Nat := k % 256
/-- The page key of a line key. -/
def keyPage (k : Nat) : Nat := k / 256
/-- The physical FPA of a line key. -/
def keyFpa (k : Nat) : W64 := BitVec.ofNat 64 (k * 4096)
/-- The page key of an address. -/
def pageKey (f : W64) : Nat := f.toNat / 2 ^ 20

/-- The key of a line's sector. -/
def Want.sector (w : Want) : Nat := w.key / 64

/-- A want is met: off a context's list. -/
def dropWant (s : State) (p c : Nat) (w : Want) : State :=
  modCtx s p c (fun x => { x with wants := x.wants.filter (fun y => y ≠ w), had := if x.had.contains w then x.had else x.had ++ [w] })

/-- R185: the merge source of a LINE_WRITE has been read. -/
def mergeDone (s : State) (d : Desc) (kind : Nat) (l : BitVec 528) (st : Status) : State :=
  if d.q = 0xFFFF then s else modEnt s d.q d.idx (fun e => { e with mergeRes := some (kind, l, st) })

/-- R276: the data unit number of a line of a plane, from a routine's tweak base on the first plane of its entry. -/
def literalDu (x : Ctx) (plane line : Nat) : W64 :=
  x.tweak + BitVec.ofNat 64 ((plane - fPlane x.desc.phys) * 2 ^ 49 + line * 4096)

/-- The data unit number of the first line of a line's sector: derived, or from a routine's tweak base (R276, R293). -/
def sectorDu (s : State) (p c : Nat) (w : Want) : W64 :=
  let x := ctxOf s p c
  if x.desc.op ≥ 0x80 then literalDu x w.plane (w.line / 64 * 64) else descDu s x.desc { w with line := w.line / 64 * 64 }

/-- The lines of a sector a context holds for the tag. -/
def heldOf (x : Ctx) (k : Nat) : List (Want × W512) := x.sealedHold.filter (fun y => decide (y.1.sector = k))

/-- A sector leaves the staging of its context. -/
def dropSector (s : State) (p c k : Nat) : State :=
  modCtx s p c (fun y => { y with sealedHold := y.sealedHold.filter (fun z => z.1.sector ≠ k), lines := y.lines.filter (fun z => z.1 / 64 ≠ k) })

/-- The held lines of a sector go out: a merge source's as the line as stored, lines being those of its sector, says. -/
def passSector (s : State) (p c k : Nat) (lines : List (Nat × BitVec 528)) : State :=
  let x := ctxOf s p c
  (heldOf x k).foldl (fun s y =>
    if x.desc.op = 0x08 then
      let l := ((lines.find? (fun z => z.1 = y.1.key)).map (fun z => z.2)).getD 0
      mergeDone s x.desc (if lValid l then 1 else 2) (mkLine y.2 true false false (lWgen l) 0) Status.ok
    else writeLine s p c y.1 y.2) (dropSector s p c k)

/-- R267: the key of a sector is gone: its held lines go out as poison, and count as no delivery. -/
def loseSector (s : State) (p c k : Nat) : State :=
  let x := ctxOf s p c
  if x.desc.op = 0x08 then mergeDone (dropSector s p c k) x.desc 4 0 Status.ok
  else
    let s := (heldOf x k).foldl (fun s y => writeLine s p c y.1 (poisonPattern 5 y.1.line)) (dropSector s p c k)
    modCtx s p c (fun y => { y with acc := { y.acc with keyErased := true, delivered := x.acc.delivered } })

/-- Give a sealed sector to a GCM engine once every one of its lines is known (R281). A sector all erased in a page without a valid header is
not checked and delivers zeros (R143); one whose key has gone before its lines were complete is not verified (R267, R285). -/
def sealCheck (s : State) (p c : Nat) (w : Want) : State :=
  let x := ctxOf s p c
  let k := w.sector
  let rest := x.wants.any (fun w => decide (w.sector = k))
  let have_ := x.lines.filter (fun l => decide (l.1 / 64 = k))
  if rest ∨ have_.length < 64 then s
  else
    let bad := (x.sealBad.find? (fun b => b.1 = k)).elim 0 (fun b => b.2)
    if bad = 0 ∧ have_.all (fun l => decide (l.2 = 0)) then passSector s p c k have_
    else if keyGone s x.desc then loseSector s p c k
    else
      gcmAdd (modCtx s p c (fun y => { y with gcmOut := y.gcmOut + 1 })) (p / 4)
        ⟨false, 0, k, p, c, fSetLine w.named 0, have_, bad, x.desc.key, sectorDu s p c w⟩

/-- A line of a sealed sector is known: kept for the tag check; streamed at once in SEALED_STREAM (R283). Lines that rules 1
to 4 poison are written as poison. -/
def sealLine (s : State) (p c : Nat) (w : Want) (x : LineRes) : State :=
  let d := (ctxOf s p c).desc
  let stored := match x with
    | .line l _ _ => l
    | _ => 0
  let bad := match x with
    | .line l _ _ => if lPoison l then 2 else if lSealed l then 0 else 3
    | .blank => 0
    | _ => 2
  let s := modCtx s p c (fun y =>
    { y with lines := y.lines.filter (fun z => z.1 ≠ w.key) ++ [(w.key, stored)],
             sealBad := if bad = 0 then y.sealBad else
               (match y.sealBad.find? (fun b => b.1 = w.sector) with
                | none => y.sealBad ++ [(w.sector, bad)]
                | some b => if bad < b.2 then (w.sector, bad) :: y.sealBad.filter (fun b => b.1 ≠ w.sector) else y.sealBad) })
  let s := match x with
    | .line l _ _ =>
      if lPoison l then writeLine s p c w (poisonPattern 2 w.line)
      else
        let f := match d.key.bind (laneKey s (p / 4)) with
          | some m => gcmLine m (sectorDu s p c w) (w.line % 64)
          | none => fun _ => poisonPattern 5 w.line
        let plain := if lValid l then f (lData l) else 0
        if rOd s d.region 0x0A = 3 ∧ d.op ≠ 0x08 then writeLine s p c w plain
        else modCtx s p c (fun y => { y with sealedHold := if w.dst < 2 ^ 24 then y.sealedHold ++ [(w, plain)] else y.sealedHold })
    | .blank => modCtx s p c (fun y => { y with sealedHold := if w.dst < 2 ^ 24 then y.sealedHold ++ [(w, 0)] else y.sealedHold })
    | .lost => writeLine s p c w (poisonPattern 1 w.line)
    | .mapped => writeLine s p c w (poisonPattern 3 w.line)
  sealCheck s p c w

/-- The plain text of a delivered line: deciphered where the region enciphers, poison where its key is gone. -/
def plainLine (s : State) (d : Desc) (w : Want) (x : LineRes) : W512 :=
  linePlain x w.line (fun ct =>
    if ¬ deciphers s d then ct
    else match d.key.bind (laneKey s (fRidge w.fpa)) with
      | some m => xtsDec m (descDu s d w) ct
      | none => poisonPattern 5 w.line)

/-- R186: what a merge source line answers. -/
def mergeLine (s : State) (d : Desc) (plain : W512) (x : LineRes) : State :=
  match x with
  | .line l _ _ =>
    if lPoison l then mergeDone s d 3 0 Status.ok
    else if lValid l then mergeDone s d 1 (mkLine plain true false false (lWgen l) 0) Status.ok
    else mergeDone s d 2 0 Status.ok
  | .blank => mergeDone s d 2 0 Status.ok
  | _ => mergeDone s d 3 0 Status.ok

/-- R177: does each page of a descriptor count as an operation of its own: COPYBACK's and a gap move's? -/
def countsPages (op : Nat) : Bool := decide (op = 0x11) || decide (op = 0x41)

/-- The account of a context's page. -/
def Ctx.pageAcc (x : Ctx) (k : Nat) : Acc := ((x.pageAccs.find? (fun y => y.1 = k)).map (fun y => y.2)).getD {}

/-- Change a context's account, and that of a page where pages count. -/
def modAcc (s : State) (p c page : Nat) (g : Acc → Acc) : State :=
  modCtx s p c (fun x =>
    { x with acc := g x.acc,
             pageAccs := if countsPages x.desc.op then (page, g (x.pageAcc page)) :: x.pageAccs.filter (fun y => y.1 ≠ page) else x.pageAccs })

/-- A wanted line has its result: it is wanted no more, and the descriptor's account takes it. In a sealed region every line of the
sector is wanted (R159). -/
def noteResult (s : State) (p c : Nat) (w : Want) (x : LineRes) : State :=
  let s := modAcc (dropWant s p c w) p c (w.key / 256) (fun a => accLine a w x)
  modCtx s p c (fun y => { y with failed := y.failed.filter (fun k => k ≠ w.key), lost := if x = .lost then y.lost ++ [w.key] else y.lost })

/-- A line of a copy or of a scrub: kept as stored, in place of what the context had of it. -/
def keepLine (s : State) (p c : Nat) (w : Want) (op : Nat) (x : LineRes) : State :=
  let l := copyLine op (Config.freeLine s.free) x
  modCtx (if x = .lost then { s with free := s.free + 1 } else s) p c (fun y => { y with lines := y.lines.filter (fun z => z.1 ≠ w.key) ++ [(w.key, l)] })

/-- Deliver one wanted line of a descriptor (R147, R225, R186). -/
def deliver (s : State) (p c : Nat) (w : Want) (x : LineRes) : State :=
  let d := (ctxOf s p c).desc
  let s := noteResult s p c w x
  if verifies s d then sealLine s p c w x
  else if collects d.op ∨ d.op = 0x18 ∨ d.op = 0x40 then
    keepLine s p c w d.op x
  else
    let plain := plainLine s d w x
    if d.op = 0x08 then mergeLine s d plain x
    else writeLine s p c w plain

end Sys2Proof.Machine
end

