-- ==== Sys2Proof/Machine/Cycles.lean ====
section
/-! DEFINITION. The command cycles the block drives on a channel (R330, R336 to R340, R348). -/

namespace Sys2Proof.Machine

/-- R331: the row address of an address, its fields where the parameter data of the LUN put them. -/
def rowNumber (s : State) (l : Nat) (f : W64) : Nat :=
  let r := (lunOf s l).row
  (fPage f * 2 ^ r.pageAt + fPlane f * 2 ^ r.planeAt + fBlock f * 2 ^ r.blockAt + fLun f % 2 * 2 ^ r.lunAt) % 256 ^ r.cycles

/-- A cycle as it goes out on the channel of a LUN. -/
def busCyc (s : State) (l : Nat) : BusCyc → BusCyc
  | .row f => .rowAddr (rowNumber s l f) (lunOf s l).row.cycles
  | c => c

/-- Drive cycles on the channel of a LUN. -/
def bus (s : State) (lun : Nat) (cs : List BusCyc) : State := emit s (.bus (lun / 16) (cs.map (busCyc s lun)))

/-- A status poll: READ STATUS ENHANCED, or READ STATUS of a die that lacks it (R128, R330). -/
def pollCycles (s : State) (l : Nat) : List BusCyc :=
  let f := mkFpaB false l 0 0 0 0
  (if (lunOf s l).enhanced then [.cmd 0x78, .row f] else [.cmd 0x70]) ++ [.stat f]

/-- RESET LUN (R330). DESIGN CHOICE (log entry 24): LUN 0 of a die that lacks it is not reset at all; R330 names no other command for it. -/
def resetLun (s : State) (l : Nat) : List BusCyc := if (lunOf s l).resets then [.cmd 0xFA, .row (mkFpaB false l 0 0 0 0)] else []

/-- The cell mode of a block: system blocks are SLC, the others their region's (R35). -/
def blockMode (s : State) (r blk : Nat) : Nat := if blk < 4 then 0 else rOd s r 0x06

/-- R336: the byte before each SLC read, program and erase of a die of several bits per cell. -/
def slcPrefix (s : State) (l m : Nat) : List BusCyc := if m = 0 ∧ lunBits s l ≥ 3 then [.cmd (cmdByte s l 0)] else []

/-- The cycles of one operation on some rows: one multi-plane operation, every row but the last ended with mid, or one
operation after the other, each with its prefix. The addresses are what stands before the row: a read's column, nothing for an
erase (R351). -/
def rowsCycles (pre col : List BusCyc) (multi : Bool) (first mid last_ : Nat) : List W64 → List BusCyc
  | [] => []
  | [f] => [.cmd first] ++ col ++ [.row f, .cmd last_]
  | f :: rest => [.cmd first] ++ col ++ [.row f, .cmd (if multi then mid else last_)] ++ (if multi then [] else pre)
      ++ rowsCycles pre col multi first mid last_ rest

/-- The mask of a list of planes. -/
def planeMask (l : List Nat) : Nat := l.foldl (fun a k => if a.testBit k then a else a + 2 ^ k) 0

/-- R343: do the parameter data permit one multi-plane operation on some rows: the command and the set of planes are declared,
and the blocks are free of address restrictions or meet them? PRESUMED of the restriction, which the manual does not spell: the
blocks have one number (log entry 25). -/
def planesTogether (s : State) (l : Nat) (command : Bool) (rows : List W64) : Bool :=
  let x := lunOf s l
  command && !x.barred.contains (planeMask (rows.map fPlane))
    && (x.anyBlocks || rows.all (fun f => decide (fBlock f = fBlock (rows.headD 0))))

/-- READ PAGE, or its multi-plane form (R127). -/
def readCycles (s : State) (l m : Nat) (rows : List W64) : List BusCyc :=
  slcPrefix s l m ++ rowsCycles (slcPrefix s l m) [.col 0] (planesTogether s l (lunOf s l).multiRead rows) 0x00 0x32 0x30 rows

/-- BLOCK ERASE, or its multi-plane form (R208). -/
def eraseCycles (s : State) (l m : Nat) (rows : List W64) : List BusCyc :=
  slcPrefix s l m ++ rowsCycles (slcPrefix s l m) [] (planesTogether s l (lunOf s l).multiErase rows) 0x60 0xD1 0xD0 rows

/-- PAGE PROGRAM of one SLC page whose data go with it: a marker page (R214). -/
def pageCycles (s : State) (l : Nat) (row : W64) (bytes : List Byte) : List BusCyc :=
  slcPrefix s l 0 ++ [.cmd 0x80, .col 0, .row row, .data bytes, .cmd 0x10]

/-- A suspend or resume command, with the LUN's row address where the profile asks for it (R334, R340). -/
def suspendCycles (s : State) (l cmd : Nat) : List BusCyc :=
  [.cmd cmd] ++ (if (lunOf s l).commands.testBit 57 then [.row (mkFpaB false l 0 0 0 0)] else [])

/-- The place of a LUN behind its CE, as the LUN features name it. PRESUMED: ONFI's LUN address. -/
def lunAddr (l : Nat) : List BusCyc := [.addr (l % 2)]

/-- SET FEATURES, or LUN SET FEATURES: feature address and P1 to P4 (R330, R348). -/
def setFeature (l : Nat) (wide : Bool) (feature p : Nat) : List BusCyc :=
  [.cmd (if wide then 0xEF else 0xD5)] ++ (if wide then [] else lunAddr l) ++ [.addr (feature % 256), .param (BitVec.ofNat 32 p)]

/-- GET FEATURES, or LUN GET FEATURES: four bytes come back. -/
def getFeature (l : Nat) (wide : Bool) (feature : Nat) : List BusCyc :=
  [.cmd (if wide then 0xEE else 0xD4)] ++ (if wide then [] else lunAddr l) ++ [.addr (feature % 256), .dout 4]

/-- A LUN begins an operation. -/
def Lun.issue (x : Lun) (b : Busy) (t : Nat) : Lun := { x with busy := b, startUs := t, issueUs := t, ranUs := 0 }

/-- R337: does the LUN take features CE-wide, having none of its own? -/
def wideFeatures (s : State) (l : Nat) : Bool := !(lunOf s l).geom.getLsbD 16

/-- An offset as the die takes it, moved by d and held to −128 to 127 (R162). -/
def offsetByte (b d : Int) : Nat := unsigned 8 (max (-128) (min 127 (b + d)))

/-- Does the LUN's profile list a feature address among its offset features? -/
def offsetFeature (s : State) (l feature : Nat) : Bool :=
  decide (feature ≠ 0) && (List.range 4).any (fun i => decide ((lunOf s l).offsets / 256 ^ i % 256 = feature))

/-- R167: the offsets a page's type uses: one in SLC, else as many as its read levels, of seven at most. -/
def offsetsUsed (s : State) (l m page : Nat) : Nat := if m = 0 then 1 else min 7 (Config.pageLevels m (wordlineOf s l m page).2)

/-- Parameter byte i of a feature, at its place: zero beyond the n offsets used. -/
def offsetAt (ofs : Nat → Nat) (n k i : Nat) : Nat := if k + i < n then ofs (k + i) * 2 ^ (8 * i) else 0

/-- R337: the settings, one SET FEATURES each, that give a page's type its offsets through a retry table's FEATURE: four at most there, the
rest at the address above. -/
def offsetSets (s : State) (l r m page : Nat) (ofs : Nat → Nat) : List (List BusCyc) :=
  let f := od s (0x2140 + rOd s r 0x07) 0x03
  let w := wideFeatures s l
  let n := offsetsUsed s l m page
  let p := fun k => ((List.range 4).map (offsetAt ofs n k)).foldl (· + ·) 0
  setFeature l w f (p 0) :: (if n > 4 then [setFeature l w (f + 1) (p 4)] else [])

/-- R337: their cycles. -/
def offsetCycles (s : State) (l r m page : Nat) (ofs : Nat → Nat) : List BusCyc := (offsetSets s l r m page ofs).flatten

/-- R337, R338: the cycles that set the thresholds of a step for a page, with d added to every offset (R162). -/
def stepCycles (s : State) (l r m page step : Nat) (d : Int) : List BusCyc :=
  if step ≥ 33 then setFeature l true 0x89 (step - 32)
  else
    let w := od s (0x2140 + rOd s r 0x07) (0x05 + step)
    offsetCycles s l r m page (fun k => offsetByte (if step = 0 then 0 else signed 8 (w / 256 ^ k)) d)

/-- R338: the cycles that restore step 0, for what was changed: the die's own option, the offsets. -/
def restoreCycles (s : State) (l r m page : Nat) (option offsets : Bool) : List BusCyc :=
  (if option then setFeature l true 0x89 0 else []) ++ (if offsets then offsetCycles s l r m page (fun _ => 0) else [])

end Sys2Proof.Machine
end

