-- ==== Sys2Proof/Machine/Compose.lean ====
section
/-! DEFINITION. What a program puts on a page: the lines as they are stored, enciphered or sealed (R189, R193, R194, R275 to R279),
the header (R155 to R158, R196, R214), line code, page code and scrambling (R144 to R153). -/

namespace Sys2Proof.Machine

/-- The live generation of a region's key slot, if its regions cipher and the slot holds a key (R184). -/
def liveKey (s : State) (r : Nat) : Option (Nat × Nat) :=
  let k := slotOf s r
  if ciphered s r ∧ slotUsable (keySlot s k).state then some (k, (keySlot s k).gen) else none

/-- A line with other data bytes. -/
def withData (x : BitVec 528) (d : W512) : BitVec 528 := d.setWidth 528 ||| (x &&& place 528 512 0xFFFF)

/-- A line of a sealed sector as stored: ciphertext, SEALED, and its byte of the seal field (R143, R189, R194, R279). The
sector's 64 lines stand in ls. -/
def sealedLine (m : W512) (du : W64) (ls : List (BitVec 528)) (i : Nat) : BitVec 528 :=
  let x := ls.getD i 0 ||| place 528 517 1
  let meta0 := ls.map (fun y => lMeta0 y ||| 0x20#8)
  let ct := ls.mapIdx (fun j y => gcmLine m du j (lData y))
  let tag := if i < 16 then ((gcmTag m du meta0 ct).getD i 0).toNat else 0
  withData (x &&& place 528 512 0xFF) (ct.getD i 0) ||| place 528 520 tag

/-- R277: the tweak base of a unit's plane at offset k. -/
def unitBase (s : State) (d : Led) (k : Nat) : W64 := d.base.getD (tweakForm s d.region d.target) + BitVec.ofNat 64 (k * 2 ^ 49)

/-- Line i of the plane at offset k of a unit as it is stored: a copy's as it came, in an XTS region enciphered where it holds
data, in a sealed region sealed with its sector (R193, R194, R278). A sector restored as it was sealed stays so (R374). -/
def storedAs (s : State) (d : Led) (k i : Nat) : BitVec 528 :=
  let at_ := fun j => d.lines.get 0 (k * 256 + j)
  let x := at_ i
  let mode := rOd s d.region 0x0A
  let base := unitBase s d k
  if d.copied ∨ mode = 0 then x
  else match d.key.bind (laneKey s (fRidge d.phys)) with
    | none => x
    | some m =>
      if mode = 1 then (if lValid x ∧ ¬ lPoison x then withData x (xtsEnc m (base + BitVec.ofNat 64 (i * 4096)) (lData x)) else x)
      else if (List.range 64).any (fun j => lSealed (at_ (i / 64 * 64 + j))) then x
      else sealedLine m (base + BitVec.ofNat 64 (i / 64 * 64 * 4096)) ((List.range 64).map (fun j => at_ (i / 64 * 64 + j))) (i % 64)

/-- Every line of a unit as it is stored. -/
def storedLines (s : State) (d : Led) : SMap (BitVec 528) :=
  { entries := (List.range ((d.planesM1 + 1) * 256)).map (fun n => (n, storedAs s d (n / 256) (n % 256))) }

/-- R196: PAIRED of a page. -/
def pairedOf (m pos : Nat) : Nat := if m = 0 then 8 else pos + 4 + (if pos + 1 = modeBits m then 8 else 0)

/-- SEQ of the n-th page of a ridge (R158). -/
def seqOf (rg n : Nat) : Nat := rg % 16 * 2 ^ 44 + n % 2 ^ 44

/-- The header of a page a unit programs at address f, the plane at offset k: composed afresh, or a copy's with TARGET rewritten
and its flag set (R155, R156, R193). -/
def unitHeader (s : State) (d : Led) (handle : BitVec 32) (f : W64) (k seq : Nat) : W512 :=
  let flag := if d.kind = .copyback then 2 else if d.kind = .gapMove then 4 else 0
  match d.hdrs.find? (fun h => h.1 = k) with
  | some (_, w) => encodeHeader { headerFields w with target := f, flags := (headerFields w).flags ||| flag }
  | none =>
    let r := d.region
    let t := tweakForm s r d.target
    let w := unitWl s d
    encodeHeader
      { region := r, seq := seq, epoch := od s 0x2100 0x06, unit := if d.kind = .host then handle else 0, target := f,
        logical := if fT t then some (fBlock t) else none, paired := pairedOf w.1 w.2.2,
        flags := (if rOd s r 0x05 = 1 then 1 else 0) + flag, p := parityLines (lunPhys s (fBlun f)), cellMode := w.1,
        cipherMode := rOd s r 0x0A, keySlot := if rOd s r 0x0A = 0 then 0 else rOd s r 0x0B }

/-- The header of a marker page (R214). -/
def markerHeader (s : State) (f : W64) (region seq : Nat) : W512 :=
  encodeHeader
    { region := region, seq := seq, epoch := od s 0x2100 0x06, unit := 0, target := f, logical := none, paired := pairedOf 0 0,
      flags := 0x11, p := parityLines (lunPhys s (fBlun f)), cellMode := 0, cipherMode := 0, keySlot := 0 }

/-- The header area before scrambling: the header, a second copy where it fits, zeros (R157). -/
def headerArea (P : Nat) (h : W512) : List Byte :=
  let n := headerLen P
  let b := bytesOf 64 h ++ (if n ≥ 128 then bytesOf 64 h else [])
  b ++ List.replicate (n - b.length) 0

/-- The bytes of a physical page (R151): data slots under line code, parity lines, header area, each scrambled by its own seed
(R149). -/
def pageBytes (P : Nat) (seed : Nat → BitVec 32) (h : W512) (line : Nat → BitVec 528) : List Byte :=
  let p := parityLines P
  let parity := fun e => pageParity p ((List.range 128).map (fun i => line (2 * i + e)))
  (List.range 256).flatMap (fun n => bytesOf 70 (scramble (seed n) (encodeSlot (line n))))
    ++ ((parity 0).zipIdx).flatMap (fun x => bytesOf 66 (scramble (seed (256 + x.2)) x.1))
    ++ ((parity 1).zipIdx).flatMap (fun x => bytesOf 66 (scramble (seed (262 + x.2)) x.1))
    ++ bytesOf (headerLen P) (scramble (seed 511) (wordOfBytes (8 * headerLen P) (headerArea P h)))

/-- The bytes of a marker page: its records in the first lines, the other lines empty, under the system seed (R214). -/
def markerBytes (s : State) (f : W64) (region seq : Nat) (records : List W512) : List Byte :=
  pageBytes (lunPhys s (fBlun f)) (fun u => scrambleSeed systemSeed (fBlock f) (fPage f) u) (markerHeader s f region seq)
    (fun n => match records[n]? with
      | some w => mkLine w true false false 0 0
      | none => 0)

end Sys2Proof.Machine
end

