-- ==== Sys2Proof/Machine/Port.lean ====
section
/-! DEFINITION. The ports of a spur and the Cornice: residency (R118 to R120), holds (R122, R123), the waiting set and the
choice of the next phase (R124 to R130). -/

namespace Sys2Proof.Machine

/-- Spur of a block-wide LUN. -/
def lunSpur (l : Nat) : Nat := l / 32
/-- Port of a block-wide LUN. -/
def lunPort (l : Nat) : Nat := l / 16 % 2
/-- Ridge of a block-wide LUN. -/
def lunRidge (l : Nat) : Nat := l / 128

/-! ### Cornice -/

/-- Is a phase a pull that waits for the page an entry names? -/
def pullsEntry (s : State) (e : Nat) (ph : Phase) : Bool :=
  let c := corn s e
  decide (ph.kind = .pull) && decide (ph.lun = e / 6) && decide (ph.plane = e % 6) && decide (fBlock ph.fpa = c.block) && decide (fPage ph.fpa = c.page)

/-- R123, R136: the register loses the page an entry names: the pulls pending for it become misses. -/
def missPulls (s : State) (e : Nat) : State :=
  let p := lunSpur (e / 6)
  let k := lunPort (e / 6)
  let n := ((port s p k).waiting.filter (pullsEntry s e)).foldl (fun a ph => a + ph.owed.length) 0
  if n = 0 then s
  else countBy (modPort s p k (fun y => { y with waiting := y.waiting.map (fun ph => if pullsEntry s e ph then { ph with owed := [] } else ph) }))
    0x5800 0x06 n

/-- R120: clear VALID of an entry; counted when it was set. -/
def invalidateEntry (s : State) (e : Nat) : State :=
  if (corn s e).valid then count (modCorn (missPulls s e) e (fun c => { c with valid := false, held := false })) 0x5800 0x08 else s
/-- R120: some planes of a LUN. -/
def invalidatePlanes (s : State) (l : Nat) (planes : List Nat) : State :=
  planes.foldl (fun s k => invalidateEntry s (cornOf l k)) s
/-- R120: all planes of a LUN. -/
def invalidateLun (s : State) (l : Nat) : State := invalidatePlanes s l (List.range 6)

/-- R121: the array reads of a LUN are cancelled: nothing loads its entries any more. -/
def cancelLoads (s : State) (l : Nat) : State :=
  (List.range 6).foldl (fun s k => modCorn s (cornOf l k) (fun c => { c with loading := false })) s
/-- R120: every entry of some LUNs. -/
def invalidateLuns (s : State) (ls : List Nat) : State := ls.foldl invalidateLun s

/-- R119: does the register hold the page of an address? -/
def resident (s : State) (f : W64) : Bool :=
  let c := corn s (cornOf (fBlun f) (fPlane f))
  c.valid && decide (c.block = fBlock f) && decide (c.page = fPage f)
/-- Is an array read of its page under way? -/
def pageLoading (s : State) (f : W64) : Bool :=
  let c := corn s (cornOf (fBlun f) (fPlane f))
  c.loading && decide (c.block = fBlock f) && decide (c.page = fPage f)

/-- PENDING of an entry (R118): pulls waiting for its page, those in transfer included. -/
def pendingOf (s : State) (e : Nat) : Nat :=
  let l := e / 6
  let c := corn s e
  let here := fun f : W64 => decide (fBlun f = l) && decide (fPlane f = e % 6) && decide (fBlock f = c.block) && decide (fPage f = c.page)
  let y := port s (lunSpur l) (lunPort l)
  if c.valid ∨ c.loading then
    (y.waiting.filter (fun ph => decide (ph.kind = .pull) && here ph.fpa)).foldl (fun a ph => a + ph.units.length) 0
      + (y.infl.filter (fun u => here u.fpa)).length
  else 0

/-- R123: does a hold window defer array reads, programs and erases of the LUN? -/
def holdDefers (s : State) (l : Nat) : Bool :=
  (List.range 6).any (fun k => (corn s (cornOf l k)).held && decide (pendingOf s (cornOf l k) > 0))

/-! ### LUNs -/

/-- The other LUN behind a LUN's CE. -/
def twin (l : Nat) : Nat := if l % 2 = 0 then l + 1 else l - 1

/-- R348: does a CE-wide DIE_FEATURE of the CE's other LUN keep this one busy? -/
def twinSets (s : State) (l : Nat) : Bool :=
  match (lunOf s (twin l)).busy with
  | .feature c => decide (bitsOf (ctxOf s (lunSpur l) c).desc.body 7 0 ≤ 1) || wideFeatures s (twin l)
  | _ => false

/-- Is the LUN ready for the pulls and reads of a context: idle, and in a suspension only for the reads admitted (R126,
R133)? -/
def lunServes (s : State) (l c : Nat) : Bool :=
  let x := lunOf s l
  decide (x.busy = .idle) && !twinSets s l && (match x.susp with
    | none => true
    | some u => u.observed && u.reads.contains c)

/-- Is the LUN free for a program, an erase or any array operation that is no read: idle, with no ladder and nothing
suspended? -/
def lunIdle (s : State) (l : Nat) : Bool :=
  let x := lunOf s l
  decide (x.busy = .idle) && decide (x.susp = none) && decide (x.suspended = none) && decide (x.ladder = none)

/-- R457: the thermal level of a ridge: the higher of its own sensor's and sensor 16's. -/
def thermalLevel (s : State) (r : Nat) : Nat := max (s.sensors.get {} r).level (s.sensors.get {} 16).level

/-- R457, R458: does level 3 withhold array reads, programs and erases of a LUN? Levels are ignored from the power-fail
warning on. -/
def tooHot (s : State) (l : Nat) : Bool :=
  decide (thermalLevel s (lunRidge l) ≥ 3) && !railDown s

/-! ### The waiting set -/

/-- Take the next number in the order in which work comes to the ports (R124). -/
def stamp (s : State) : State := { s with turns := s.turns + 1 }

/-- Post a phase on a port of a spur. -/
def postPhase (s : State) (p k : Nat) (ph : Phase) : State :=
  modPort (stamp s) p k (fun y => { y with waiting := y.waiting ++ [{ ph with no := s.turns + 1 }] })

/-- Post the transfer of some units of a page for a context: pulls, or the sector segments of a read; soft is 64 + n for soft
read n, owed the units that HITS or MISSES is still to count. -/
def postUnits (s : State) (p c : Nat) (f : W64) (units : List Nat) (soft : Nat) (whole : Bool) (owed : List Nat) : State :=
  if units = [] then s
  else
    let g := fSetBlock (fSetLine f 0) false (fBlock f)
    postPhase (modCtx s p c (fun x => { x with issued := true })) p (fPort f)
      { ctx := c, cls := (ctxOf s p c).cls, kind := .pull, lun := fBlun f, plane := fPlane f, fpa := g, units := units, step := soft,
        whole := whole, owed := owed }

/-- Post pulls the ladder or the engine itself needs: HITS and MISSES do not count them. -/
def postPull (s : State) (p c : Nat) (f : W64) (units : List Nat) (soft : Nat) : State := postUnits s p c f units soft false []

/-- Does a transfer to the CE of a LUN run on its port (R125, R328)? -/
def ceBusy (y : Port) (l : Nat) : Bool := y.infl.any (fun u => decide (fChan u.fpa = l / 16) && decide (fLun u.fpa / 2 = l % 16 / 2))
/-- Bursts in flight on a port: one for each CE. -/
def burstsOut (y : Port) : Nat := ((y.infl.map (fun u => fBlun u.fpa / 2)).eraseDups).length

/-- Is a program's data-in under way on the LUN: its confirm has not been issued (R199)? -/
def dataInOpen (s : State) (l : Nat) : Bool :=
  (port s (lunSpur l) (lunPort l)).waiting.any (fun ph => decide (ph.kind = .dataIn) && decide (ph.lun = l))

/-- What R132 says of a read against the operation its LUN runs: it may suspend it, is refused only for want of
RESUME_RUN_US, is refused for another reason, or there is nothing to suspend. -/
inductive SuspendVerdict where
  | allowed | early | denied | none
deriving DecidableEq, Repr

/-- Do both suspend bytes and the time of a LUN's profile say that it can suspend: erases at 0, programs at 16 (R336)? -/
def suspendable (s : State) (l : Nat) (program : Bool) : Bool :=
  let t := (lunOf s l).times1
  if program then decide (cmdByte s l 32 ≠ 0) && decide (cmdByte s l 40 ≠ 0) && decide (bitsOf t 31 16 ≠ 0)
  else decide (cmdByte s l 16 ≠ 0) && decide (cmdByte s l 24 ≠ 0) && decide (bitsOf t 15 0 ≠ 0)

/-- R132 for a read of region r at an address. -/
def suspendVerdict (s : State) (r : Nat) (f : W64) : SuspendVerdict :=
  let l := fBlun f
  let x := lunOf s l
  match x.busy with
  | .erase now blk =>
    let planes := (x.erases.head?.map (fun j => j.planes)).getD now
    let o := (x.erases.head?.map (fun j => j.desc.region)).getD 0
    let late := decide (rOd s r 0x11 ≥ 1) && decide (rOd s o 0x11 ≥ 1) && decide (x.suspends < rOd s o 0x12) && suspendable s l false
    if !late || (decide (fBlock f = blk) && planes.contains (fPlane f)) then .denied else if x.runOk then .allowed else .early
  | .program us _ blk =>
    let o := (us.head?.map (fun u => (unit s u).region)).getD 0
    let m := rOd s o 0x06
    let mine := decide (fBlock f = blk) && us.any (fun u =>
      decide ((wordlineOf s l m (fPage (unit s u).phys)).1 = (wordlineOf s l m (fPage f)).1))
    let late := decide (rOd s r 0x11 = 2) && decide (rOd s o 0x11 = 2) && decide (x.suspends = 0) && suspendable s l true
    if !late || mine then .denied else if x.runOk && !dataInOpen s l then .allowed else .early
  | .routine _ k o rows =>
    let m := rOd s o 0x06
    let mine := rows.any (fun g => decide (fBlock f = fBlock g) && (if k = 2 then decide (fPlane f = fPlane g)
      else decide ((wordlineOf s l m (fPage g)).1 = (wordlineOf s l m (fPage f)).1)))
    let late := if k = 2 then decide (rOd s r 0x11 ≥ 1) && decide (rOd s o 0x11 ≥ 1) && decide (x.suspends < rOd s o 0x12) && suspendable s l false
      else decide (rOd s r 0x11 = 2) && decide (rOd s o 0x11 = 2) && decide (x.suspends = 0) && suspendable s l true
    if !late || mine then .denied else if x.runOk && decide (k ≠ 0) then .allowed else .early
  | .marker => .denied
  | .idle | .read _ _ _ _ _ _ | .soft _ _ _ _ _ | .probe _ _ _ _ | .feature _ => .none

/-- What a waiting phase can do now. -/
inductive PhaseAct where
  | nothing | transfer | arrayRead | go
deriving DecidableEq, Repr

/-- R337: does a probe of a LUN in a region move its thresholds with the CE-wide form? -/
def wideProbe (s : State) (l r : Nat) : Bool := wideFeatures s l && offsetFeature s l (od s (0x2140 + rOd s r 0x07) 0x03)

/-- R337: does a ladder or a probe on the other LUN of the CE hold this one: it moves thresholds with the CE-wide form? -/
def twinHeld (s : State) (l : Nat) : Bool :=
  (lunOf s (twin l)).ladder.any (fun y =>
      decide (y.phase ≠ 5) && (wideFeatures s (twin l) || decide (y.step ≥ 33) || y.tried.any (fun t => decide (t.1 ≥ 33))))
    || (match (lunOf s (twin l)).busy with
      | .probe _ _ r _ => wideProbe s (twin l) r
      | _ => false)
    || twinSets s l

/-- R337: is the other LUN of a CE free for a CE-wide setting: idle, nothing suspended, no ladder but one that waits for the CE? -/
def twinFree (s : State) (l : Nat) : Bool :=
  let x := lunOf s (twin l)
  decide (x.busy = .idle) && decide (x.susp = none) && decide (x.suspended = none) && x.ladder.all (fun y => decide (y.phase = 5))

/-- May an array read, a program or an erase go to a LUN: no hold defers it (R123), its ridge is not too hot (R457), no ladder of its
CE holds it (R337), and the power-fail sequence has not begun (R365)? -/
def arrayOpen (s : State) (l : Nat) : Bool := !holdDefers s l && !tooHot s l && !twinHeld s l && !railDown s

/-- R129: the segments of one plane go before those of a higher one of the same read. -/
def planeAhead (y : Port) (ph : Phase) : Bool :=
  ph.whole && y.waiting.any (fun q => decide (q.kind = .pull) && q.whole && decide (q.ctx = ph.ctx) && decide (q.lun = ph.lun)
    && decide (fBlock q.fpa = fBlock ph.fpa) && decide (fPage q.fpa = fPage ph.fpa) && decide (q.plane < ph.plane))

/-- Has a context an interleave of a page in staging, waiting for a decoder or in one? -/
def stagePending (s : State) (p c page : Nat) : Bool :=
  let t := fun x : Stage => decide (x.spur = p) && decide (x.ctx = c) && decide (pageKey x.fpa = page)
  (ridge s (p / 4)).staging.any t || (ridge s (p / 4)).staged.any t
    || (ridge s (p / 4)).stageWait.any (fun x => decide (x.1 = p) && decide (x.2.1 = c) && decide (pageKey x.2.2.1 = page))
    || (List.range 4).any (fun d => (dec s d).jobs.entries.any (fun e => match e.2 with
      | some x => t x
      | none => false))

/-- Has a context nothing left to wait for on a page but lines that failed the content? -/
def contentDone (s : State) (p c : Nat) (f : W64) : Bool :=
  let x := ctxOf s p c
  let page := pageKey f
  let ws := x.wants.filter (fun w => decide (w.key / 256 = page))
  !stagePending s p c page && ws.all (fun w => x.failed.contains w.key) && !x.erasedWait.any (fun k => decide (k / 256 = page))

/-- Pages of a LUN on which a context has nothing left but failed lines, which wait for the LUN to climb the ladder. -/
def climbPages (s : State) (p c l : Nat) : List W64 :=
  ((((ctxOf s p c).failed.map (fun k => k / 256)).eraseDups).map (fun k => keyFpa (k * 256))).filter (fun f =>
    decide (fBlun f = l) && contentDone s p c f)

/-- May the suspend command posted for a read go out: the operation still runs, the read still waits for it, with a pull or with
lines that climb, and R132 still lets it suspend it? -/
def suspendGoes (s : State) (y : Port) (ph : Phase) : Bool :=
  decide ((lunOf s ph.lun).susp = none)
    && (y.waiting.any (fun q => decide (q.kind = .pull) && decide (q.ctx = ph.ctx) && decide (q.lun = ph.lun))
      || decide (climbPages s (lunSpur ph.lun) ph.ctx ph.lun ≠ []))
    && decide (suspendVerdict s (ctxOf s (lunSpur ph.lun) ph.ctx).desc.region ph.fpa = .allowed)

/-- Do some cycles begin an array read, a program or an erase (R330)? The confirm of a program whose data-in has begun does not (R457). -/
def arrayCmd (cs : List BusCyc) : Bool :=
  cs.any (fun c => match c with
    | .cmd b => [0x30, 0x32, 0x80, 0xD0, 0xD1].contains b
    | _ => false)

/-- May a phase that a routine has posted go out: one that begins an array operation waits for its LUN, for holds and for the
temperature like every other (R123, R126, R457); the data-in it has begun itself goes on. -/
def routineGoes (s : State) (ph : Phase) : Bool :=
  !arrayCmd ph.cycles || (match (lunOf s ph.lun).busy with
    | .routine c 0 _ _ => decide (c = ph.ctx)
    | _ => arrayOpen s ph.lun && (if ph.cycles.all (fun c => decide (c ≠ .cmd 0x80) && decide (c ≠ .cmd 0xD0) && decide (c ≠ .cmd 0xD1))
        then lunServes s ph.lun ph.ctx && decide ((lunOf s ph.lun).ladder = none) else lunIdle s ph.lun))

/-- R124, R126: what a phase can do on its port. -/
def phaseAct (s : State) (y : Port) (ph : Phase) : PhaseAct :=
  match ph.kind with
  | .pull =>
    if ph.step ≥ 64 ∨ resident s ph.fpa then
      (if lunServes s ph.lun ph.ctx ∧ ¬ ceBusy y ph.lun ∧ burstsOut y < od s 0x5800 0x04 ∧ ¬ planeAhead y ph then .transfer else .nothing)
    else if pageLoading s ph.fpa then .nothing
    else if lunServes s ph.lun ph.ctx ∧ (lunOf s ph.lun).ladder = none ∧ arrayOpen s ph.lun then .arrayRead
    else .nothing
  | .suspend => if ph.cycles ≠ [] ∨ suspendGoes s y ph then .go else .nothing
  -- a data-in that has still to start is a program; once it has begun it goes on (R123, R457)
  | .dataIn => match (lunOf s ph.lun).busy with
    | .program _ _ _ => if ph.cycles ≠ [] ∧ (holdDefers s ph.lun ∨ tooHot s ph.lun) then .nothing else .go
    | _ => .nothing
  -- a ladder's read, which waited for its port
  | .arrayRead =>
    if ph.cycles ≠ [] then (if routineGoes s ph then .go else .nothing)
    else if (lunOf s ph.lun).busy = .idle ∧ arrayOpen s ph.lun ∧ (lunOf s ph.lun).ladder.any (fun x => decide (x.phase = 4)) then .arrayRead
    else .nothing
  | .probe => if lunIdle s ph.lun ∧ arrayOpen s ph.lun ∧ (wideProbe s ph.lun ph.step → twinFree s ph.lun) then .go else .nothing
  | .poll | .confirm | .eraseCmd | .feature | .reset | .resume | .other =>
    if routineGoes s ph then .go else .nothing

/-- The index of the oldest waiting phase that passes a test. -/
def oldestPhase (y : Port) (t : Phase → Bool) : Option Nat := y.waiting.findIdx? t

/-- The first option that answers. -/
def firstSome {α : Type} : List (Option α) → Option α
  | [] => none
  | some x :: _ => some x
  | none :: r => firstSome r

/-- Has a read finished its die operations on a LUN: nothing waiting or in transfer there, no failed line that may climb? -/
def dieDone (s : State) (l c : Nat) : Bool :=
  let p := lunSpur l
  let y := port s p (lunPort l)
  -- what a routine still has to do on the LUN only its end tells
  !(ctxUsed s p c && decide ((ctxOf s p c).desc.op ≥ 0x80)) && !y.waiting.any (fun ph => decide (ph.ctx = c) && decide (ph.kind = .pull) && decide (ph.lun = l))
    && !y.infl.any (fun u => decide (u.ctx = c) && decide (fBlun u.fpa = l))
    && !(ctxOf s p c).failed.any (fun k => decide (fBlun (keyFpa k) = l))

/-- Is what a LUN runs, or has suspended, a program? -/
def Busy.programs : Busy → Bool
  | .program _ _ _ => true
  | .routine _ k _ _ => decide (k ≠ 2)
  | _ => false

/-- Is it an erase? -/
def Busy.erases : Busy → Bool
  | .erase _ _ => true
  | .routine _ k _ _ => decide (k = 2)
  | _ => false

/-- Is it the data-in of a routine's program, before its confirm? -/
def Busy.dataIn : Busy → Bool
  | .routine _ k _ _ => decide (k = 0)
  | _ => false

/-- The LUN holds a suspended erase. -/
def eraseSuspended (x : Lun) : Bool := x.suspended.any Busy.erases

/-- The class of the operation a LUN has suspended: an erase runs in class 3, a program in its unit's (R208, R91). -/
def suspendedClass (s : State) (l : Nat) : Nat :=
  match (lunOf s l).suspended with
  | some (.program us _ _) => (unit s (us.headD 0)).cls
  | _ => 3

/-- A switch falls due before the next marker: the current flag block is full, or has failed (R219). -/
def switchDue (s : State) (l : Nat) : Bool := (lunOf s l).flagBad || decide ((lunOf s l).flagPage ≥ lunPages s l 0)

/-- R180, R183, R195: can the program of a unit's group start but for its turn on the port: its group is complete and the first of its
LUN, the LUN free, its spur in service? -/
def programReady (s : State) (u : Nat) : Bool :=
  let d := unit s u
  let l := fBlun d.phys
  decide (d.state = .committed) && !(d.restored && decide ((region s d.region).state ≠ 1)) && groupComplete s u && !turnAhead s u && lunIdle s l
    && arrayOpen s l && (decide ((spur s (lunSpur l)).svc = .inService) || decide ((spur s (lunSpur l)).svc = .draining))
    && !(spur s (lunSpur l)).stopped

/-- R209: units of the ridge that an erase waits for: COMMITTED or PROGRAMMING on a page of the block on an erased plane. -/
def eraseBlocked (s : State) (l : Nat) (j : EraseJob) : Bool :=
  (unitsOf s (lunRidge l)).any (fun e =>
    (decide (e.2.state = .committed) || decide (e.2.state = .programming)) && decide (fBlun e.2.phys = l)
      && decide (fBlock e.2.phys = fBlock j.desc.phys) && (unitPlanes e.2).any (fun k => j.planes.contains k))

/-- R209, R217, R221: can the erase at the head of a LUN go on with a command on the bus, a switch that is due before its marker included,
but for its turn on the port? -/
def eraseReady (s : State) (l : Nat) : Bool :=
  lunIdle s l && arrayOpen s l && (match (lunOf s l).erases with
    | j :: _ =>
      match j.phase with
      | .queued => !eraseBlocked s l j && (!j.journal || covers s (eProgram s 0))
      | .marked => true
      | .erasing => decide (j.left ≠ [])
      | .doneMark => covers s (eProgram s 0)
      | .intent => false
    | [] => false)

/-- R133, R134: can the operation a LUN has suspended be resumed, but for its turn on the port? Once the power-fail sequence has begun a
program resumes when the LUN is ready; an erase stays suspended (R365). -/
def resumeReady (s : State) (l : Nat) : Bool :=
  (lunOf s l).susp.any (fun u => u.observed && decide ((lunOf s l).busy = .idle) &&
    (if railDown s then !eraseSuspended (lunOf s l)
     else decide ((lunOf s l).ladder = none) && u.reads.all (fun c => dieDone s l c)))

/-- Is the LUN idle, no ladder of its CE's other LUN holding it (R337), and with a CE-wide form that LUN too (R348)? -/
def featureFree (s : State) (l : Nat) (wide : Bool) : Bool := lunIdle s l && !twinHeld s l && (!wide || twinFree s l)

/-- R348: has a DIE_FEATURE the CE-wide form, by its sub-operation or for want of LUN features? -/
def featureWide (s : State) (d : Desc) : Bool := decide (bitsOf d.body 7 0 ≤ 1) || wideFeatures s (fBlun d.phys)

/-- R348: can a DIE_FEATURE start but for its turn on the port? Its SET forms are deferred like array operations (R123). -/
def featureReady (s : State) (d : Desc) : Bool :=
  featureFree s (fBlun d.phys) (featureWide s d) && !(decide (bitsOf d.body 7 0 % 2 = 1) && holdDefers s (fBlun d.phys))

/-- R124: the program starts, erases, resumes and DIE_FEATUREs that wait for the port of channel ch only: class, and number in the order
in which they came. An erase counts from the pop of its descriptor, a resume from its suspension, a program from the completion of its
group (DEDUCED, log entry 25). -/
def cmdList (s : State) (ch : Nat) : List (Nat × Nat) :=
  ((spur s (ch / 2)).ctxs.entries.filter (fun e => decide (e.2.desc.op = 0x30) && decide (e.2.stage = 3) && decide (e.2.lun / 16 = ch)
      && featureReady s e.2.desc)).map (fun e => (e.2.cls, e.2.no))
    ++ (s.luns.entries.filter (fun e => decide (e.1 / 16 = ch) && eraseReady s e.1)).map (fun e => (3, (e.2.erases.head?).elim 0 (fun j => j.no)))
    ++ (s.luns.entries.filter (fun e => decide (e.1 / 16 = ch) && resumeReady s e.1)).map
      (fun e => (suspendedClass s e.1, e.2.susp.elim 0 (fun u => u.no)))
    ++ ((unitsOf s (ch / 8)).filter (fun e => decide (fBlun e.2.phys / 16 = ch) && programReady s e.1)).map (fun e => (e.2.cls, e.2.turn))

/-- Does one of class k wait? -/
def cmdWaits (s : State) (ch k : Nat) : Bool := (cmdList s ch).any (fun x => decide (x.1 = k))

/-- Does a command or a phase of class k wait that the port can take, older than number n? -/
def olderWaits (s : State) (ch k n : Nat) : Bool :=
  let y := port s (ch / 2) (ch % 2)
  (cmdList s ch).any (fun x => decide (x.1 = k) && decide (x.2 < n))
    || y.waiting.any (fun ph => decide (ph.cls = k) && decide (ph.no < n) && decide (phaseAct s y ph ≠ .nothing))

/-- Does anything of class k wait that the port can take? -/
def classWaits (s : State) (ch k : Nat) : Bool :=
  let y := port s (ch / 2) (ch % 2)
  cmdWaits s ch k || y.waiting.any (fun ph => decide (ph.cls = k) && decide (phaseAct s y ph ≠ .nothing))

/-- The class whose turn the guards of R21 make it on a port, if one has fallen due. -/
def dueClass (s : State) (ch : Nat) : Option Nat :=
  let y := port s (ch / 2) (ch % 2)
  if y.c2 ≥ 64 ∧ classWaits s ch 2 then some 2 else if y.c3 ≥ 512 ∧ classWaits s ch 3 then some 3 else none

/-- Steps 1 and 2 of R124: a suspend command for a class 0 or 1 read, or a status poll, that can go out. -/
def firstStep (s : State) (y : Port) (ph : Phase) : Bool :=
  (decide (ph.kind = .suspend) && decide (ph.cls ≤ 1) && decide (phaseAct s y ph = .go)) || decide (ph.kind = .poll)

/-- R124: the choice of the next phase, with the guards of R21. The port is kept for an older command of the class, or a command of class 2
before phases of class 3: rows of their own issue those. -/
def choosePhase (s : State) (p k : Nat) : Option Nat :=
  let y := port s p k
  let can := fun (k : Nat) (a : PhaseAct) => oldestPhase y (fun ph => decide (ph.cls = k) && decide (phaseAct s y ph = a))
  let mine := fun (j : Nat) => (oldestPhase y (fun ph => decide (ph.cls = j) && decide (phaseAct s y ph ≠ .nothing))).filter (fun i =>
    !(cmdList s (2 * p + k)).any (fun x => decide (x.1 = j) && decide (x.2 < (y.waiting.getD i {}).no)))
  match dueClass s (2 * p + k) with
  | some j => mine j
  | none =>
    firstSome [oldestPhase y (fun ph => firstStep s y ph && decide (ph.kind = .suspend)), oldestPhase y (firstStep s y),
      can 0 .transfer, can 0 .arrayRead, can 0 .go,
      can 1 .transfer, can 1 .arrayRead, can 1 .go, mine 2, if cmdWaits s (2 * p + k) 2 then none else mine 3]

/-- The guards' counts after a phase of class k (R124); m2 and m3 say whether a command of class 2 or 3 waits. DESIGN CHOICE (log entry 47):
the spec does not say whether a phase of class 3 breaks the run of phases from classes 0 and 1 while class 2 waits; class 2's count stays
as it was. -/
def Port.counted (y : Port) (m2 m3 : Bool) (k : Nat) : Port :=
  let w2 := m2 || y.waiting.any (fun ph => decide (ph.cls = 2))
  let w3 := m3 || y.waiting.any (fun ph => decide (ph.cls = 3))
  if k ≤ 1 then { y with c2 := if w2 then y.c2 + 1 else 0, c3 := if w3 then y.c3 + 1 else 0 }
  else if k = 2 then { y with c2 := 0, c3 := if w3 then y.c3 + 1 else 0 }
  else { y with c3 := 0 }

/-- Can the port of a LUN start a phase: no segment under way, the channel trained (R345, R347), the ridge Active (R22, R377)? -/
def portFree (s : State) (l : Nat) : Bool :=
  decide ((port s (lunSpur l) (lunPort l)).seg = none) && !(chan s (l / 16)).lost && !(chan s (l / 16)).untrained && decide ((ridge s (lunRidge l)).pstate = 0)

/-- R124: is it the turn of a program start, an erase, a resume or an array read of class k, number n, on the port of a LUN: no segment under
way, the channel trained, and nothing that the port would take before it? -/
def portTurn (s : State) (l k n : Nat) : Bool :=
  let y := port s (lunSpur l) (lunPort l)
  portFree s l && !olderWaits s (l / 16) k n && (match dueClass s (l / 16) with
    | some j => decide (k = j)
    | none => !y.waiting.any (firstStep s y) && (List.range k).all (fun j => !classWaits s (l / 16) j)
      && !y.waiting.any (fun ph => decide (k ≤ 1) && decide (ph.cls = k) && decide (phaseAct s y ph = .transfer)))

/-- R124 step 2: is it the turn of a status poll on the port of a LUN: no suspend command before it, and no class due? A poll has no
class of its own: the guards do not count it (log entry 25). -/
def pollTurn (s : State) (l : Nat) : Bool :=
  let y := port s (lunSpur l) (lunPort l)
  portFree s l && decide (dueClass s (l / 16) = none) && !y.waiting.any (fun ph => firstStep s y ph && decide (ph.kind = .suspend))

/-- The port has taken a phase or a command of class k. -/
def countPhase (s : State) (p k cls : Nat) : State :=
  modPort s p k (fun y => y.counted (cmdWaits s (2 * p + k) 2) (cmdWaits s (2 * p + k) 3) cls)

/-- The port has taken a command of class k for a LUN. -/
def tookTurn (s : State) (l k : Nat) : State := countPhase s (lunSpur l) (lunPort l) k

/-- The units after u that are pending for the same page and contiguous with it, at most n of them: context and unit. -/
def burstFrom (all : List (Nat × Nat)) : Nat → Nat → List (Nat × Nat)
  | 0, _ => []
  | n + 1, u => match all.filter (fun x => x.2 = u) with
    | [] => []
    | l => l ++ burstFrom all n (u + 1)

/-- Those before u, at most n of them. -/
def burstBefore (all : List (Nat × Nat)) : Nat → Nat → List (Nat × Nat)
  | 0, _ => []
  | _, 0 => []
  | n + 1, u + 1 => match all.filter (fun x => x.2 = u) with
    | [] => []
    | l => burstBefore all n u ++ l

/-- The slots of one burst that holds unit u: up to 16 contiguous ones (R125). -/
def burstOf (all : List (Nat × Nat)) (u : Nat) : List (Nat × Nat) :=
  let up := burstFrom all 16 u
  burstBefore all (16 - (up.map (fun x => x.2)).eraseDups.length) u ++ up

/-- Ascending units as runs of contiguous ones: first unit and length. -/
def runs : List Nat → List (Nat × Nat)
  | [] => []
  | u :: r => match runs r with
    | (v, n) :: t => if v = u + 1 then (u, n + 1) :: t else (u, 1) :: (v, n) :: t
    | [] => [(u, 1)]

/-- The slots a transfer of a phase takes, context and unit: the next sector of a read that goes in sector segments (R129,
R131), or one burst of pulls pending together (R125). -/
def transferOf (y : Port) (ph : Phase) : List (Nat × Nat) :=
  let u := ph.units.headD 0
  if ph.whole then (ph.units.filter (fun v => decide (v / 64 = u / 64))).map (fun v => (ph.ctx, v))
  else
    let same := fun q : Phase => decide (q.kind = .pull) && decide (q.fpa = ph.fpa) && decide (q.step = ph.step) && !q.whole
    burstOf ((y.waiting.filter same).flatMap (fun q => q.units.map (fun v => (q.ctx, v)))) u

/-- R125, R22: start the transfer of a pull or of a sector segment: a column change and a data output for each run of contiguous
slots. HITS counts what no array read has been made for (R136). -/
def startTransfer (s : State) (p k : Nat) (ph : Phase) : State :=
  let y := port s p k
  let mine := transferOf y ph
  let same := fun q : Phase => decide (q.kind = .pull) && decide (q.fpa = ph.fpa) && decide (q.step = ph.step) && decide (q.whole = ph.whole)
    && (!ph.whole || decide (q.ctx = ph.ctx))
  let taken := fun (q : Phase) (v : Nat) => same q && mine.contains (q.ctx, v)
  let hits := (y.waiting.map (fun q => (q.owed.filter (taken q)).length)).foldl (· + ·) 0
  let s := bus s ph.lun ((runs (mine.map (fun x => x.2)).eraseDups).flatMap (fun r =>
    [.ce ph.fpa, .cmd 0x06, .col (unitOffset (lunPhys s ph.lun) r.1), .row ph.fpa, .cmd 0xE0, .dout r.2]))
  modPort (if hits = 0 then s else countBy s 0x5800 0x05 hits) p k (fun y =>
    { y with infl := y.infl ++ mine.map (fun x => ⟨x.1, ph.fpa, x.2, ph.step⟩),
             seg := if ph.whole then some (ph.ctx, .pull, 0) else y.seg,
             waiting := (y.waiting.map (fun q =>
               { q with units := q.units.filter (fun v => !taken q v), owed := q.owed.filter (fun v => !taken q v) })).filter
                 (fun q => decide (q.kind ≠ .pull) || decide (q.units ≠ [])) })

/-- R127: the rows one array read takes together, the first of them asked for: all where the parameter data permit the set,
otherwise as many, in their order, as they permit. -/
def readTogether (s : State) (l : Nat) (rows : List W64) : List W64 :=
  let ok := planesTogether s l (lunOf s l).multiRead
  if ok rows then rows else rows.foldl (fun a f => if a = [] ∨ ok (a ++ [f]) then a ++ [f] else a) []

/-- The rows an array read of a phase's page takes together (R127): of every cold pull on another plane of the LUN for the same
page number, one row a plane, and for a patrol step every plane it still has to read. -/
def readRows (s : State) (p k : Nat) (ph : Phase) : List W64 :=
  let y := port s p k
  let cold := (y.waiting.filter (fun q => decide (q.kind = .pull) && decide (q.lun = ph.lun) && decide (fPage q.fpa = fPage ph.fpa)
    && !resident s q.fpa && !pageLoading s q.fpa && decide (q.step < 64))).map (fun q => q.fpa)
  let x := ctxOf s p ph.ctx
  let more := if x.desc.op = 0x40 then x.pages.filter (fun f => decide (fPage f = fPage ph.fpa)) else []
  let rows := (cold ++ more).foldl (fun a f => if a.any (fun g => decide (fPlane g = fPlane f)) then a else a ++ [f]) [ph.fpa]
  let got := readTogether s ph.lun rows
  (List.range 6).flatMap (fun n => got.filter (fun f => decide (fPlane f = n)))

/-- Load state of one plane: the entry names the new page and is loading (R118). Pulls waiting for a page it replaces become
misses (R123); those of the page itself are served from the new content (R130). -/
def beginLoad (pg step : Nat) (s : State) (f : W64) : State :=
  let e := cornOf (fBlun f) (fPlane f)
  let c := corn s e
  let s := if c.valid ∧ ¬ (c.block = fBlock f ∧ c.page = pg) then missPulls s e else s
  modCorn s e (fun _ => { valid := false, held := false, loading := true, step := step, block := fBlock f, page := pg })

/-- R122: is a row read for a class 0 or class 1 descriptor? -/
def demandRow (s : State) (f : W64) : Bool :=
  (port s (lunSpur (fBlun f)) (lunPort (fBlun f))).waiting.any (fun q => decide (q.kind = .pull) && decide (q.cls ≤ 1) && decide (q.fpa = f))

/-- An array read of some rows of a LUN goes out at a step: their entries load, and the LUN is busy. The rows of demand, and the planes named,
are held once they are loaded. -/
def loadRows (s : State) (l : Nat) (rows : List W64) (step c : Nat) (hold : List Nat) : State :=
  let held := hold ++ (rows.filter (demandRow s)).map fPlane
  let f := rows.headD 0
  modLun (rows.foldl (fun s g => beginLoad (fPage g) step s g) s) l (fun x =>
    x.issue (.read (rows.map fPlane) (fBlock f) (fPage f) step c held) s.ao.timeUs)

/-- Issue an array read of some rows of a LUN at a step. -/
def issueRead (s : State) (l : Nat) (rows : List W64) (step c : Nat) (hold : List Nat) : State :=
  loadRows (bus s l (readCycles s l (blockMode s (ctxOf s (lunSpur l) c).desc.region (fBlock (rows.headD 0))) rows)) l rows step c hold

/-- Issue the array read of a ladder whose thresholds stand (R165): a soft read invalidates the plane it reads; a retry read
loads its entry with the new step (R120). -/
def ladderRead (s : State) (l : Nat) (y : Ladder) : State :=
  let f := mkFpaB false l y.plane y.block y.page 0
  let s := modLun s l (fun z => { z with ladder := some { y with phase := 1 } })
  if y.rung = 4 then
    let s := bus (invalidatePlanes s l [y.plane]) l (readCycles s l (blockMode s y.region y.block) [f])
    modLun s l (fun z => z.issue (.soft y.plane y.block y.page y.ctx y.soft) s.ao.timeUs)
  else
    let demand := (y.ctx :: y.joined).any (fun c => decide ((ctxOf s (lunSpur l) c).cls ≤ 1))
    issueRead s l [f] y.step y.ctx (if demand then [y.plane] else [])

/-- The settings and array reads of a probe, one die operation each (R224, R333, R337): every read level takes PROBE_OFFSET through the
region's FEATURE, then page 0 and the last page are read on its planes, together where the die can. -/
def probeOps (s : State) (r : Nat) (f : W64) (planes : List Nat) : List (Bool × List BusCyc) :=
  let l := fBlun f
  let m := rOd s r 0x06
  let sets := fun pg => if offsetFeature s l (od s (0x2140 + rOd s r 0x07) 0x03)
    then (offsetSets s l r m pg (fun _ => od s 0x2200 0x02 % 256)).map (fun c => (false, c)) else []
  let reads := fun pg =>
    let rows := planes.map (fun k => mkFpaB false l k (fBlock f) pg 0)
    if planesTogether s l (lunOf s l).multiRead rows then [(true, readCycles s l m rows)] else rows.map (fun g => (true, readCycles s l m [g]))
  let ops := fun pg => sets pg ++ reads pg
  ops 0 ++ ops (lunPages s l m - 1)

/-- Start a probe (R224): its planes' entries are invalid from here on (R120), and its first operation goes out. -/
def startProbe (s : State) (r : Nat) (f : W64) (planes : List Nat) : State :=
  let l := fBlun f
  let ops := probeOps s r f planes
  let s := bus (invalidatePlanes s l planes) l ((ops.head?).elim [] (fun x => x.2))
  modLun s l (fun x => x.issue (.probe planes (fBlock f) r ops) s.ao.timeUs)

/-- The operation of a probe under way has ended: the next one goes out. -/
def probeNext (s : State) (l : Nat) : State :=
  match (lunOf s l).busy with
  | .probe pl b r (_ :: x :: ops) =>
    modLun (bus s l x.2) l (fun y => { y with busy := .probe pl b r (x :: ops), startUs := s.ao.timeUs, ranUs := 0 })
  | _ => s

/-- The class 0 and 1 contexts of a spur with failed lines that wait for a LUN, each with its pages. -/
def climbers (s : State) (l : Nat) : List (Nat × List W64) :=
  ((spur s (lunSpur l)).ctxs.keys.filter (fun c => decide ((ctxOf s (lunSpur l) c).cls ≤ 1))).map (fun c => (c, climbPages s (lunSpur l) c l))
    |>.filter (fun x => decide (x.2 ≠ []))

/-- The class 0 and 1 contexts of a LUN's spur that wait for it, with pulls or with lines that climb. -/
def readersOn (s : State) (l : Nat) : List Nat :=
  (((port s (lunSpur l) (lunPort l)).waiting.filter (fun ph => decide (ph.kind = .pull) && decide (ph.lun = l) && decide (ph.cls ≤ 1))).map
    (fun ph => ph.ctx) ++ (climbers s l).map (fun x => x.1)).eraseDups

/-- R132: the engine judges one waiting class 0 or 1 read against its busy LUN. A refusal is counted once for the read. -/
def judgeRead (s : State) (p c : Nat) (f : W64) : State :=
  let l := fBlun f
  let x := ctxOf s p c
  if x.cls ≥ 2 then s
  else match (lunOf s l).susp with
    | some u => if u.windowOpen ∧ ¬ u.reads.contains c then modLun s l (fun y => { y with susp := some { u with reads := u.reads ++ [c] } }) else s
    | none =>
      match suspendVerdict s x.desc.region f with
      | .allowed =>
        if (port s p (fPort f)).waiting.any (fun ph => decide (ph.kind = .suspend) && decide (ph.lun = l)) then s
        else postPhase s p (fPort f) { ctx := c, cls := x.cls, kind := .suspend, lun := l, fpa := f }
      | .early => modCtx s p c (fun x => { x with waitRun := true })
      | .denied => if x.denied then s else count (modCtx s p c (fun x => { x with denied := true })) 0x5800 0x0A
      | .none => s

/-- Judge every class 0 and 1 read that waits for a LUN. -/
def judgeWaiting (s : State) (l : Nat) : State :=
  let pulls := ((port s (lunSpur l) (lunPort l)).waiting.filter (fun ph => decide (ph.kind = .pull) && decide (ph.lun = l) && decide (ph.cls ≤ 1))).map
    (fun ph => (ph.ctx, ph.fpa))
  (pulls ++ (climbers s l).flatMap (fun x => x.2.map (fun f => (x.1, f)))).foldl (fun s y => judgeRead s (lunSpur l) y.1 y.2) s

/-- A suspension begins, with the reads of some contexts. -/
def beginSusp (s : State) (l : Nat) (reads : List Nat) : State :=
  modLun (stamp s) l (fun x =>
    { x with susp := some { observed := false, windowOpen := true, reads := reads, since := s.ao.timeUs, no := s.turns + 1 } })

/-- R133 step 1, R340: issue the suspend command of a LUN. The reads waiting now join the suspension. -/
def issueSuspend (s : State) (l : Nat) : State :=
  let b := if (lunOf s l).busy.programs then cmdByte s l 32 else cmdByte s l 16
  beginSusp (bus s l (suspendCycles s l b)) l (readersOn s l)

/-- Change the erase at the head of a LUN. -/
def modErase (s : State) (l : Nat) (f : EraseJob → EraseJob) : State :=
  modLun s l (fun x => { x with erases := match x.erases with
    | j :: r => f j :: r
    | [] => [] })

/-- A suspended operation of a LUN goes on from the issue of its resume command (R133 step 4, R120). -/
def resumed (s : State) (l : Nat) (b : Busy) : State :=
  let s := count (invalidateLun s l) 0x5800 0x09
  let s := modLun s l (fun x => { x with busy := b, suspended := none, susp := none, suspends := x.suspends + 1, startUs := s.ao.timeUs,
                                          issueUs := x.susp.elim 0 (fun u => u.issueUs), ranUs := x.susp.elim 0 (fun u => u.ranUs),
                                          runOk := decide (od s 0x5800 0x03 = 0) })
  let s := match b with
    | .erase _ _ => modErase s l (fun j => { j with suspends := j.suspends + 1 })
    | _ => s
  judgeWaiting s l

/-! ### What a routine's phase does to its LUN (R120, R126)

A phase that a routine has built word by word may hold any command of the table of R330. Those that R120 and R126 speak of have here the
effect they have when the block issues them itself. -/

/-- An array read of some rows goes out. -/
def routineReads (s : State) (l c : Nat) (rows : List W64) : State :=
  if rows = [] then s else loadRows s l rows 0 c []

/-- A program (kind 1) or an erase (kind 2) goes out, or the data-in of a program begins (kind 0). -/
def routineRuns (s : State) (l c region kind : Nat) (rows : List W64) : State :=
  modLun (invalidateLun s l) l (fun x =>
    { x.issue (.routine c kind region rows) s.ao.timeUs with runOk := decide (kind ≠ 0) && decide (od s 0x5800 0x03 = 0), suspends := 0 })

/-- A reset goes out: what a routine ran on the LUN has ended. -/
def routineReset (s : State) (l c : Nat) : State :=
  modLun (cancelLoads (invalidateLun s l) l) l (fun x => { x with busy := match x.busy with
    | .routine _ _ _ _ => .idle
    | .read pl b pg st c' h => if c' = c then .idle else .read pl b pg st c' h
    | y => y })

/-- The rows of the data-in under way on a LUN. -/
def routineRows (s : State) (l : Nat) : List W64 :=
  match (lunOf s l).busy with
  | .routine _ 0 _ rows => rows
  | _ => []

/-- A command byte of a routine: what it does, whether row addresses that follow name rows of an operation, and the rows named so far. -/
def routineCmd (s : State) (l c region n : Nat) (rows : List W64) : State × Bool × List W64 :=
  if n = 0x00 ∨ n = 0x60 then (s, true, rows)
  else if n = 0x80 then (if (lunOf s l).busy = .idle then routineRuns s l c region 0 [] else s, true, rows)
  else if n = 0x32 ∨ n = 0xD1 ∨ n = 0x11 then (s, false, rows)
  else if n = 0x30 then (routineReads s l c rows, false, [])
  else if n = 0x10 then (routineRuns s l c region 1 (routineRows s l), false, [])
  else if n = 0xD0 then (routineRuns s l c region 2 rows, false, [])
  else if n = 0xEF then (invalidateLuns s [l / 2 * 2, l / 2 * 2 + 1], false, [])
  else if n = 0xD5 then (invalidateLun s l, false, [])
  else if n = 0xFA then (routineReset s l c, false, [])
  else if n = 0xFF then (routineReset (routineReset s l c) (twin l) c, false, [])
  else if n ≠ 0 ∧ (lunOf s l).susp = none ∧ (((lunOf s l).busy.erases ∧ n = cmdByte s l 16) ∨ ((lunOf s l).busy.programs ∧ n = cmdByte s l 32)) then
    (beginSusp s l (readersOn s l ++ [c]), false, [])
  else if n ≠ 0 ∧ (lunOf s l).busy = .idle ∧ (((lunOf s l).suspended.any Busy.erases ∧ n = cmdByte s l 24) ∨ ((lunOf s l).suspended.any Busy.programs ∧ n = cmdByte s l 40)) then
    (resumed s l ((lunOf s l).suspended.getD .idle), false, [])
  else (s, false, rows)

/-- One cycle of a routine's phase on a LUN. -/
def routineCyc (l c region : Nat) (a : State × Bool × List W64) (b : BusCyc) : State × Bool × List W64 :=
  match b with
  | .cmd n => routineCmd a.1 l c region n a.2.2
  | .row f =>
    if ¬ a.2.1 ∨ fBlun f ≠ l ∨ fPlane f ≥ 6 then a
    else match (lunOf a.1 l).busy with
      | .routine k 0 r rows => (modLun a.1 l (fun x => { x with busy := .routine k 0 r (rows ++ [f]) }), a.2)
      | _ => (a.1, a.2.1, a.2.2 ++ [f])
  | _ => a

/-- The effect on its LUN of a routine's phase that has gone out. -/
def routineEffect (s : State) (p : Nat) (ph : Phase) : State :=
  let c := if ph.ctx < 63 then ph.ctx else 64
  (ph.cycles.foldl (routineCyc ph.lun c (ctxOf s p ph.ctx).desc.region) (s, false, [])).1

/-- A phase a microword posted has been issued: its transfers are expected, and the commit point it carries takes effect
(R289, R297), and its commands have their effect on the LUN (R120, R126). DESIGN CHOICE (log entry 21): where one word posts on both ports
its commit point is recorded at each port's issue; R297 speaks of one phase. -/
def literalIssued (s : State) (p k : Nat) (ph : Phase) : State :=
  let s := modPort (routineEffect s p ph) p k (fun y => { y with infl := y.infl ++ ph.pulls })
  -- COND 13 speaks of the last DOUT (R292)
  let s := if ph.pulls = [] then s else modCtx s p ph.ctx (fun x => { x with innerFail := false })
  if ph.commit = 0 ∨ ¬ ctxUsed s p ph.ctx then s
  else modCtx s p ph.ctx (fun x =>
    { x with commit := ph.commit, commitAt := ph.commitAt, commitRegs := (x.regs.drop 1).take 6, issued := false })

/-- The phase an engine that has stopped leaves to its ports: one already posted (R289, R318 step 1). -/
def choosePosted (s : State) (y : Port) : Option Nat :=
  oldestPhase y (fun ph => decide (phaseAct s y ph = .transfer) || decide (phaseAct s y ph = .go))

/-- Carry out the phase at position i of a port's waiting set. -/
def runPhase (s : State) (p k i : Nat) : State :=
  let y := port s p k
  match y.waiting[i]? with
  | none => s
  | some ph =>
    let act := phaseAct s y ph
    let s := countPhase s p k ph.cls
    -- R318 step 4 asks which contexts have issued phases
    let s := if ph.kind ≠ .dataIn ∧ ctxUsed s p ph.ctx ∧ act ≠ .nothing then modCtx s p ph.ctx (fun x => { x with issued := true }) else s
    match act with
    | .nothing => s
    | .transfer => startTransfer s p k ph
    | .arrayRead =>
      if ph.kind = .pull then issueRead s ph.lun (readRows s p k ph) 0 ph.ctx []
      else
        let s := modPort s p k (fun y => { y with waiting := y.waiting.eraseIdx i })
        match (lunOf s ph.lun).ladder with
        | some x => ladderRead s ph.lun x
        | none => s
    | .go =>
      match ph.kind with
      | .dataIn =>
        let s := if ph.cycles = [] then s else bus s ph.lun ph.cycles
        modPort s p k (fun y => { y with seg := some (ph.ctx, .dataIn, ph.step - 1), waiting := setAt y.waiting i { ph with cycles := [] } })
      | .suspend =>
        let s := modPort s p k (fun y => { y with waiting := y.waiting.eraseIdx i })
        if ph.cycles = [] then issueSuspend s ph.lun else literalIssued (bus s ph.lun ph.cycles) p k ph
      | .probe => startProbe (modPort s p k (fun y => { y with waiting := y.waiting.eraseIdx i })) ph.step ph.fpa ph.units
      | _ => literalIssued (bus (modPort s p k (fun y => { y with waiting := y.waiting.eraseIdx i })) ph.lun ph.cycles) p k ph

/-- PORT_PHASE_SELECT (R124): the port can start a phase and the engine picks one. While a segment is under way it goes on
to its boundary; with its engine stopped the port issues what has been posted already,
and on a channel that has lost its training, or in a ridge that is not Active, nothing (R347, R377). -/
def execPortPhaseSelect (spurNo portNo : Nat) (s : State) : Host.Outcome State Fault Refusal :=
  gate s (
    let k := portNo % 2
    let y := port s spurNo k
    if ¬ portFree s (16 * (2 * spurNo + k)) then s
    else match (if (spur s spurNo).stopped then choosePosted s y else choosePhase s spurNo k) with
      | some i => runPhase s spurNo k i
      | none => s)

/-! ### Posting a read -/

/-- Numbers as a mask. -/
def numMask (l : List Nat) : Nat := l.foldl (fun a k => a ||| 2 ^ k) 0

/-- Post the transfers of some wanted lines of one page, in ascending order: pulls of LINE_READ, GATHER_LINE_READ and merge
sources, sector segments of every other read and of sealed sectors (R129, R131). A page that is not resident is a miss at once
(R136): a miss or hit for each line asked for of the first two, one for the page otherwise; what a replay posts again counts only
where due names it. -/
def postPage (s : State) (p c : Nat) (ws : List Want) (due : Nat → Bool) (k : Nat) : State :=
  let d := (ctxOf s p c).desc
  let mine := ws.filter (fun w => decide (w.key / 256 = k))
  let f := keyFpa (k * 256)
  let bits := numMask (mine.map (fun w => w.line))
  let units := (List.range 256).filter bits.testBit
  let owed := (if d.op = 0x01 ∨ d.op = 0x04 then (mine.filter (fun w => decide (w.dst < 2 ^ 24))).map (fun w => w.line) else units.take 1).filter
    (fun u => due (k * 256 + u))
  let whole := !(decide (d.op = 0x01) || decide (d.op = 0x04) || decide (d.op = 0x08)) || verifies s d
  if resident s f then postUnits s p c f units 0 whole owed
  else postUnits (countBy s 0x5800 0x06 owed.length) p c f units 0 whole []

/-- Post the transfers of some wanted lines, page by page. -/
def postWants (s : State) (p c : Nat) (ws : List Want) : State :=
  (ws.map (fun w => w.key / 256)).eraseDups.foldl (fun s k => postPage s p c ws (fun _ => true) k) s

/-- The line keys of a context whose pulls HITS or MISSES has still to count (R136). -/
def owedKeys (s : State) (p c : Nat) : List Nat :=
  let f := fun y : Port => (y.waiting.filter (fun ph => decide (ph.ctx = c))).flatMap (fun ph => ph.owed.map (fun u => pageKey ph.fpa * 256 + u))
  f (port s p 0) ++ f (port s p 1)

/-- R299: post the wanted lines of a replayed read again. -/
def postAgain (s : State) (p c : Nat) (ws : List Want) (due : List Nat) : State :=
  (ws.map (fun w => w.key / 256)).eraseDups.foldl (fun s k => postPage s p c ws due.contains k) s

/-- Drop what a context has on its spur's ports; slots on their way arrive for nobody. -/
def dropPhases (s : State) (p c : Nat) : State :=
  let f := fun y : Port => { y with waiting := y.waiting.filter (fun ph => !(decide (ph.ctx = c) &&
                                      (decide (ph.kind = .pull) || (decide (ph.kind = .suspend) && decide (ph.cycles = []))))),
                                    infl := y.infl.map (fun u => if u.ctx = c then { u with ctx := 64 } else u) }
  modPort (modPort s p 0 f) p 1 f

end Sys2Proof.Machine
end

