-- ==== Sys2Proof/Machine/Move.lean ====
section
/-! DEFINITION. Erases and markers (R208 to R222), the half-erased table and the fresh-erase record (R222, R223), and
Traverse gap moves (R45 to R50, R226), as operations; the rows stand in Erase.lean. -/

namespace Sys2Proof.Machine

/-! ### Contexts -/

/-- R133: a read that has ended is in a suspension no more. -/
def leaveSusp (s : State) (l c : Nat) : State :=
  if (lunOf s l).susp.any (fun u => u.reads.contains c) then
    modLun s l (fun x => { x with susp := x.susp.map (fun u => { u with reads := u.reads.filter (fun k => k ≠ c) }) })
  else s

/-- A routine's context ends: what it has posted on a LUN of its spur goes on for nobody, and data-in it has not confirmed is over. -/
def leaveLun (c : Nat) (s : State) (l : Nat) : State :=
  match (lunOf s l).busy with
  | .routine k kind r rows => if k = c then modLun s l (fun x => { x with busy := if kind = 0 then .idle else .routine 64 kind r rows }) else s
  | .read pl b pg st k held => if k = c then modLun s l (fun x => { x with busy := .read pl b pg st 64 held }) else s
  | _ => s

/-- The same for every LUN of a spur. -/
def leaveLuns (s : State) (p c : Nat) : State := (s.luns.keys.filter (fun l => decide (lunSpur l = p))).foldl (leaveLun c) s

/-- A context ends (END): its commit store entry is invalid and it is free (R298); body items it has not read are dropped (R305). -/
def freeCtx (s : State) (p c : Nat) : State :=
  let s := readBodies s p (ctxOf s p c).cls (ctxOf s p c).bodies
  let s := leaveSusp s (fBlun (ctxOf s p c).desc.phys) c
  let s := if (ctxOf s p c).desc.op ≥ 0x80 then leaveLuns s p c else s
  modSpur (dropPhases s p c) p (fun x => { x with ctxs := x.ctxs.set {} c {}, current := if x.current = some c then none else x.current })

/-! ### Half-erased table and fresh-erase record -/

/-- The place of a (LUN, block) in a ridge's half-erased table, its own or the lowest free of 512. -/
def halfPlace (s : State) (l blk : Nat) : Option Nat :=
  let m := (ridge s (lunRidge l)).half
  match m.entries.find? (fun e => e.2.used ∧ e.2.lun = l ∧ e.2.block = blk) with
  | some e => some e.1
  | none => (List.range 512).find? (fun i => !(m.get {} i).used)

/-- R222: enter planes of a block; with the table full the LUN is locked. A block that has an entry keeps its place: its planes
are joined and the later cause stands (DESIGN CHOICE, log entry 29). -/
def halfInsert (s : State) (l blk planes cause : Nat) : State :=
  match halfPlace s l blk with
  | some i =>
    let f := fun e : HalfE => ({ used := true, lun := l, block := blk, planes := (if e.used then e.planes else 0) ||| planes, cause := cause } : HalfE)
    modRidge s (lunRidge l) (fun r => { r with half := r.half.modify {} i f })
  | none => modLun s l (fun x => { x with heLock := true })

/-- R210: an erase clears a plane of a block. -/
def halfClear (s : State) (l blk plane : Nat) : State :=
  let f := fun e : Nat × HalfE =>
    if e.2.used ∧ e.2.lun = l ∧ e.2.block = blk ∧ e.2.planes.testBit plane then (e.1, { e.2 with planes := e.2.planes - 2 ^ plane }) else e
  modRidge s (lunRidge l) (fun r =>
    { r with half := { entries := (r.half.entries.map f).filter (fun e => !(e.2.used && decide (e.2.planes = 0))) } })

/-- R222: an erase has passed on a locked LUN: unresolved blocks that fit now are entered, and the lock clears once all
fit. -/
def lockRetry (s : State) (l : Nat) : State :=
  if ¬ (lunOf s l).heLock then s
  else ((lunOf s l).markers.filter (fun m => decide (m.flag = (lunOf s l).flagBlock))).foldl (fun s m =>
      if m.planes = 0 then s else halfInsert s l m.block m.planes 0)
    (modLun s l (fun x => { x with heLock := false }))

/-- R223: the last 1,024 blocks of the ridge whose erase or probe passed, each with the planes that did (R211). A block that is
recorded again becomes the newest (DESIGN CHOICE, log entry 29). -/
def freshAdd (s : State) (l blk planes : Nat) : State :=
  modRidge s (lunRidge l) (fun r =>
    let old := (r.fresh.find? (fun x => x.1 = l ∧ x.2.1 = blk)).map (fun x => x.2.2)
    let k := r.fresh.filter (fun x => ¬ (x.1 = l ∧ x.2.1 = blk)) ++ [(l, blk, old.getD 0 ||| planes)]
    { r with fresh := k.drop (k.length - 1024) })

/-! ### Markers (R214 to R220) -/

/-- R215: a marker record before its CHECK. -/
def markerBody (kind planes blk region result epoch seq time : Nat) : W512 :=
  place 512 0 (kind % 256) ||| place 512 8 (planes % 64) ||| place 512 16 (blk % 32768) ||| place 512 32 (region % 256)
    ||| place 512 40 (result % 256) ||| place 512 48 (epoch % 65536) ||| place 512 64 (seq % 2 ^ 48) ||| place 512 128 (time % 2 ^ 64)
/-- With CHECK: CRC-32C over bytes 0 to 59. -/
def markerRecord (kind planes blk region result epoch seq time : Nat) : W512 :=
  let b := markerBody kind planes blk region result epoch seq time
  b ||| place 512 480 (crc32c (bytesOf 60 b)).toNat
/-- R216: a record whose KIND and CHECK are good. -/
def markerGood (w : W512) : Bool :=
  decide (1 ≤ bitsOf w 7 0) && decide (bitsOf w 7 0 ≤ 4) && decide ((crc32c (bytesOf 60 w)).toNat = bitsOf w 511 480)

/-- R220: a DONE for planes of a block resolves the records of that block up to its sequence number. -/
def resolveMarks (l : List Marker) (blk planes result seq : Nat) : List Marker :=
  (l.map (fun m => if m.block = blk ∧ m.seq ≤ seq then
    { m with planes := (List.range 8).foldl (fun a i => if m.planes.testBit i ∧ ¬ (planes.testBit i ∧ ¬ result.testBit i) then a + 2 ^ i else a) 0 }
   else m)).filter (fun m => decide (m.planes ≠ 0))

/-- Count physical pages programmed on a ridge (R158, R207). -/
def countPages (s : State) (rg n : Nat) : State :=
  let q := od s (0x2110 + rg) 0x01
  countBy (setOd s (0x2110 + rg) 0x01 ((q + n) % 2 ^ 44)) (0x5010 + rg) 0x07 n

/-- How many pages a switch programs: page 0 takes SWITCH and up to 255 CARRY records, later pages 256 each (R219). -/
def flagPages (n : Nat) : Nat := 1 + (n - 255 + 255) / 256

/-- The cycles and counts of one marker page's program, the last of them of the kinds SWITCH and CARRY too (R214). -/
def markerPage (s : State) (l fb page region : Nat) (records : List W512) : State :=
  let f := mkFpaB false l 0 fb page 0
  let q := seqOf (lunRidge l) (od s (0x2110 + lunRidge l) 0x01)
  let s := bus (invalidateLun s l) l (pageCycles s l f (markerBytes s f region q records))
  count (countPages s (lunRidge l) 1) 0x2200 0x08

/-- The SWITCH record of a flag block (R215, R216). -/
def switchRecord (s : State) (l fb : Nat) : W512 :=
  markerRecord 4 1 fb 0 0 (od s 0x2100 0x06) (lunOf s l).eraseSeq s.ao.timeUs

/-- A CARRY record: the fields of the record it copies (R216), its reserved bits zero (R7, R215). -/
def carryRecord (w : W512) : W512 :=
  let keep := place 512 8 0x3F ||| place 512 16 0x7FFF ||| place 512 32 (2 ^ 32 - 1) ||| place 512 64 (2 ^ 48 - 1) ||| place 512 128 (2 ^ 64 - 1)
  let b := (w &&& keep) ||| place 512 0 3
  b ||| place 512 480 (crc32c (bytesOf 60 b)).toNat

/-- R219 step 1: the unresolved INTENT and CARRY records of the current flag block. -/
def openMarks (s : State) (l : Nat) : List Marker := (lunOf s l).markers.filter (fun m => decide (m.flag = (lunOf s l).flagBlock))

/-- The records of the pages of a switch: SWITCH and 255 CARRY records, then 256 CARRY records a page (R219). -/
def switchRecords (s : State) (l fb page : Nat) : List W512 :=
  let c := (openMarks s l).map (fun m => carryRecord m.record)
  if page = 0 then switchRecord s l fb :: c.take 255 else (c.drop (255 + 256 * (page - 1))).take 256

/-- R218, R405: the program of a marker page has failed. -/
def markerRecordOf (s : State) (l fb page byte kind region : Nat) : State :=
  cairn s 0x2A (cu 12 l) region byte (mkFpaB false l 0 fb page 0) kind 0 0

/-- How a switch, or a try of it, ends: done, short of energy for its next page, or failed with a status byte. -/
inductive SwitchEnd where
  | done | short | failed (byte : Nat)
deriving DecidableEq, Repr

/-- The charge of one page of a switch: taken as its program is issued, and returned as it ends (R217). -/
def switchCharge (s : State) : State := notePeak (spend s (eProgram s 0)) (demand s + eProgram s 0)

/-- R219 step 3: the next n pages of a switch from a page on, each with its charge (R217). Page 0 is the SWITCH record's, a later one
CARRY. -/
def switchPages (l fb : Nat) : Nat → Nat → State → State × SwitchEnd × Nat
  | 0, page, s => (s, .done, page)
  | n + 1, page, s =>
    if ¬ covers s (eProgram s 0) then (s, .short, page)
    else
      let ws := switchRecords s l fb page
      let d := dieReport (markerPage (switchCharge s) l fb page (bitsOf (ws.headD 0) 39 32) ws)
      if d.1.testBit 0 then (markerRecordOf d.2 l fb page d.1 (if page = 0 then 4 else 3) 0xFFFF, .failed d.1, page)
      else switchPages l fb n (page + 1) d.2

/-- R219 steps 2 to 4 on one flag block: erase it, program what is unresolved, and take it as current, where a CARRY stands for
every plane of the record it copies. -/
def flagAttempt (s : State) (l : Nat) (w : Switch) : State × SwitchEnd × Nat :=
  let e := dieReport (bus (invalidateLun s l) l (eraseCycles s l 0 [mkFpaB false l 0 w.fb 0 0]))
  if ¬ w.erased ∧ e.1.testBit 0 then (e.2, .failed e.1, 0)
  else
    let s := if w.erased then s else count e.2 (0x2210 + lunRidge l) 0x01
    let n := flagPages (openMarks s l).length
    let r := switchPages l w.fb (n - w.page) w.page s
    if r.2.1 = .done then
      let marks := (openMarks s l).map (fun m => { m with planes := bitsOf m.record 13 8, flag := w.fb })
      (count (modLun r.1 l (fun x => { x with flagBlock := w.fb, flagPage := n, flagBad := false, markers := marks })) 0x2200 0x09, .done, n)
    else r

/-- What a try leaves of a switch: nothing once it is done or has failed on both blocks, and otherwise the page it waits with. -/
def switchLeft (l : Nat) (w : Switch) (r : State × SwitchEnd × Nat) : State × SwitchEnd :=
  match r.2.1 with
  | .done => (modLun r.1 l (fun x => { x with switching := none }), .done)
  | .short => (modLun r.1 l (fun x => { x with switching := some { w with erased := true, page := r.2.2 } }), .short)
  | .failed b => (modLun r.1 l (fun x => { x with switching := none, flagBad := true }), .failed b)

/-- R219: switch to the other flag block; where that fails, once more on the first. A switch that was short of energy goes on with its
next page. -/
def flagSwitch (s : State) (l : Nat) : State × SwitchEnd :=
  let cur := (lunOf s l).flagBlock
  let w := (lunOf s l).switching.getD { fb := 1 - cur }
  let a := flagAttempt s l w
  match a.2.1 with
  | .failed _ =>
    if w.second then switchLeft l w a
    else
      let v : Switch := { fb := cur, second := true }
      switchLeft l v (flagAttempt a.1 l v)
  | _ => switchLeft l w a

/-- R357: the erase at the head of a LUN is refused its energy: a denial, one for each grant it waits through. -/
def eraseShort (s : State) (l : Nat) : State :=
  if (lunOf s l).erases.any (fun j => j.denied) then s else modErase (deny s) l (fun j => { j with denied := true })

/-- Program a marker page: the LUN is busy, its page is taken, its energy charged until the program ends (R217). -/
def programMarker (s : State) (l : Nat) (j : EraseJob) (kind : Nat) : State :=
  let x := lunOf s l
  let seq := (x.erases.head?.map (fun j => j.seq)).getD 0
  let w := markerRecord kind (planeMask j.planes) (fBlock j.desc.phys) j.desc.region (if kind = 2 then j.fail else 0) (od s 0x2100 0x06) seq s.ao.timeUs
  let s := markerPage s l x.flagBlock x.flagPage j.desc.region [w]
  let s := modLun s l (fun x => { x.issue .marker s.ao.timeUs with flagPage := x.flagPage + 1 })
  let s := modErase s l (fun j => { j with phase := if kind = 1 then .intent else .doneMark, record := w })
  peakDemand (modCtx (spend s (eProgram s 0)) (lunSpur l) j.ctx (fun c => { c with charge := [(.program 0, 1)] }))

/-- The charge of a marker program ends with it. -/
def markerEnd (s : State) (l : Nat) (j : EraseJob) : State :=
  modCtx (modLun s l (fun x => { x with busy := .idle })) (lunSpur l) j.ctx (fun c => { c with charge := [] })

/-- R208, R120: issue the erase command on some planes of the erase at the head of a LUN. -/
def eraseOn (s : State) (l : Nat) (j : EraseJob) (planes : List Nat) : State :=
  let blk := fBlock j.desc.phys
  let m := blockMode s j.desc.region blk
  let s := bus (invalidateLun s l) l (eraseCycles s l m (planes.map (fun k => mkFpaB false l k blk 0 0)))
  modLun s l (fun x => { x.issue (.erase planes blk) s.ao.timeUs with runOk := decide (od s 0x5800 0x03 = 0) })

/-- R208, R209: issue an erase, on all its planes together where the die can, and otherwise on its first. -/
def issueErase (s : State) (l : Nat) (j : EraseJob) : State :=
  let rows := j.planes.map (fun k => mkFpaB false l k (fBlock j.desc.phys) 0 0)
  let n := if planesTogether s l (lunOf s l).multiErase rows then j.planes.length else 1
  let s := modLun (eraseOn s l j (j.planes.take n)) l (fun x => { x with suspends := 0 })
  judgeWaiting (modErase s l (fun i => { i with phase := .erasing, left := j.planes.drop n })) l

/-- R208: the next plane of an erase issued plane by plane. -/
def nextErase (s : State) (l : Nat) (j : EraseJob) (k : Nat) (left : List Nat) : State :=
  judgeWaiting (modErase (eraseOn s l j [k]) l (fun i => { i with left := left })) l

/-- Give the erase at the head of a LUN the next ERASE_SEQ (R217). -/
def takeSeq (s : State) (l : Nat) : State :=
  let q := (lunOf s l).eraseSeq
  modErase (modLun s l (fun x => { x with eraseSeq := (q + 1) % 2 ^ 48 })) l (fun j => { j with seq := q })

/-- Is a LUN free for an erase command or a marker program, and is it its turn (R123, R124, R457, R365)? -/
def eraseOpen (s : State) (l : Nat) : Bool :=
  lunIdle s l && arrayOpen s l && portTurn s l 3 (((lunOf s l).erases.head?).elim 0 (fun j => j.no))

/-- Start the erase at the head of a LUN if it can start: units settled, LUN free and its port's turn, a page and the energy for
the marker. An INTENT programmed once more after a switch keeps its ERASE_SEQ (R218). -/
def startErase (s : State) (l : Nat) : State :=
  match (lunOf s l).erases with
  | j :: _ =>
    if j.phase ≠ .queued ∨ eraseBlocked s l j ∨ ¬ eraseOpen s l then s
    else if j.journal then
      (if switchDue s l then s
      else if covers s (eProgram s 0) then programMarker (if j.retried then tookTurn s l 3 else takeSeq (tookTurn s l 3) l) l j 1
      else eraseShort s l)
    else issueErase (tookTurn s l 3) l j
  | [] => s

/-- R221: the INTENT of the erase at the head of a LUN stands on flash: its erase command goes out when the LUN and its port
let it. -/
def startMarked (s : State) (l : Nat) : State :=
  match (lunOf s l).erases with
  | j :: _ => if j.phase = .marked ∧ eraseOpen s l then issueErase (tookTurn s l 3) l j else s
  | [] => s

/-- Program the DONE marker of the erase at the head of a LUN when a page is there and energy allows (R217, R221). -/
def startDone (s : State) (l : Nat) : State :=
  match (lunOf s l).erases with
  | j :: _ =>
    if j.phase ≠ .doneMark ∨ ¬ eraseOpen s l ∨ switchDue s l then s
    else if covers s (eProgram s 0) then programMarker (tookTurn s l 3) l j 2
    else eraseShort s l
  | [] => s

/-- R208: the next plane of an erase issued plane by plane goes out when the LUN and its port let it. -/
def startNext (s : State) (l : Nat) : State :=
  match (lunOf s l).erases with
  | j :: _ =>
    match j.left with
    | k :: left => if j.phase = .erasing ∧ eraseOpen s l then nextErase (tookTurn s l 3) l j k left else s
    | [] => s
  | [] => s

/-- Whatever the erase at the head of a LUN can do next. -/
def eraseGo (s : State) (l : Nat) : State := startDone (startNext (startMarked (startErase s l) l) l) l

/-! ### Gap moves -/

/-- The move of a LUN, whatever its region. -/
def moveOn (s : State) (l : Nat) : Option Move := s.moves.find? (fun m => m.lun = l ∧ m.ctx ≠ none)

/-- Change a move. -/
def modMove (s : State) (r l : Nat) (f : Move → Move) : State :=
  { s with moves := s.moves.map (fun m => if m.region = r ∧ m.lun = l then f m else m) }

/-- Does a gap move of any region run on a LUN (R45)? -/
def moveRuns (s : State) (l : Nat) : Bool := s.moves.any (fun m => decide (m.lun = l))

/-- R45: start a gap move on a LUN when its count has reached the interval, none of any region runs there, STALLED is clear and the
region is RUNNING; none once the rail is down (R365). -/
def maybeMove (s : State) (r l : Nat) : State :=
  let t := tvOf s r l
  if traverseOn s r ∧ t.count ≥ rOd s r 0x10 ∧ ¬ moveRuns s l ∧ ¬ t.stalled ∧ (region s r).state = 1 ∧ ¬ railDown s then
    let src := moveSrc (winL s r) t.gap
    let s := modTv s r l (fun t => { t with count := 0, moving := true })
    let s := { s with moves := s.moves ++ [{ region := r, lun := l, src := src, dst := t.gap }] }
    let f := mkFpaB false l 0 (rOd s r 0x03 + src) 0 0
    pushDesc s { op := 0x41, cls := 3, region := r, named := f, phys := f }
  else s

/-- R45: the test for a move on a LUN, for every region in turn: where several are due the lowest region number goes first (DESIGN
CHOICE, log entry 28). -/
def testMoves (s : State) (l : Nat) : State := (List.range 256).foldl (fun s r => maybeMove s r l) s

/-- R45: an ERASE has completed on a LUN of a region: its ERASE_COUNT rises, and the test for a move is made. -/
def eraseCounted (s : State) (r l : Nat) : State :=
  testMoves (if traverseOn s r then modTv s r l (fun t => { t with count := sat 65535 (t.count + 1) }) else s) l

/-- The page of a move at place n of its programming order: wordline after wordline, so that each wordline's pages stand
together and one-shot programming can take them (R195). Where the die numbers its pages wordline by wordline this is the ascending
order of R46; where it numbers them position by position (WL_ORDER 1) it is not: DEDUCED, log entry 28. -/
def movePage (s : State) (r l n : Nat) : Nat :=
  let m := rOd s r 0x06
  pageOf s l m (n / modeBits m) (n % modeBits m)
/-- The next place of that order, at or after n, whose page lies on the way to the last page of the source. -/
def movePlace (s : State) (m : Move) (n : Nat) : Option Nat :=
  ((List.range (lunPages s m.lun (rOd s m.region 0x06))).drop n).find? (fun k => decide (movePage s m.region m.lun k ≤ m.last))

/-- R46: take a Ledge unit for the staging of a move, if a record, the granules and the energy are there. -/
def moveTakeUnit (s : State) (m : Move) : State :=
  let planes := lunPlanes s m.lun
  let rg := lunRidge m.lun
  let c := programCharge s m.region planes
  if m.unit ≠ none ∨ granulesFree s rg < planes ∨ freeRecord s rg 232 0 = none then s
  else if ¬ covers s c then (if m.denied then s else modMove (deny s) m.region m.lun (fun m => { m with denied := true }))
  else
    let u := takeRecord s rg
    let pg := if m.stage = 3 then movePage s m.region m.lun m.page else 0
    let f := mkFpaB false m.lun 0 (rOd s m.region 0x03 + m.dst) pg 0
    let s := openUnit (spend s c) u .gapMove m.region f (planes - 1) false
    peakDemand (modMove (modUnit s u (fun d => { d with charge := programKinds s m.region planes, loading := 1, copied := true })) m.region m.lun (fun m => { m with unit := some u }))

/-- Ask for the header of every plane of the page a move looks at (R46 step 3). -/
def moveLook (s : State) (m : Move) (p c : Nat) : State :=
  let s := modCtx s p c (fun x => { x with stage := 5, hdr := [], headers := [] })
  (List.range (lunPlanes s m.lun)).foldl (fun s k =>
    postPull s p c (mkFpaB false m.lun k (rOd s m.region 0x03 + m.src) m.page 0) [511] 0) s

/-- The pages whose headers a copy needs: COPYBACK's source, a gap move's (R155, R157). -/
def headerPages (s : State) (x : Ctx) : List W64 :=
  if x.desc.op = 0x11 then
    (List.range (x.desc.flags % 8 + 1)).map (fun k => fSetLine (fSetPlane x.desc.phys (fPlane x.desc.phys + k)) 0)
  else if x.desc.op = 0x41 then
    match moveOn s (fBlun x.desc.phys) with
    | some m =>
      let pg := if x.stage = 5 then m.page else movePage s m.region m.lun m.page
      (List.range (lunPlanes s m.lun)).map (fun k => mkFpaB false m.lun k (rOd s m.region 0x03 + m.src) pg 0)
    | none => []
  else []

/-- Has a context the header of a page? -/
def Ctx.hasHeader (x : Ctx) (f : W64) : Bool := x.hdr.any (fun h => decide (h.1 = pageKey f))

/-- Ask for the headers a copy needs and does not have. -/
def postHeaders (s : State) (p c : Nat) : State :=
  let x := ctxOf s p c
  ((headerPages s x).filter (fun f => !x.hasHeader f)).foldl (fun s f => postPull s p c f [511] 0) s

/-- Read the page a move copies next, on every plane. -/
def moveRead (s : State) (m : Move) (p c : Nat) : State :=
  let pg := movePage s m.region m.lun m.page
  let ws := (List.range (lunPlanes s m.lun)).flatMap (fun k => (List.range 256).map (fun i =>
    let f := mkFpaB false m.lun k (rOd s m.region 0x03 + m.src) pg i
    ({ plane := k, line := i, dst := 2 ^ 24, fpa := f, named := f } : Want)))
  let s := modCtx s p c (fun x => { x with stage := 0, wants := ws, lines := [], hdr := [], headers := [], lost := [], acc := {} })
  postWants (postHeaders s p c) p c ws

/-- Go on with a move: its first unit starts the erase of the destination, a later one the next page. -/
def moveGo (s : State) (m : Move) : State :=
  match m.ctx with
  | none => s
  | some c =>
    let p := lunSpur m.lun
    if m.stage = 0 then
      let s := moveTakeUnit s m
      match moveOf s m.region m.lun with
      | some m' =>
        if m'.unit = none then s
        else
          let f := mkFpaB false m.lun 0 (rOd s m.region 0x03 + m.dst) 0 0
          let j : EraseJob := { who := .move, desc := { (ctxOf s p c).desc with named := f, phys := f }, ctx := c,
                                planes := List.range (lunPlanes s m.lun), journal := decide (rOd s m.region 0x05 = 1), no := s.turns + 1 }
          startErase (modLun (modMove (stamp s) m.region m.lun (fun m => { m with stage := 1 })) m.lun
            (fun x => { x with erases := x.erases ++ [j] })) m.lun
      | none => s
    else if m.stage = 3 then
      let s := moveTakeUnit s m
      match moveOf s m.region m.lun with
      | some m' => if m.unit = none ∧ m'.unit ≠ none then moveRead s m' p c else s
      | none => s
    else s

/-- Try every move of a ridge that waits for a unit or for energy. -/
def moveRetry (s : State) (rg : Nat) : State :=
  (s.moves.filter (fun m => decide (lunRidge m.lun = rg) && decide (m.unit = none))).foldl moveGo s

/-- The units of a move that are not in flight go to DONE: the one it has open, and those that wait for the rest of their wordline. -/
def dropMoveUnits (s : State) (m : Move) : State :=
  ((unitsOf s (lunRidge m.lun)).filter (fun e => decide (e.2.kind = .gapMove) && decide (e.2.region = m.region) && decide (fBlun e.2.phys = m.lun)
    && (decide (e.2.state = .opened) || decide (e.2.state = .committed)))).foldl (fun s e => toDone s e.1) s

/-- R50: a move stops without committing: STALLED, counted, TRAVERSE_STALLED notice and record. Held entries go on, and the LUN's next
move may start (R45). -/
def moveStall (s : State) (m : Move) (blk : Nat) : State :=
  let s := modTv s m.region m.lun (fun t => { t with moving := false, stalled := true })
  let s := { s with moves := s.moves.filter (fun x => ¬ (x.region = m.region ∧ x.lun = m.lun)) }
  let s := count s (0x2000 + m.region) 0x15
  let s := dropMoveUnits s m
  let s := cairn (regionNotice s m.region 0x11 m.lun blk 0) 0x19 (cu 12 m.lun) m.region m.lun 0 blk 0 0
  let s := match m.ctx with
    | some c => freeCtx s (lunSpur m.lun) c
    | none => s
  testMoves (releaseMoves s) m.lun

/-- The next header of the search for the last page of a source (R46 step 3): found, or one page lower, or none at all. -/
def moveFound (s : State) (m : Move) (p c : Nat) : State :=
  if (ctxOf s p c).hdr.any (fun h => decide (h.2 = 2)) then
    let s := modMove s m.region m.lun (fun x => { x with stage := 3, last := m.page, page := 0 })
    match moveOf s m.region m.lun with
    | some m' => moveRead s m' p c
    | none => s
  else if m.page = 0 then
    let s := modMove s m.region m.lun (fun x => { x with stage := 4 })
    match m.unit with
    | some u => modMove (toDone s u) m.region m.lun (fun x => { x with unit := none })
    | none => s
  else
    let s := modMove s m.region m.lun (fun x => { x with page := m.page - 1 })
    moveLook s { m with page := m.page - 1 } p c

/-- R48: does a gap move hold what stands in the hold store: an entry, or a frame's work? -/
def moveKeeps (s : State) (h : Held) : Bool :=
  match entOf s h.desc.q h.desc.idx with
  | some x => moveHolds s x.raw
  | none => underMove s h.desc.region h.desc.named || (decide (h.desc.op = 0x11) && underMove s h.desc.region h.desc.target)

/-- R48: what is held for moves that run no more leaves the hold store. The Gate admits nothing more by then (R365), so it goes no
further, and what it addresses is mapped with S and G as they stand. -/
def releaseAbandoned (s : State) : State :=
  (s.hold.filter (fun h => decide (h.cause = .gapMove) && !moveKeeps s h)).foldl
    (fun s h => unhold s h.id) s

/-- R51: the power-fail sequence abandons a move: the state stays that before it, and what R48 held for it is released. -/
def abandonMove (s : State) (m : Move) : State :=
  let s := modTv s m.region m.lun (fun t => { t with moving := false })
  let s := { s with moves := s.moves.filter (fun x => ¬ (x.region = m.region ∧ x.lun = m.lun)) }
  let s := releaseAbandoned (dropMoveUnits s m)
  match m.ctx with
  | some c => freeCtx s (lunSpur m.lun) c
  | none => s

/-- R365 step 2: the power-fail sequence abandons every move but those with a program in flight, which end with it. -/
def abandonMoves (s : State) : State :=
  (s.moves.filter (fun m => !m.unit.any (fun u => decide ((unit s u).state = .programming)))).foldl abandonMove s

/-- A page of a move is on flash, or its unit waits for the rest of its wordline: the next page, or the end. -/
def moveNext (s : State) (m : Move) : State :=
  if railDown s then abandonMove s m
  else match movePlace s m (m.page + 1) with
    | none => modMove s m.region m.lun (fun x => { x with stage := 4, unit := none })
    | some n =>
      let s := modMove s m.region m.lun (fun x => { x with page := n, unit := none })
      match moveOf s m.region m.lun with
      | some m' => moveGo s m'
      | none => s

/-! ### The end of an erase -/

/-- R210: a plane of a block has been erased. -/
def planeErased (s : State) (l : Nat) (j : EraseJob) (k : Nat) : State :=
  let blk := fBlock j.desc.phys
  let s := count s (0x2210 + lunRidge l) 0x01
  let s := poisonErase s j.desc.region j.desc.named k
  if j.who = .move then s else freshAdd (halfClear s l blk k) l blk (2 ^ k)

/-- The status of an erase that ran (R110, R111). -/
def eraseStatus (j : EraseJob) : Status :=
  if j.fail = 0 then ⟨0, 0, j.suspends⟩
  else ⟨0x32, lowestFrom (BitVec.ofNat 8 j.fail) 8 0 * 256 + j.byte, fBlock j.desc.phys⟩

/-- Take the erase at the head of a LUN off it. -/
def popErase (s : State) (l : Nat) : State := modLun s l (fun x => { x with erases := x.erases.drop 1, busy := .idle })

/-- An erase ends with a status: its failure is counted and recorded under the block its entry named (R43), its entry reports,
its move goes on or stops; the next erase of the LUN may start. -/
def endErase (s : State) (l : Nat) (j : EraseJob) (st : Status) : State :=
  let p := lunSpur l
  let blk := fBlock j.desc.phys
  let s := popErase s l
  let s := if st.code = 0x32 ∧ j.fail ≠ 0 then cairn s 0x28 (cu 12 l) j.desc.region st.detail (fSetPage (fSetLine j.desc.named 0) 0) j.fail 0 0 else s
  let s := match j.who with
    | .entry =>
      let s := if st.code = 0x32 then count s (0x2210 + lunRidge l) 0x02 else s
      let s := count s (0x2000 + j.desc.region) 0x16
      eraseCounted (reportDesc (freeCtx s p j.ctx) j.desc st) j.desc.region l
    | .member => eraseCounted (freeCtx s p j.ctx) j.desc.region l
    | .move =>
      match moveOf s j.desc.region l with
      | none => s
      | some m =>
        if st.code = 0 then
          let s := modMove s m.region l (fun x => { x with stage := 2, page := lunPages s l (rOd s m.region 0x06) - 1 })
          moveLook s { m with page := lunPages s l (rOd s m.region 0x06) - 1 } p j.ctx
        else moveStall s m blk
  eraseGo s l

/-- R210, R211: the erase at the head of a LUN is complete: effects on the planes that passed, then its status. -/
def settleErase (s : State) (l : Nat) (j : EraseJob) : State :=
  let ok := j.planes.filter (fun k => ¬ j.fail.testBit k)
  let s := ok.foldl (fun s k => planeErased s l j k) s
  let s := if ok = [] then s else lockRetry s l
  endErase s l j (eraseStatus j)

end Sys2Proof.Machine
end

