-- ==== Sys2Proof/Machine/RefugePages.lean ====
section
/-! DEFINITION. The pages of the refuge blocks (R360 to R364): granule pages, record pages, the manifest LUN, the OPENING record
(R365). -/

namespace Sys2Proof.Machine

/-! ### Refuge pages (R360, R361, R364) -/

/-- The (LUN, plane) pairs that take a ridge's refuge pages: the planes of the LUNs found on spurs that are IN or drain, but those
whose standby block could not be erased (R360, R367, R371). -/
def refugePairs (s : State) (r : Nat) : List (Nat × Nat) :=
  ((foundLuns s).filter (fun l => decide (lunRidge l = r)
      && (decide ((spur s (lunSpur l)).svc = .inService) || decide ((spur s (lunSpur l)).svc = .draining)))).flatMap (fun l =>
    ((List.range (lunPlanes s l)).filter (fun k => !(lunOf s l).refugeBad.contains k)).map (fun k => (l, k)))

/-- The next free page of a pair in the standby set. Recovery looks for records and granules from page 1 on (R371): DEDUCED, page 0
is left to a START on every pair (log entry 45). -/
def refugeFree (s : State) (r l k : Nat) : Nat :=
  let x := ridge s r
  1 + (x.granules.filter (fun g => decide (g.lun = l) && decide (g.plane = k))).length
    + (if k = 0 then (x.refuge.filter (fun g => decide (g.lun = l) && decide (g.page ≠ 0))).length else 0)

/-- A page of the standby set. -/
def refugeFpa (s : State) (r l k pg : Nat) : W64 := mkFpaB false l k (od s (0x7110 + r) 0x03) pg 0

/-- R361: the header of a refuge page, which takes the ridge's next SEQ (R158). The spec gives no FLAGS but REFUGE and JOURNAL, and
the page's position is that of an SLC page. -/
def refugeHeader (s : State) (r l region : Nat) (unit : BitVec 32) (target : W64) (journal : Bool) (mode slot : Nat) : W512 :=
  encodeHeader
    { region := region, seq := seqOf r (od s (0x2110 + r) 0x01), epoch := od s 0x2100 0x06, unit := unit, target := target, logical := none,
      paired := pairedOf 0 0, flags := 8 + (if journal then 1 else 0), p := parityLines (lunPhys s l), cellMode := 0, cipherMode := mode,
      keySlot := slot }

/-- R364: a line as a granule page carries it: enciphered once more under the unit's generation where it holds data. -/
def flushLine (m : Option W512) (du : W64) (x : BitVec 528) : BitVec 528 :=
  match m with
  | some k => if lValid x ∧ ¬ lPoison x then withData x (xtsEnc k du (lData x)) else x
  | none => x

/-- R364: the granule of a unit on the plane at offset k goes to the next pair in turn, at its next free page; sectors already sealed go
with their ciphertext, enciphered once more. TARGET is physical
(R155), its plane that of the granule. -/
def flushGranule (u : Nat) (s : State) (k : Nat) : State :=
  let r := u / 232
  let d := unit s u
  let ps := refugePairs s r
  match ps[(ridge s r).granules.length % ps.length]? with
  | none => s
  | some (l, q) =>
    let base := unitBase s d k
    let m := d.key.bind (material s)
    let tgt := physOf s d.region d.target
    let h := refugeHeader s r l d.region (handleOf s u) (fSetPlane tgt (fPlane tgt + k)) (decide (rOd s d.region 0x05 = 1)) (rOd s d.region 0x0A)
      (if rOd s d.region 0x0A = 0 then 0 else rOd s d.region 0x0B)
    let now := fun i => if d.sealedSec.contains (k * 4 + i / 64) then storedAs s d k i else d.lines.get 0 (k * 256 + i)
    let ls := (List.range 256).map (fun i => flushLine m (base + BitVec.ofNat 64 (i * 4096)) (now i))
    let g : GranulePage := ⟨l, q, refugeFree s r l q, h, ls⟩
    countPages (modRidge s r (fun x => { x with granules := x.granules ++ [g] })) r 1

/-- R204, R364: every granule of a unit is flushed. -/
def flushUnit (s : State) (u : Nat) : State := (List.range ((unit s u).planesM1 + 1)).foldl (flushGranule u) s

/-- The bytes of a granule page (R151), under the system seed (R214, R360). -/
def granuleBytes (s : State) (r : Nat) (g : GranulePage) : List Byte :=
  let f := refugeFpa s r g.lun g.plane g.page
  pageBytes (lunPhys s g.lun) (fun u => scrambleSeed systemSeed (fBlock f) (fPage f) u) g.header (fun n => g.lines.getD n 0)

/-- Granule pages split into runs that stand on one LUN at one page number, whose planes may be programmed together (R364). -/
def granuleRuns (gs : List GranulePage) : List (List GranulePage) :=
  gs.foldr (fun g l => match l with
    | (h :: t) :: rest => if h.lun = g.lun ∧ h.page = g.page then (g :: h :: t) :: rest else [g] :: (h :: t) :: rest
    | _ => [g] :: l) []

/-- R123, R457: the cycles of a refuge program or erase go out on their LUN, whose Cornice entries that invalidates (R120), or wait in
order while a hold window or the temperature defers them. -/
def refugeBus (s : State) (l : Nat) (cs : List BusCyc) : State :=
  if holdDefers s l ∨ tooHot s l ∨ (ridge s (lunRidge l)).refugeWait.any (fun x => decide (x.1 = l)) then
    modRidge s (lunRidge l) (fun r => { r with refugeWait := r.refugeWait ++ [(l, cs)] })
  else bus (invalidateLun s l) l cs

/-- The refuge programs and erases of a ridge that nothing defers any more go out. -/
def refugeGo (s : State) (r : Nat) : State :=
  if (ridge s r).refugeWait = [] then s
  else (ridge s r).refugeWait.foldl (fun s x => refugeBus s x.1 x.2) (modRidge s r (fun y => { y with refugeWait := [] }))

/-- R364: a run goes as one multi-plane SLC program where permitted, else page by page. -/
def programRun (r : Nat) (s : State) (run : List GranulePage) : State :=
  match run with
  | [] => s
  | g :: _ =>
    let l := g.lun
    let rows := run.map (fun x => refugeFpa s r l x.plane x.page)
    let multi := planesTogether s l (lunOf s l).multiProgram rows
    let last_ := (run.getLast?).elim 0 (fun x => x.plane)
    refugeBus s l (slcPrefix s l 0 ++ run.flatMap (fun x =>
      [.cmd 0x80, .col 0, .row (refugeFpa s r l x.plane x.page), .data (granuleBytes s r x)] ++
        (if x.plane = last_ then [.cmd 0x10] else if multi then [.cmd 0x11] else [.cmd 0x10] ++ slcPrefix s l 0)))

/-- Units are flushed, and the granule pages they made are programmed (R364, R365). -/
def flushOut (s : State) (r : Nat) (us : List Nat) : State :=
  let n := (ridge s r).granules.length
  let s := us.foldl flushUnit s
  (granuleRuns ((ridge s r).granules.drop n)).foldl (programRun r) s

/-- R371 step 7: the standby set is erased on every plane of the ridge's LUNs found on spurs that come IN, as SLC multi-plane erases. -/
def eraseStandby (s : State) (r : Nat) : State :=
  ((foundLuns s).filter (fun l => decide (lunRidge l = r) && decide ((spur s (lunSpur l)).svc ≠ .out))).foldl (fun s l =>
    refugeBus s l (eraseCycles s l 0 ((List.range (lunPlanes s l)).map (fun k => refugeFpa s r l k 0)))) s

/-! ### Record pages (R362) -/

/-- Line 0 of a record page before its CHECK. -/
def recordLine (s : State) (r kind count : Nat) (clean orderly : Bool) : W512 :=
  place 512 0 (kind % 256) ||| place 512 8 (r % 256) ||| place 512 16 (od s 0x2100 0x06 % 65536)
    ||| place 512 32 (od s (0x2110 + r) 0x01 % 2 ^ 44 + r % 16 * 2 ^ 44) ||| place 512 80 (count % 65536) ||| place 512 96 (if clean then 1 else 0)
    ||| place 512 97 (if orderly then 1 else 0) ||| place 512 128 (s.ao.timeUs % 2 ^ 64)

/-- Bytes packed into 64-byte lines, by fuel. -/
def packBytes : Nat → List Byte → List W512
  | 0, _ => []
  | k + 1, l => if l = [] then [] else wordOfBytes 512 (l.take 64) :: packBytes k (l.drop 64)

/-- The bytes of lines. -/
def lineBytesOf (l : List W512) : List Byte := l.flatMap (fun w => bytesOf 64 w)

/-- Bytes of a payload entry of a kind (R362). -/
def entryBytes (kind : Nat) : Nat := if kind = 0x22 ∨ kind = 0x23 then 16 else if kind = 0x24 then 48 else if kind = 0x25 then 32 else 0

/-- CHECK: CRC-32C over bytes 0 to 59 and over the payload entries. -/
def recordCheck (w : W512) (payload : List W512) : Nat :=
  (crc32c (bytesOf 60 w ++ (lineBytesOf payload).take (bitsOf w 95 80 * entryBytes (bitsOf w 7 0)))).toNat

/-- The bytes of a record page: the record in line 0, its payload from line 1 on, under the system seed (R360, R362). -/
def recordBytes (s : State) (f : W64) (x : RefugePage) : List Byte :=
  pageBytes (lunPhys s x.lun) (fun u => scrambleSeed systemSeed (fBlock f) (fPage f) u) x.header
    (fun n => match (x.record :: x.payload)[n]? with
      | some w => mkLine w true false false 0 0
      | none => 0)

/-- Write a record page on plane 0 of the manifest LUN: R361 gives its header, R362 line 0 and the payload. -/
def addRecordPage (s : State) (r pg kind count : Nat) (clean orderly : Bool) (payload : List Byte) : State :=
  let l := (ridge s r).manifest
  let w := recordLine s r kind count clean orderly
  let p := packBytes 256 payload
  let g : RefugePage := { lun := l, block := od s (0x7110 + r) 0x03, page := pg, header := refugeHeader s r l 0 0 0 false 0 0,
                          record := w ||| place 512 480 (recordCheck w p), payload := p, rung := 0 }
  let s := refugeBus s l (pageCycles s l (refugeFpa s r l 0 pg) (recordBytes s (refugeFpa s r l 0 pg) g))
  countPages (modRidge s r (fun x => { x with refuge := x.refuge ++ [g] })) r 1

/-- Write record pages of one kind into the standby set: entries that overflow a page go on in further pages. At least one
page is written. -/
def writeRecords (r kind : Nat) (clean orderly : Bool) : Nat → State → List Nat → State
  | 0, s, _ => s
  | k + 1, s, es =>
    let n := entryBytes kind
    let per := if n = 0 then 0 else 16320 / n
    let now := es.take per
    let s := addRecordPage s r (refugeFree s r (ridge s r).manifest 0) kind now.length clean orderly (now.flatMap (fun v => leBytes n v))
    if es.length ≤ per then s else writeRecords r kind clean orderly k s (es.drop per)

/-! ### The OPENING record (R365) -/

/-- R362: the OPENING entry of a unit; the highest page of its program has the POSITION of the wordline's last bit. DESIGN CHOICE (log entry
45): the target FPA is the physical one, which recovery scans; R362 does not say whether it is that or the form UNIT_OPEN named. -/
def openingEntry (s : State) (u : Nat) : Nat :=
  let d := unit s u
  d.phys.toNat + (handleOf s u).toNat * 2 ^ 64 + d.planesM1 * 2 ^ 96 + (modeBits (rOd s d.region 0x06) - 1) * 2 ^ 104 + d.region % 256 * 2 ^ 112

/-- OPENING entries: every unit in PROGRAMMING. -/
def openingEntries (s : State) (r : Nat) : List Nat :=
  ((unitsOf s r).filter (fun e => decide (e.2.state = .programming))).map (fun e => openingEntry s e.1)

/-- R365 step 3: the OPENING record, composed at the warning, goes to page 1 of the manifest LUN as soon as that LUN is idle
and no hold window defers it (R123). -/
def writeOpening (s : State) (r : Nat) : State :=
  match (ridge s r).opening with
  | some es =>
    if (lunOf s (ridge s r).manifest).busy = .idle ∧ ¬ holdDefers s (ridge s r).manifest then
      modRidge (writeRecords r 0x22 false false 8 s es) r (fun x => { x with opening := none, step := 3 })
    else s
  | none => s

/-- A LUN's operation is over: an OPENING record that waited for the LUN is written. -/
def openingGo (s : State) (l : Nat) : State := writeOpening s (lunRidge l)

/-! ### The manifest LUN (R360) -/

/-- The lowest LUN found on a spur of the ridge that is IN, other than one spur, whose plane 0 takes refuge pages (R371 step 7): the next
manifest LUN (R360). -/
def manifestOf (s : State) (r without : Nat) : Option Nat :=
  ((foundLuns s).filter (fun l => decide (lunRidge l = r) && decide ((spur s (lunSpur l)).svc = .inService) && decide (lunSpur l ≠ without)
    && !(lunOf s l).refugeBad.contains 0)).head?

/-- R360: the spur of the manifest LUN leaves: a further START at page 0 of a new one. -/
def moveManifest (s : State) (p : Nat) : State :=
  let r := p / 4
  if lunSpur (ridge s r).manifest = p ∧ (ridge s r).firstDone ∧ lunFound s (ridge s r).manifest then
    match manifestOf s r p with
    | some l => addRecordPage (modRidge s r (fun x => { x with manifest := l })) r 0 0x21 0 false false []
    | none => s
  else s

end Sys2Proof.Machine
end

