-- ==== Sys2Proof/Machine/Finish.lean ====
section
/-! DEFINITION. The end of a descriptor: counts of read operations (R177), MAP_DEMAND (R173), pages copied into units (R197,
R225), assessment of scrubbed pages (R229 to R231), the reports of each opcode. -/

namespace Sys2Proof.Machine

/-- R177: count a read operation by the status its lines give. An operation whose lines are only poisoned counts by its read
outcome. -/
def countOp (s : State) (rg : Nat) (a : Acc) : State :=
  let i := 0x2110 + rg
  let s := countBy (countBy s i 0x0A a.gErasures) i 0x0C a.unc
  if a.unc > 0 then count s i 0x06
  else match a.okStatus.code with
    | 0 => count s i 0x02
    | 1 => countBy (count s i 0x03) i 0x07 a.bits
    | 2 => countBy (count s i 0x04) i 0x08 a.bits
    | _ => countBy (count s i 0x05) i 0x09 a.bits

/-- Count a descriptor's read operations: one, or one for each page it copies (R177). -/
def countOps (s : State) (rg : Nat) (x : Ctx) : State :=
  if countsPages x.desc.op then x.pageAccs.foldl (fun s y => countOp s rg y.2) s else countOp s rg x.acc

/-- The mask of lines of a list of line keys that lie on a page. -/
def maskOf (ks : List Nat) (page : Nat) : BitVec 256 :=
  (ks.filter (fun k => k / 256 = page)).foldl (fun a k => a ||| place 256 (k % 256) 1) 0

/-- R43: a page as the entry of a context names it. -/
def Ctx.namedPage (x : Ctx) (k : Nat) : W64 :=
  match x.had.find? (fun w => decide (w.key / 256 = k)) with
  | some w => fSetLine w.named 0
  | none => keyFpa (k * 256)

/-- R173: a demand read ends with lines uncorrectable. -/
def mapDemand (s : State) (p c : Nat) : State :=
  let x := ctxOf s p c
  if x.mapOn then
    (x.lost.map (fun k => k / 256)).eraseDups.foldl (fun s k => poisonInsert s x.desc.region (x.namedPage k) (maskOf x.lost k) 1) s
  else s

/-- R117: the reads a context made of units have taken their data. -/
def releaseHits (s : State) (p c : Nat) : State :=
  (ctxOf s p c).hits.foldl (fun s u => modUnit s u (fun d => { d with readers := d.readers - 1 })) s

/-- Put copied lines into an internal unit, as stored (R197, R225). Plane offsets count from the first plane of the lines. -/
def loadLines (s : State) (u base : Nat) (lines : List (Nat × BitVec 528)) : State :=
  modUnit s u (fun d => { d with lines := lines.foldl (fun m x =>
    m.set 0 ((fPlane (keyFpa x.1) - base) * 256 + x.1 % 256) x.2) d.lines })

/-- Give an internal unit the headers of the pages it copies (R155). -/
def loadHeaders (s : State) (u base : Nat) (hs : List (Nat × W512)) : State :=
  modUnit s u (fun d => { d with hdrs := hs.map (fun h => (fPlane (keyFpa (h.1 * 256)) - base, h.2)) })

/-- The last data of an internal unit is in: it commits itself (R180, R197), once no gap move runs on its logical block (R48). -/
def commitLoaded (s : State) (u : Nat) : State :=
  let s := modUnit s u (fun d => { d with loading := 0, reserved := false })
  let d := unit s u
  if underMove s d.region d.target then modUnit s u (fun d => { d with commitDue := true }) else startSealing (toCommitted s u) u

/-! ### Scrub -/

/-- R231, R49: an uncorrectable page nobody asked for: poison map, notice, record, repair request. Lines already in the map
are not reported again. src is the notice's SOURCE, psrc the map's. -/
def scrubBad (s : State) (r : Nat) (f : W64) (lost : List Nat) (src psrc : Nat) : State :=
  let m := maskOf lost (pageKey f)
  let fresh := m &&& ~~~ (poisonMask s r f)
  if fresh = 0 then s
  else
    let full := (poisonPlace s (fRidge f) (poisonKey s r f)).isNone
    let s := poisonInsert s r f m psrc
    let d := src * 4096 + (if full then 2 else 1) * 256 + fPlane f * 32
    let g := fSetLine (fSetBlock f false (fBlock f)) (lowestFrom fresh 256 0)
    let n := popCount fresh
    requestRepair (cairn (regionNotice s r 0x10 d n g) 0x21 (cu 12 (fBlun f)) r d g n 0 0) r f

/-- R229: the class of a page by what its lines gave, whatever their status: 2 Uncorrectable, 1 Refresh, 0 Sound. -/
def pageClass (s : State) (a : Acc) : Nat :=
  if a.unc > 0 then 2
  else if a.gRung ≥ od s 0x2240 0x03 ∨ a.gBits ≥ od s 0x2240 0x02 then 1
  else 0

/-- The wants of a whole page. -/
def pageWants (f named : W64) : List Want :=
  (List.range 256).map (fun i => { plane := fPlane f, line := i, dst := 2 ^ 24, fpa := fSetLine f i, named := named })

/-- Begin the next page of a scrub descriptor. -/
def scrubNext (s : State) (p c : Nat) : State :=
  match (ctxOf s p c).pages with
  | f :: _ =>
    let ws := pageWants f f
    postWants (modCtx s p c (fun x => { x with wants := ws, had := [], acc := {}, lines := [], lost := [], failed := [], hdr := [], headers := [], erasedWait := [], stage := 0 })) p c ws
  | [] => s

/-- The better of two Refresh pages for R230: higher rung, then more bits, then the earlier page. -/
def betterRefresh (b : Option (Nat × Nat × W64)) (rung bits : Nat) (f : W64) : Option (Nat × Nat × W64) :=
  match b with
  | none => some (rung, bits, f)
  | some (r, k, g) => if rung > r ∨ (rung = r ∧ bits > k) then some (rung, bits, f) else some (r, k, g)

/-- R230: a REFRESH record. -/
def refreshRecord (s : State) (r : Nat) (rung bits n : Nat) (f : W64) : State :=
  cairn s 0x22 (cu 12 (fBlun f)) r (rung * 16 + bits) f n 0 0

/-- Note a Refresh page of a patrol pass for its LUN's block (R230). -/
def noteRefresh (s : State) (r : Nat) (rung bits : Nat) (f : W64) : State :=
  modRegion s r (fun g =>
    let l := fBlun f
    match g.refresh.find? (fun e => e.1 = l) with
    | none => { g with refresh := g.refresh ++ [(l, rung, bits, f, 1)] }
    | some (_, r0, b0, f0, n) =>
      let e := if rung > r0 ∨ (rung = r0 ∧ bits > b0) then (l, rung, bits, f, n + 1) else (l, r0, b0, f0, n + 1)
      { g with refresh := g.refresh.map (fun x => if x.1 = l then e else x) })

/-- R229: count a page a scrub context has read, and record what is wrong with it. -/
def gradePage (s : State) (p c : Nat) (f : W64) : State :=
  let x := ctxOf s p c
  let d := x.desc
  let r := d.region
  let cl := pageClass s x.acc
  let s := count s (0x2300 + r) 0x02
  if cl = 2 then
    scrubBad (modCtx (count s (0x2300 + r) 0x04) p c (fun y => { y with found := y.found + 1 })) r f x.lost
      (if d.op = 0x18 then 2 else 1) (if d.op = 0x18 then 3 else 2)
  else if cl = 1 then
    let s := modCtx (count s (0x2300 + r) 0x03) p c (fun y =>
      { y with refresh := y.refresh + 1, best := betterRefresh y.best x.acc.gRung x.acc.gBits f })
    if d.op = 0x40 then noteRefresh s r x.acc.gRung x.acc.gBits f else s
  else s

/-- A scrub context has read its last page: a patrol step ends, a SCRUB_RANGE answers. -/
def endScrub (s : State) (p c : Nat) : State :=
  let y := ctxOf s p c
  let d := y.desc
  if d.op = 0x40 then scrubDone (freeCtx s p c) d.region
  else
    let s := match y.best with
      | some (rung, bits, g) => refreshRecord s d.region rung bits y.refresh g
      | none => s
    reportDesc (freeCtx s p c) d ⟨0, 0, sat 65535 y.found * 65536 + sat 65535 y.refresh⟩

/-- R229: assess the page a scrub context has read, then take its next page, or end. A page never programmed is not
assessed. A patrol of a region that is no longer RUNNING stops at this page (R41). -/
def assessPage (s : State) (p c : Nat) : State :=
  let x := ctxOf s p c
  let d := x.desc
  let r := d.region
  match x.pages with
  | [] => s
  | f :: rest =>
    let never := decide (x.hdr.find? (fun h => h.1 = pageKey f) = some (pageKey f, 0)) && x.lines.all (fun l => decide (l.2 = 0)) && decide (x.lost = [])
    let s := countOp s (p / 4) x.acc
    let s := if never then s else gradePage s p c f
    let s := modCtx s p c (fun y => { y with pages := rest })
    if rest ≠ [] ∧ ¬ (d.op = 0x40 ∧ ((region s r).state ≠ 1 ∨ ¬ fetchOpen s)) then scrubNext s p c
    else endScrub s p c

/-! ### The end of a read -/

/-- The slot a read's KEY_ERASED names. -/
def Desc.slot (d : Desc) : Nat := (d.key.getD (0, 0)).1

/-- R46, R195: the units of a wordline are programmed together, so a move whose wordline has a page more to copy reads it at once and lets
the unit it has loaded wait. -/
def moveWordline (s : State) (m : Move) : State :=
  let b := modeBits (rOd s m.region 0x06)
  match movePlace s m (m.page + 1) with
  | some n => if n / b = m.page / b then moveNext s m else s
  | none => s

/-- A gap move has read a page: its lines fill the unit unchanged, those of a plane whose header is not valid too; uncorrectable
lines go poisoned and into the map (R46, R49), and the unit commits itself. -/
def moveLoaded (s : State) (p c : Nat) : State :=
  let x := ctxOf s p c
  match moveOn s (fBlun x.desc.phys) with
  | none => freeCtx s p c
  | some m =>
    match m.unit with
    | none => s
    | some u =>
      let pg := movePage s m.region m.lun m.page
      let s := countOps s (p / 4) x
      let s := (x.lost.map (fun k => k / 256)).eraseDups.foldl (fun s k => scrubBad s m.region (keyFpa (k * 256)) x.lost 3 4) s
      let f := mkFpaB false m.lun 0 (rOd s m.region 0x03 + m.dst) pg 0
      let s := loadLines (modUnit s u (fun d => { d with target := f, phys := f })) u 0 x.lines
      let s := modCtx (loadHeaders s u 0 x.headers) p c (fun y => { y with stage := 3, lines := [] })
      moveWordline (commitLoaded s u) m

/-- A descriptor's lines are all known: what its opcode does with them, and its report. -/
def endRead (s : State) (p c : Nat) : State :=
  let x := ctxOf s p c
  let d := x.desc
  let st := match x.acc.explicit with
    | some e => e
    | none => x.acc.status d.slot
  if d.op = 0x18 ∨ d.op = 0x40 then modCtx s p c (fun y => { y with stage := 4 })
  else if d.op = 0x41 then moveLoaded s p c
  else
    let s := countOps (releaseHits s p c) (p / 4) x
    let s := if d.q ≠ 0xFFFF ∧ (isRead d.op ∨ d.op = 0x08) then mapDemand s p c else s
    if d.op = 0x11 then
      let u := unitKey d.handle
      let s := mergeStatus (loadLines s u (fPlane d.phys) x.lines) d.q d.idx st d.fpa 0
      commitLoaded (loadHeaders (freeCtx s p c) u (fPlane d.phys) x.headers) u
    else if d.op = 0x19 then
      let h := mkHeader 0x0B (chainPos s d.region) (chainId s d.region) (chainForm s d.region d.named) (BitVec.ofNat 32 d.arg) st.code 0
      let fl := repairFlits ((List.range 256).map (fun i => ((x.lines.find? (fun y => y.1 % 256 = i)).map (fun y => y.2)).getD 0))
      let s := freeCtx s p c
      -- the link may have left UP since the admission (R258); an entry whose frame is never sent has no status (R365, R366)
      if (link s d.link).state = 1 then hold s (.link d.link) d
      else if (link s d.link).state ≠ 2 then reportDesc s d ⟨0x51, 1, d.arg⟩
      else if isOrigin s d.region then sendOwned s d.region h fl (some (d, st))
      else sendServed s d.link h fl d.region (some (d, st))
    else if d.op = 0x08 then
      let s := modEnt s d.q d.idx (fun e => { e with mergeRes := e.mergeRes.map (fun r => (r.1, r.2.1, x.acc.okStatus)) })
      freeCtx s p c
    else reportDesc (freeCtx s p c) d st

/-- R163: is a context on the ladder of its LUN, which has not ended? -/
def onRunningLadder (s : State) (x : Ctx) (c : Nat) : Bool :=
  (lunOf s (fBlun x.desc.phys)).ladder.any (fun y => decide (y.phase ≠ 3) && (y.ctx :: y.joined).contains c)

/-- Has a context everything it waited for? Then its descriptor ends; one on a ladder takes the ladder's end (R163). -/
def afterLines (s : State) (p c : Nat) : State :=
  let x := ctxOf s p c
  if ctxUsed s p c ∧ x.stage = 0 ∧ x.wants = [] ∧ x.gcmOut = 0 ∧ ¬ onRunningLadder s x c ∧ (headerPages s x).all (fun f => x.hasHeader f) then
    endRead s p c
  else s

/-! ### Ladders that end (R161, R164) -/

/-- R338: the cycles that take a ladder's thresholds back to step 0, for the die's option and the offsets it has set. -/
def ladderRestore (s : State) (l : Nat) (x : Ladder) : List BusCyc :=
  let used := x.step :: (x.tried.drop 1).map (fun y => y.1)
  restoreCycles s l x.region (blockMode s x.region x.block) x.page (used.any (fun h => decide (h ≥ 33)))
    (used.any (fun h => decide (1 ≤ h) && decide (h ≤ 32)) || decide (x.rung ≥ 4))

/-- The ladder ends: with the thresholds moved, step 0 is restored before any other array read (R161). On a channel that has lost its
training the cycles wait for it (R347). -/
def ladderEnd (s : State) (l : Nat) (x : Ladder) : State :=
  if x.step = 0 ∧ x.rung < 4 then modLun s l (fun y => { y with ladder := none })
  else modLun (if (chan s (l / 16)).lost then s else bus s l (ladderRestore s l x)) l (fun y =>
    { y with ladder := some { x with phase := 3 }, startUs := s.ao.timeUs, issueUs := s.ao.timeUs, ranUs := 0 })

/-- A descriptor that ends leaves the ladder of its LUN: the next one attached carries it on; with none left it ends, at once or when
the thresholds or the read under way stand. -/
def leaveLadder (s : State) (l c : Nat) : State :=
  match (lunOf s l).ladder with
  | some y =>
    if y.phase = 3 ∨ ¬ (y.ctx :: y.joined).contains c then s
    else match (y.ctx :: y.joined).filter (fun k => k ≠ c) with
      | k :: rest => modLun s l (fun z => { z with ladder := some { y with ctx := k, joined := rest } })
      | [] =>
        if y.phase ≤ 1 then modLun s l (fun z => { z with ladder := some { y with ctx := 64, joined := [] } })
        else ladderEnd (modPort s (lunSpur l) (lunPort l) (fun p =>
          { p with waiting := p.waiting.filter (fun ph => !(decide (ph.kind = .arrayRead) && decide (ph.cycles = []) && decide (ph.lun = l))) })) l y
  | none => s

/-- The unit of a descriptor that ends before its unit is loaded: a reservation is released (R182), and an OPEN copy's unit goes to
DONE, from where it returns to FREE with its generation raised (R180); a gap move that waits for a unit tries again (R197). -/
def endUnit (s : State) (u : Nat) : State :=
  if (unit s u).reserved then moveRetry (dropReservation s u) (u / 232) else toDone (modUnit s u (fun d => { d with commit := none })) u

/-- A descriptor ends at once with a status of its own, whatever it has delivered. Nothing more is written to its destination: DESIGN CHOICE
(log entry 51), R97 and R171 do not say what the bytes of a read that ends DIE_FAIL hold. A gap move whose read ends so stalls: DEDUCED, R50
names a failed erase or program only (log entry 28). -/
def failDesc (s : State) (p c : Nat) (st : Status) : State :=
  let x := ctxOf s p c
  let d := x.desc
  let s := modRidge s (p / 4) (fun r =>
    { r with staging := r.staging.filter (fun t => !(decide (t.spur = p) && decide (t.ctx = c))),
             staged := r.staged.filter (fun t => !(decide (t.spur = p) && decide (t.ctx = c))),
             stageWait := r.stageWait.filter (fun t => !(decide (t.1 = p) && decide (t.2.1 = c))),
             gcmWait := r.gcmWait.filter (fun j => !(!j.sealing && decide (j.spur = p) && decide (j.ctx = c))) })
  let s := leaveLadder (releaseHits s p c) (fBlun d.phys) c
  if d.op = 0x40 then scrubDone (freeCtx s p c) d.region
  else if d.op = 0x41 then
    match moveOn s (fBlun d.phys) with
    | some m => moveStall s m (fBlock d.phys)
    | none => freeCtx s p c
  else if d.op = 0x09 ∨ d.op = 0x0B ∨ d.op = 0x11 then reportDesc (endUnit (freeCtx s p c) (unitKey d.handle)) d st
  else if d.op = 0x08 then
    modEnt (freeCtx s p c) d.q d.idx (fun e => { e with mergeRes := some (5, 0, st) })
  else reportDesc (freeCtx s p c) d st

end Sys2Proof.Machine
end

