-- ==== Sys2Proof/Machine/Ladder.lean ====
section
/-! DEFINITION. Slots received from the dies (R141 to R150), staging and outer decoding (R130, R153, R154, R23), and the
recovery ladder (R158 to R169, R463). -/

namespace Sys2Proof.Machine

/-! ### Retry steps (R160, R337, R338, R463) -/

/-- R160, R337, R338: can the LUN use a step of the region's table? A system page uses the die's own options alone. -/
def stepUsable (s : State) (l r : Nat) (system : Bool) (h : Nat) : Bool :=
  let t := 0x2140 + rOd s r 0x07
  let opts := (lunOf s l).dieOptions
  if h = 0 then false
  else if system then decide (33 ≤ h) && decide (h ≤ 32 + opts)
  else if h ≤ 32 then decide (h ≤ od s t 0x02) && offsetFeature s l (od s t 0x03)
  else decide (h ≤ 32 + od s t 0x05) && decide (h ≤ 32 + opts)

/-- The history group of a block (R168). -/
def talusKey (s : State) (l blk : Nat) : Nat := l * 64 + blk / 2 ^ lunShift s l

/-- Write the history (R168). -/
def talusWrite (s : State) (l blk step : Nat) : State :=
  count { s with talus := s.talus.set 0 (talusKey s l blk) step } (0x2110 + lunRidge l) 0x0F

/-- Is the address in a system block (R35)? -/
def systemPage (f : W64) : Bool := decide (fBlock f < 4)

/-- The scrambler seed of a page (R149, R214). -/
def pageSeed (s : State) (r : Nat) (f : W64) (unit : Nat) : BitVec 32 :=
  scrambleSeed (if systemPage f then systemSeed else rOd s r 0x09) (fBlock f) (fPage f) unit

/-- The ladder's contexts on a LUN. -/
def Ladder.all (x : Ladder) : List Nat := x.ctx :: x.joined

/-- Is a context on the ladder of the page of an address? -/
def onLadder (s : State) (c : Nat) (f : W64) : Option Ladder :=
  match (lunOf s (fBlun f)).ladder with
  | some x => if x.all.contains c ∧ x.plane = fPlane f ∧ x.block = fBlock f ∧ x.page = fPage f then some x else none
  | none => none

/-- The rung and step a line is delivered at: those of the ladder's content, or rung 0 or 1 before it. A line that is not VALID is
OK whatever rung gave it (R147); the page's assessment takes it all the same (R229). -/
def noteRung (s : State) (p c : Nat) (f : W64) (outer : Bool) (l : BitVec 528) : State :=
  let rs := match onLadder s c f with
    | some x => if x.rung ≥ 2 then (x.rung, x.step) else (if outer then 1 else 0, 0)
    | none => (if outer then 1 else 0, 0)
  modAcc s p c (pageKey f) (fun a =>
    let a := { a with gRung := max a.gRung rs.1 }
    if lValid l ∨ lPoison l then { a with rung := max a.rung rs.1, step := if rs.1 ≥ a.rung ∧ rs.1 ≥ 2 then rs.2 else a.step } else a)

/-! ### Staging (R130) -/

/-- Is a staged interleave that of a context's page? -/
def Stage.of (t : Stage) (p c : Nat) (page e : Nat) : Bool :=
  decide (t.spur = p) && decide (t.ctx = c) && decide (pageKey t.fpa = page) && decide (t.e = e)

/-- Background work: scrub and Traverse moves (R23). DESIGN CHOICE (log entry 26): demand is told by opcode, so a host read that runs in class
3 counts as demand; the spec names classes 0 to 2 as demand and scrub and moves as background. -/
def isBackground (op : Nat) : Bool := decide (op = 0x18) || decide (op = 0x40) || decide (op = 0x41)

/-- Units of an interleave: its data slots and parity lines (R149, R153). -/
def stageUnits (e pn : Nat) : List Nat := (List.range 128).map (fun i => 2 * i + e) ++ (List.range pn).map (fun q => 256 + 6 * e + q)

/-- Units of a page a context still expects: waiting or in transfer. -/
def unitsDue (s : State) (p c : Nat) (f : W64) : List Nat :=
  let y := port s p (fPort f)
  let g := fSetBlock (fSetLine f 0) false (fBlock f)
  ((y.waiting.filter (fun ph => decide (ph.ctx = c) && decide (ph.kind = .pull) && decide (ph.fpa = g))).map (fun ph => ph.units)).flatten
    ++ (y.infl.filter (fun u => decide (u.ctx = c) && decide (u.fpa = g))).map (fun u => u.unit)

/-- Bytes an interleave takes in read staging (R24): its 128 lines and its parity lines of 66 bytes. DESIGN CHOICE: the spec does not
size what it stages (log entry 48). -/
def stageBytes (p : Nat) : Nat := 66 * (128 + p)

/-- The ridge whose read staging a descriptor of spur p takes: its own, or a merge source's target (R185). -/
def stagingRidge (p : Nat) (d : Desc) : Nat := if d.op = 0x08 then unitKey d.handle / 232 else p / 4

/-- The interleaves of a ridge the decoders work on: they stay in read staging until their decoding ends. -/
def decoding (s : State) (rg : Nat) : List Stage :=
  (List.range 4).flatMap (fun d => ((dec s d).jobs.entries.filterMap (fun e => e.2)).filter (fun t => decide (t.ridge = rg)))

/-- Bytes of read staging in use on a ridge: interleaves, and what contexts hold there from their pop on (R24). -/
def stagingUsed (s : State) (rg : Nat) : Nat :=
  let r := ridge s rg
  let held := fun (p : Nat) (x : Ctx) => if stagingRidge p x.desc = rg then x.staging else 0
  ((r.staged ++ r.staging ++ decoding s rg).map (fun t => stageBytes t.p)).foldl (· + ·) 0
    + (s.spurs.entries.map (fun e => (e.2.ctxs.entries.map (fun c => held e.1 c.2)).foldl (· + ·) 0)).foldl (· + ·) 0

/-- R24: has read staging room for n bytes more? -/
def stagingRoom (s : State) (rg n : Nat) : Bool := decide (stagingUsed s rg + n ≤ 262144)

/-- Stage the interleave of a failed line, unless it is being staged already; soft asks for a soft read's slots. Without room it
waits. -/
def stageFor (s : State) (p c : Nat) (f : W64) (e : Nat) (soft : Nat) : State :=
  let rg := p / 4
  let page := pageKey f
  if (ridge s rg).staging.any (fun t => t.of p c page e) then s
  else if (ridge s rg).stageWait.any (fun t => decide (t.1 = p) && decide (t.2.1 = c) && decide (pageKey t.2.2.1 = page) && decide (t.2.2.2.1 = e)) then s
  else if ¬ stagingRoom s rg (stageBytes (parityLines (lunPhys s (fBlun f)))) then
    modRidge s rg (fun r => { r with stageWait := r.stageWait ++ [(p, c, f, e, soft)] })
  else
    let x := ctxOf s p c
    let pn := parityLines (lunPhys s (fBlun f))
    let bad := (x.failed.filter (fun k => decide (k / 256 = page) && decide (k % 2 = e))).map (fun k => (k % 256 / 2, none))
    let t : Stage := { ridge := rg, spur := p, ctx := c, fpa := fSetLine f 0, e := e, p := pn, data := if soft = 0 then bad else [],
                       parity := [], background := isBackground x.desc.op, since := s.ao.timeUs, soft := [],
                       chase := od s 0x2100 0x07, zeros := od s 0x2100 0x01 }
    let have_ := (bad.map (fun b => 2 * b.1 + e)) ++ unitsDue s p c f
    let want := if soft = 0 then (stageUnits e pn).filter (fun u => ¬ have_.contains u) else stageUnits e pn
    postPull (modRidge s rg (fun r => { r with staging := r.staging ++ [t] })) p c f want soft

/-- OUTER (R293): the staged interleave of a line's page goes to the outer decoder, or waits for room in read staging (R24). DESIGN CHOICE
(log entry 26): that of a routine in class 3 is background work; R23 names scrub and moves only. -/
def literalOuter (s : State) (p c : Nat) (f : W64) : State :=
  let x := ctxOf s p c
  let page := pageKey f
  let e := fLine f % 2
  let data := (List.range 128).map (fun i => (i, (x.lines.find? (fun l => l.1 = page * 256 + 2 * i + e)).map (fun l => l.2)))
  let par := x.parity.filter (fun y => decide (y.1 / 16 = page) && decide (y.1 % 16 / 6 = e))
  let t : Stage := { ridge := p / 4, spur := p, ctx := c, fpa := fSetLine f 0, e := e, p := par.length, data := data,
                     parity := par.map (fun y => (y.1 % 16 % 6, y.2)), background := decide (x.cls = 3), since := s.ao.timeUs, soft := [], no := s.stages }
  if ¬ stagingRoom s (p / 4) (stageBytes par.length) then modRidge s (p / 4) (fun r => { r with stageWait := r.stageWait ++ [(p, c, f, e, 128)] })
  else modRidge (modCtx { s with stages := s.stages + 1 } p c (fun y => { y with outerDone := false, outerOk := false })) (p / 4)
    (fun r => { r with staged := r.staged ++ [t] })

/-- Interleaves that wait for room take what there is, in their order. -/
def stageRetry (s : State) (rg : Nat) : State :=
  (ridge s rg).stageWait.foldl (fun s (t : Nat × Nat × W64 × Nat × Nat) =>
    let s := modRidge s rg (fun r => { r with stageWait := r.stageWait.erase t })
    if t.2.2.2.2 = 128 then literalOuter s t.1 t.2.1 t.2.2.1 else stageFor s t.1 t.2.1 t.2.2.1 t.2.2.2.1 t.2.2.2.2) s

/-- Is an interleave complete in staging? -/
def Stage.full (t : Stage) : Bool :=
  decide (t.data.length ≥ 128) && decide (t.parity.length ≥ t.p) && (decide (t.soft = []) || t.soft.all (fun x => decide (x.2.length ≥ 3)))

/-- Complete interleaves wait for a decoder, each with its place in the order of arrival (R23). -/
def stageReady (s : State) (rg : Nat) : State :=
  let done := (ridge s rg).staging.filter (fun t => t.full)
  if done = [] then s
  else modRidge { s with stages := s.stages + done.length } rg (fun r =>
    { r with staged := r.staged ++ done.mapIdx (fun i t => { t with no := s.stages + i }), staging := r.staging.filter (fun t => !t.full) })

/-- Put a data line, as the inner code left it, into its interleave's staging. -/
def stageData (s : State) (p c : Nat) (f : W64) (n : Nat) (l : Option (BitVec 528)) : State :=
  stageReady (modRidge s (p / 4) (fun r => { r with staging := r.staging.map (fun t =>
    if t.of p c (pageKey f) (n % 2) ∧ ¬ t.data.any (fun d => d.1 = n / 2) then { t with data := t.data ++ [(n / 2, l)] } else t) })) (p / 4)

/-- Put a parity line into its interleave's staging. -/
def stageParity (s : State) (p c : Nat) (f : W64) (u : Nat) (l : BitVec 528) : State :=
  let e := (u - 256) / 6
  let q := (u - 256) % 6
  stageReady (modRidge s (p / 4) (fun r => { r with staging := r.staging.map (fun t =>
    if t.of p c (pageKey f) e ∧ ¬ t.parity.any (fun d => d.1 = q) then { t with parity := t.parity ++ [(q, l)] } else t) })) (p / 4)

/-- Keep one slot of a soft read (R162). -/
def stageSoft (s : State) (p c : Nat) (f : W64) (n : Nat) (raw : Slot) : State :=
  modRidge s (p / 4) (fun r => { r with staging := r.staging.map (fun t =>
    if t.of p c (pageKey f) (n % 2) then
      (if t.soft.any (fun d => d.1 = n / 2) then { t with soft := t.soft.map (fun d => if d.1 = n / 2 then (d.1, d.2 ++ [raw]) else d) }
       else { t with soft := t.soft ++ [(n / 2, [raw])] })
    else t) })

/-! ### The ladder -/

/-- Has it failed lines there? -/
def failedOn (s : State) (p c : Nat) (f : W64) : Bool := (ctxOf s p c).failed.any (fun k => decide (k / 256 = pageKey f))

/-- Deliver every failed line of a page as lost (R147 rule 3). -/
def loseLines (s : State) (p c : Nat) (f : W64) : State :=
  let x := ctxOf s p c
  (x.wants.filter (fun w => decide (w.key / 256 = pageKey f) && x.failed.contains w.key)).foldl (fun s w => deliver s p c w .lost) s

/-- R162: what is added to every offset of a ladder's step: the three reads of the soft rung take −, 0 and + SOFT_DELTA. -/
def softShift (s : State) (x : Ladder) : Int :=
  if x.rung < 4 ∨ x.soft = 1 then 0
  else
    let d := od s (0x2140 + rOd s x.region 0x07) 0x04
    if x.soft = 0 then - (Int.ofNat d) else Int.ofNat d

/-- The cycles that set the thresholds a ladder goes to (R161, R162, R337, R338). -/
def ladderCycles (s : State) (l : Nat) (x : Ladder) : List BusCyc :=
  stepCycles s l x.region (blockMode s x.region x.block) x.page x.step (softShift s x)

/-- Go to a step of the ladder: the thresholds are set first (R165). A CE-wide step waits for the CE's other LUN (R337), and every step
for a channel that has lost its training (R347). -/
def ladderGo (s : State) (l : Nat) (x : Ladder) : State :=
  if ((x.step ≥ 33 ∨ wideFeatures s l) ∧ ¬ twinFree s l) ∨ (chan s (l / 16)).lost then modLun s l (fun y => { y with ladder := some { x with phase := 5 } })
  else modLun (bus s l (ladderCycles s l x)) l (fun y =>
    { y with ladder := some { x with phase := 0 }, startUs := s.ao.timeUs, issueUs := s.ao.timeUs, ranUs := 0 })

/-- R163: the ladder's final rung and step stand for every context on it whose lines it gave, whether or not it succeeds. -/
def takeRung (y : Ladder) (f : W64) (s : State) (c : Nat) : State :=
  modAcc s (lunSpur (fBlun f)) c (pageKey f) (fun a =>
    let a := { a with gRung := if a.gRung ≥ 2 then max a.gRung y.rung else a.gRung }
    if a.rung ≥ 2 ∧ y.rung ≥ a.rung then { a with rung := y.rung, step := y.step } else a)

/-- A ladder ends with lines still failed: they are lost to every context on it. -/
def ladderLost (s : State) (l : Nat) (x : Ladder) : State :=
  let f := mkFpaB false l x.plane x.block x.page 0
  ladderEnd (x.all.foldl (fun s c => loseLines s (lunSpur l) c f) (x.all.foldl (takeRung x f) s)) l x

/-- R161: the next content of a ladder, or its end. -/
def ladderNext (s : State) (l : Nat) (x : Ladder) : State :=
  let t := 0x2140 + rOd s x.region 0x07
  let h := s.talus.get 0 (talusKey s l x.block)
  let tried := x.tried.map (fun y => y.1)
  let steps := (List.range 32).map (fun i => i + 1) ++ (List.range 31).map (fun i => i + 33)
  if x.rung < 2 ∧ ¬ x.system ∧ h ≠ 0 ∧ ¬ tried.contains h ∧ stepUsable s l x.region false h then ladderGo s l { x with rung := 2, step := h }
  else
    let next := if x.rung ≥ 4 ∨ x.n ≥ x.limit then none
      else steps.find? (fun h => !tried.contains h && stepUsable s l x.region x.system h)
    match next with
    | some h => ladderGo s l { x with rung := 3, step := h, n := x.n + 1 }
    | none =>
      let best := (x.tried.filter (fun y => decide (y.1 ≤ 32))).foldl (fun (b : Option (Nat × Nat)) y => match b with
        | none => some y
        | some b => if y.2 < b.2 ∨ (y.2 = b.2 ∧ y.1 < b.1) then some y else some b) none
      match best with
      | some (h, _) =>
        if x.rung < 4 ∧ ¬ x.system ∧ x.softOn ∧ od s t 0x02 ≥ 1 ∧ offsetFeature s l (od s t 0x03) then
          ladderGo s l { x with rung := 4, step := h, soft := 0 }
        else ladderLost s l x
      | none => ladderLost s l x

/-- Contexts whose ladder has ended go on to the end of their descriptors. -/
def afterAll (s : State) (p : Nat) (cs : List Nat) : State := cs.foldl (fun s c => afterLines s p c) s

/-- R161: the data lines still failed in the interleaves that hold a wanted line of some contexts, an interleave they share counted
once. -/
def ladderFails (s : State) (p : Nat) (cs : List Nat) (f : W64) : Nat :=
  ((List.range 2).map (fun e =>
    ((cs.flatMap (fun c => (ctxOf s p c).fails.filter (fun y => decide (y.1 = pageKey f * 2 + e)))).map (fun y => y.2)).foldl max 0)).foldl (· + ·) 0

/-- R163: a context joins the ladder of its page; while the next content is still to come, the last one tried has failed its lines
too. -/
def joinLadder (s : State) (l c : Nat) (f : W64) (y : Ladder) : State :=
  let y := { y with joined := y.joined ++ [c] }
  let tried := match y.tried.getLast? with
    | some (h, _) => if y.phase = 2 then y.tried else y.tried.dropLast ++ [(h, ladderFails s (lunSpur l) y.all f)]
    | none => y.tried
  modLun s l (fun z => { z with ladder := some { y with tried := tried } })

/-- Start a ladder for a context's failed lines on a page, join the one that runs there, or wait (R161, R163). -/
def climb (s : State) (p c : Nat) (f : W64) : State :=
  let l := fBlun f
  let x := ctxOf s p c
  match (lunOf s l).ladder with
  | some y =>
    if y.plane = fPlane f ∧ y.block = fBlock f ∧ y.page = fPage f ∧ y.phase ≠ 3 then
      (if y.all.contains c then s else joinLadder s l c f y)
    else s
  | none =>
    let s := if lunServes s l c then s else judgeRead s p c f
    if lunServes s l c ∧ ¬ twinHeld s l ∧ (wideFeatures s l → twinFree s l) then
      let st := (corn s (cornOf l (fPlane f))).step
      let y : Ladder := { ctx := c, plane := fPlane f, block := fBlock f, page := fPage f, region := x.desc.region, system := systemPage f,
                          rung := 1, tried := [(st, ladderFails s p [c] f)], n := 0, step := 0, joined := [], phase := 2, soft := 0,
                          limit := od s 0x2100 0x02, softOn := decide (od s 0x2100 0x03 = 1) }
      let s := modLun s l (fun z => { z with ladder := some y })
      let s := ladderNext s l y
      afterAll s p [c]
    else s

/-- The content under decoding may be done for every context of the ladder of a page: success ends the ladder and keeps
the step (R161, R168); otherwise it climbs. -/
def ladderCheck (s : State) (p c : Nat) (f : W64) : State :=
  let l := fBlun f
  match onLadder s c f with
  | none => if contentDone s p c f ∧ failedOn s p c f then climb s p c f else afterLines s p c
  | some y =>
    if y.phase ≠ 2 ∨ ¬ y.all.all (fun k => contentDone s p k f) then afterLines s p c
    else if y.all.all (fun k => !failedOn s p k f) then
      let s := if y.rung ≥ 3 ∧ ¬ y.system then talusWrite s l y.block y.step else s
      afterAll (ladderEnd (y.all.foldl (takeRung y f) s) l y) p y.all
    else
      let n := ladderFails s p y.all f
      let y := { y with tried := if y.rung ≥ 2 then y.tried ++ [(y.step, n)] else y.tried }
      afterAll (ladderNext s l y) p y.all

/-- R337: the ladder of a LUN that waits for its CE goes on. -/
def ladderWaiting (s : State) (l : Nat) : State :=
  match (lunOf s l).ladder with
  | some y => if y.phase = 5 then ladderGo s l y else s
  | none => s

/-- A LUN has become free: an OPENING record that waited for it is written (R365), a ladder of its CE's other LUN that waited for the CE
goes on (R337), and contexts whose failed lines wait for it start their ladder. -/
def climbWaiting (s : State) (l : Nat) : State :=
  let p := lunSpur l
  let s := ladderWaiting (openingGo (refugeGo s (lunRidge l)) l) (twin l)
  (spur s p).ctxs.entries.foldl (fun s e =>
    (e.2.failed.map (fun k => k / 256)).eraseDups.foldl (fun s k =>
      let f := keyFpa (k * 256)
      if fBlun f = l ∧ (lunOf s l).ladder = none ∧ contentDone s p e.1 f then climb s p e.1 f else s) s) s

/-- An array operation of a LUN has ended. -/
def lunFreed (s : State) (l : Nat) : State := climbWaiting (modLun s l (fun x => { x with busy := .idle })) l

/-! ### Slots -/

/-- R150: a wanted data slot reads erased: the page's header decides, and is transferred unless it is known or on its way. -/
def erasedSlot (s : State) (p c : Nat) (w : Want) : State :=
  let page := w.key / 256
  match (ctxOf s p c).hdr.find? (fun h => h.1 = page) with
  | some (_, v) =>
    if v = 2 then stageFor (modCtx s p c (fun x => { x with failed := x.failed ++ [w.key] })) p c w.fpa (w.line % 2) 0
    else deliver s p c w .blank
  | none =>
    let s := modCtx s p c (fun x => { x with erasedWait := x.erasedWait ++ [w.key] })
    if (unitsDue s p c w.fpa).any (fun u => decide (u ≥ 511)) then s else postPull s p c w.fpa [511] 0

/-- A wanted line fails the content: it becomes an erasure and its interleave is staged (R130). -/
def failedSlot (s : State) (p c : Nat) (w : Want) : State :=
  stageFor (modCtx s p c (fun x => { x with failed := x.failed ++ [w.key] })) p c w.fpa (w.line % 2) 0

/-- R99: another slot of a GATHER_LINE_READ names the line just read: it is read again. -/
def pullAgain (s : State) (p c : Nat) (f : W64) (n : Nat) : State :=
  let x := ctxOf s p c
  let k := pageKey f * 256 + n
  if ctxUsed s p c ∧ x.wants.any (fun w => decide (w.key = k)) ∧ ¬ x.failed.contains k ∧ ¬ x.erasedWait.contains k ∧ ¬ (unitsDue s p c f).contains n then
    postPull s p c f [n] 0
  else s

/-- What a data slot gives the context that wants its line: an erased slot, the line, or a failure. -/
def placeSlot (s : State) (p c : Nat) (f : W64) (n : Nat) (erased : Bool) (r : Inner × BitVec 528) : State :=
  let x := ctxOf s p c
  match x.wants.find? (fun w => decide (w.key = pageKey f * 256 + n) && !x.failed.contains w.key && !x.erasedWait.contains w.key) with
  | none => s
  | some w =>
    let s := if erased then erasedSlot s p c w
      else if r.1.ok then deliver (noteRung s p c f false r.2) p c w (.line r.2 r.1.bits false)
      else failedSlot s p c w
    pullAgain s p c f n

/-- A data slot has arrived for a context (R146, R150). -/
def dataSlot (s : State) (p c : Nat) (f : W64) (n : Nat) (raw : Slot) : State :=
  let d := (ctxOf s p c).desc
  let erased := isErased (od s 0x2100 0x01) raw
  let r := innerDecode (scramble (pageSeed s d.region f n) raw)
  let s := if !erased && decide (r.1 = .failCheck true) then count s (0x2110 + p / 4) 0x0B else s
  let s := stageData s p c f n (if !erased && r.1.ok then some r.2 else none)
  placeSlot s p c f n erased r

/-- The header area as it was read, descrambled (R149, R157): the first 70 bytes and the rest of its own length. -/
def areaBits (seed : BitVec 32) (H : Nat) (raw : Slot) (rest : List Byte) : BitVec (8 * H) :=
  scramble seed (wordOfBytes (8 * H) ((bytesOf 70 raw ++ rest).take H))

/-- R157: the header of an area: its first copy, or, failing that, its second, which an area of 128 bytes or more has. -/
def areaHeader {n : Nat} (x : BitVec n) : Option W512 :=
  match decodeHeader (x.extractLsb' 0 512) with
  | some h => some h
  | none => if n ≥ 1024 then decodeHeader (x.extractLsb' 512 512) else none

/-- R150: the header area reads erased, by its own length. -/
def areaErased (z H : Nat) (raw : Slot) (rest : List Byte) : Bool := isErased z (wordOfBytes (8 * H) ((bytesOf 70 raw ++ rest).take H))

/-- A page's header area has arrived (R150, R157). -/
def headerSlot (s : State) (p c : Nat) (f : W64) (raw : Slot) (rest : List Byte) : State :=
  let d := (ctxOf s p c).desc
  let H := headerLen (lunPhys s (fBlun f))
  let hd := areaHeader (areaBits (pageSeed s d.region f 511) H raw rest)
  let erased := areaErased (od s 0x2100 0x01) H raw rest
  let page := pageKey f
  let s := modCtx s p c (fun x =>
    { x with hdr := x.hdr ++ [(page, if hd.isSome then 2 else if erased then 0 else 1)],
             headers := x.headers ++ (hd.map (fun h => (page, h))).toList, erasedWait := x.erasedWait.filter (fun k => k / 256 ≠ page) })
  let x := ctxOf s p c
  (x.wants.filter (fun w => decide (w.key / 256 = page) && !x.failed.contains w.key && !(unitsDue s p c f).contains w.line)).foldl
    (fun s w => erasedSlot s p c w) s

/-- Every header a move asked for is known: it goes on with its search (R46). -/
def moveHeaders (s : State) (p c : Nat) : State :=
  let x := ctxOf s p c
  match moveOn s (fBlun x.desc.phys) with
  | some m => if x.stage = 5 ∧ x.hdr.length ≥ lunPlanes s m.lun then moveFound s m p c else s
  | none => s

/-- R162: what a soft read's slot leaves in the staging of its interleave. -/
def softStage (s : State) (p c : Nat) (u : Pull) (raw : Slot) (n : Nat) : State :=
  let d := (ctxOf s p c).desc
  if u.unit < 256 then
      let s := stageSoft s p c u.fpa u.unit raw
      if n = 1 then
        let r := innerDecode (scramble (pageSeed s d.region u.fpa u.unit) raw)
        let erased := isErased (od s 0x2100 0x01) raw
        let s := if !erased && decide (r.1 = .failCheck true) then count s (0x2110 + p / 4) 0x0B else s
        modRidge s (p / 4) (fun y => { y with staging := y.staging.map (fun t =>
          if t.of p c (pageKey u.fpa) (u.unit % 2) then
            { t with data := t.data ++ [(u.unit / 2, if erased ∨ ¬ r.1.ok then none else some r.2)] } else t) })
      else s
    else if n = 1 then
      modRidge s (p / 4) (fun y => { y with staging := y.staging.map (fun t =>
        if t.of p c (pageKey u.fpa) ((u.unit - 256) / 6) then
          { t with parity := t.parity ++ [((u.unit - 256) % 6, scramble (pageSeed s d.region u.fpa u.unit) (raw.setWidth 528))] } else t) })
    else s

/-- The next soft read follows once every slot of this one has arrived (R162). -/
def softNext (s : State) (p : Nat) (u : Pull) (n : Nat) : State :=
  let l := fBlun u.fpa
  match (lunOf s l).ladder with
  | some y =>
    if y.rung = 4 ∧ y.phase = 2 ∧ y.soft = n ∧ n < 2 ∧ y.all.all (fun k => decide (unitsDue s p k u.fpa = [])) then
      ladderGo s l { y with soft := n + 1 }
    else s
  | none => s

/-- A slot of a soft read has arrived (R162): data slots keep their raw bits, the centre read's parity lines are staged. -/
def softSlot (s : State) (p c : Nat) (u : Pull) (raw : Slot) : State :=
  let n := u.soft - 64
  let s := softStage s p c u raw n
  softNext (if n = 2 then stageReady s (p / 4) else s) p u n

/-! ### Transfers of an integrator routine (R293) -/

/-- Is a context's routine the integrator's, run word by word? -/
def literalCtx (s : State) (p c : Nat) : Bool := ctxUsed s p c && decide ((ctxOf s p c).desc.op ≥ 0x80)

/-- The place of the next line a routine delivers: lines go out in the order in which they are delivered. -/
def literalDst (x : Ctx) : Nat := 64 * (x.mask.length + x.sealedHold.length)

/-- The want a routine's line stands for. -/
def literalWant (x : Ctx) (key : Nat) : Want :=
  { plane := fPlane (keyFpa key), line := key % 256, dst := literalDst x, fpa := keyFpa key, named := keyFpa key }

/-- The AES lane's plaintext of a line under the routine's cipher setting (R293): 4 PLAIN, 2 KEY, 3 TWEAK. -/
def literalPlain (s : State) (x : Ctx) (plane line : Nat) (ct : W512) : W512 :=
  if x.codec = 2 ∨ x.codec = 3 then
    match x.desc.key.bind (laneKey s (fRidge x.desc.phys)) with
    | some m => xtsDec m (literalDu x plane line) ct
    | none => poisonPattern 5 line
  else ct

/-- The scrambler seed of a unit a routine reads or feeds (R149, R293): the system seed after SEED_SYS, else that of the address SEED named
last, or of the unit's own where none has. -/
def literalSeed (s : State) (x : Ctx) (f : W64) (u : Nat) : BitVec 32 :=
  if x.seedSys then scrambleSeed systemSeed (fBlock f) (fPage f) u else pageSeed s x.desc.region (x.seedFpa.getD f) u

/-- A routine's decoded line goes to the fabric: through a GCM engine under GCM_VERIFY, else through the AES lane. -/
def literalDeliver (s : State) (p c key bits : Nat) (outer : Bool) (l : BitVec 528) : State :=
  let x := ctxOf s p c
  let w := literalWant x key
  let r := LineRes.line l bits outer
  -- a line a replay meets again has been counted (R298, R299)
  let s := if x.mask.contains (maskBit x.desc w) then s else modCtx s p c (fun y =>
    let a := accLine y.acc w r
    { y with acc := if outer then { a with rung := max a.rung 1, gRung := max a.gRung 1 } else a })
  if x.codec = 6 then sealLine s p c w r
  else writeLine s p c w (linePlain r w.line (literalPlain s x w.plane w.line))

/-- A slot of a microword's DOUT arrives: DELIVER, STAGE or RAW (R293). A data slot that fails the inner code sets COND 13
and stays in staging as an erasure; a staged line counts as it is delivered (R290). DESIGN CHOICE (log entry 20): a DOUT with MOVE_OP 0, no
path named, stages like STAGE. -/
def literalSlot (s : State) (p c : Nat) (u : Pull) (raw : Slot) (rest : List Byte) : State :=
  let x := ctxOf s p c
  let page := pageKey u.fpa
  let seed := literalSeed s x u.fpa u.unit
  if u.soft = 8 then modCtx s p c (fun y => { y with found := y.found + (560 - popCount raw) })
  else if u.unit < 256 then
    let r := innerDecode (scramble seed raw)
    let key := page * 256 + u.unit
    let s := if !isErased (od s 0x2100 0x01) raw && decide (r.1 = .failCheck true) then count s (0x2110 + p / 4) 0x0B else s
    if ¬ r.1.ok ∨ isErased (od s 0x2100 0x01) raw then modCtx s p c (fun y => { y with innerFail := true, failed := y.failed ++ [key] })
    else if u.soft = 1 then literalDeliver s p c key r.1.bits false r.2
    else modCtx s p c (fun y => { y with lines := y.lines ++ [(key, r.2)],
                                         outcomes := (key, r.1.bits, false) :: y.outcomes.filter (fun z => z.1 ≠ key) })
  else if u.unit < 511 then
    modCtx s p c (fun y => { y with parity := y.parity ++ [(page * 16 + (u.unit - 256), scramble seed (raw.setWidth 528))] })
  else
    let H := headerLen (lunPhys s (fBlun u.fpa))
    let v := if (areaHeader (areaBits seed H raw rest)).isSome then 2 else if areaErased (od s 0x2100 0x01) H raw rest then 0 else 1
    modCtx s p c (fun y => { y with hdr := y.hdr ++ [(page, v)] })

/-- The decode a routine asked for has ended: its lines stand in staging (COND 14, COND 15), those it has corrected (fixed) too, which count as
lines recovered as erasures as they are delivered (R154, R290). -/
def literalDecoded (s : State) (t : Stage) (r : Option (List (BitVec 528))) (fixed : List Nat) : State :=
  modCtx s t.spur t.ctx (fun y =>
    let page := pageKey t.fpa
    match r with
    | none => { y with outerDone := true, outerOk := false }
    | some ls =>
      let back := y.failed.filter (fun k => decide (k / 256 = page) && decide (k % 2 = t.e))
      let right := fun z : Nat × BitVec 528 =>
        if z.1 / 256 = page ∧ z.1 % 2 = t.e ∧ fixed.contains (z.1 % 256 / 2) then (z.1, ls.getD (z.1 % 256 / 2) 0) else z
      let outs := (back ++ (y.lines.map (fun z => z.1)).filter (fun k =>
        decide (k / 256 = page) && decide (k % 2 = t.e) && fixed.contains (k % 256 / 2))).eraseDups
      { y with outerDone := true, outerOk := true, failed := y.failed.filter (fun k => ¬ back.contains k),
               lines := y.lines.map right ++ back.map (fun k => (k, ls.getD (k % 256 / 2) 0)),
               outcomes := outs.map (fun k => (k, 0, true)) ++ y.outcomes.filter (fun z => !outs.contains z.1) })

/-- A slot has arrived for one context that waits for it. -/
def slotFor (p : Nat) (raw : Slot) (rest : List Byte) (s : State) (u : Pull) : State :=
  let c := u.ctx
  if ¬ ctxUsed s p c then s
  else if literalCtx s p c then literalSlot s p c u raw rest
  else if u.soft ≥ 64 then ladderCheck (softSlot s p c u raw) p c u.fpa
  else if u.unit < 256 then ladderCheck (dataSlot s p c u.fpa u.unit raw) p c u.fpa
  else if u.unit < 511 then
    let s := stageParity s p c u.fpa u.unit (scramble (pageSeed s (ctxOf s p c).desc.region u.fpa u.unit) (raw.setWidth 528))
    ladderCheck s p c u.fpa
  else moveHeaders (ladderCheck (headerSlot s p c u.fpa raw rest) p c u.fpa) p c

/-- The first unit in transfer on a port has arrived: one slot serves every context that pulled it in that burst. -/
def takeSlot (s : State) (p k : Nat) (raw : Slot) (rest : List Byte) : State :=
  match (port s p k).infl with
  | [] => s
  | u :: more =>
    let same := fun v : Pull => decide (v.fpa = u.fpa) && decide (v.unit = u.unit) && decide (v.soft = u.soft)
    let later := more.dropWhile same
    let s := modPort s p k (fun y =>
      { y with infl := later,
               seg := match y.seg with
                 | some (c, .pull, n) => if later = [] then none else some (c, .pull, n)
                 | z => z })
    -- a hold window with no pull left defers nothing any more (R123)
    let l := fBlun u.fpa
    openingGo (refugeGo (stageRetry ((u :: more.takeWhile same).foldl (slotFor p raw rest) s) (p / 4)) (lunRidge l)) l

/-- SLOT_RECEIVED (R147): a unit's transfer ends on a port: its first 70 bytes, and the rest of a header area (R151). -/
def execSlotReceived (spurNo portNo : Nat) (u : Received) (s : State) : Host.Outcome State Fault Refusal :=
  gate s (takeSlot s spurNo (portNo % 2) u.slot u.rest)

/-! ### Decoders (R23, R164) -/

/-- A free decoder of an island, lowest first. -/
def freeDec (s : State) (d : Nat) : Option Nat :=
  if (dec s d).ready then (List.range 8).find? (fun k => decide ((dec s d).jobs.get none k = none)) else none

/-- Background jobs of an island. -/
def backJobs (s : State) (d : Nat) : Nat :=
  ((dec s d).jobs.entries.filter (fun e => match e.2 with
    | some t => t.background
    | none => false)).length

/-- Does demand work wait for an island: on a ridge whose home it is? -/
def demandWaits (s : State) (d : Nat) : Bool :=
  (List.range 4).any (fun i => (ridge s (4 * d + i)).staged.any (fun t => !t.background))

/-- May an island take an interleave (R23)? -/
def islandTakes (s : State) (d : Nat) (t : Stage) : Option Nat :=
  if t.background ∧ demandWaits s d ∧ backJobs s d ≥ 2 then none else freeDec s d

/-- R418: a job whose decoder failed runs on another island than that one. With no other island ready it may go back there: DESIGN
CHOICE, log entry 26. -/
def islandBarred (s : State) (d : Nat) (t : Stage) : Bool :=
  decide (t.lostOn = some d) && (List.range 4).any (fun i => decide (i ≠ d) && (dec s i).ready)

/-- R23: the island and decoder an interleave of a ridge goes to: home first, then the lowest-numbered other. -/
def decoderFor (s : State) (rg : Nat) (t : Stage) : Option (Nat × Nat) :=
  let home := rg / 4
  ((home :: (List.range 4).filter (fun d => d ≠ home)).filter (fun d => !islandBarred s d t)).findSome? (fun d => (islandTakes s d t).map (fun k => (d, k)))

/-- The oldest of some interleaves. -/
def oldestStage (l : List Stage) : Option Stage :=
  l.foldl (fun a t => match a with
    | none => some t
    | some b => if t.no < b.no then some t else some b) none

/-- R23: what waits at an island, on the four ridges whose home it is: the next to go is the oldest demand, then the oldest
background. -/
def nextStage (s : State) (d : Nat) : Option Stage :=
  let q := (List.range 4).flatMap (fun i => (ridge s (4 * d + i)).staged)
  match oldestStage (q.filter (fun t => !t.background)) with
  | some t => some t
  | none => oldestStage q

/-- DECODER_ASSIGN (R23): the next interleave that waits at a ridge's home island gets a decoder. -/
def execDecoderAssign (ridgeNo : Nat) (s : State) : Host.Outcome State Fault Refusal :=
  gate s (
    match nextStage s (ridgeNo / 4) with
    | none => s
    | some t =>
      match decoderFor s t.ridge t with
      | none => s
      | some (d, k) =>
        stageRetry (modDec (modRidge s t.ridge (fun r => { r with staged := r.staged.erase t })) d
          (fun x => { x with jobs := x.jobs.set none k (some t) })) t.ridge)

/-- DECODER_WAIT_TIMEOUT (R164): no island is ready, and interleaves have waited out the bring-up timeout. -/
def execDecoderWaitTimeout (ridgeNo : Nat) (s : State) : Host.Outcome State Fault Refusal :=
  gate s (
    if (List.range 4).any (fun d => (dec s d).ready) then s
    else ((ridge s ridgeNo).staged.filter (fun t => decide (s.ao.timeUs - t.since ≥ od s 0x7100 0x01 * 1000))).foldl (fun s t =>
      failDesc s t.spur t.ctx ⟨0x40, 3 * 256 + ridgeNo / 4, sat (2 ^ 32 - 1) (s.ao.timeUs - t.since)⟩) s)

/-- Lines of an interleave by position. -/
def Stage.lines (t : Stage) : List (Option (BitVec 528)) :=
  (List.range 128).map (fun i => match t.data.find? (fun d => d.1 = i) with
    | some d => d.2
    | none => none)
/-- Its parity lines in order. -/
def Stage.parities (t : Stage) : List (BitVec 528) :=
  (List.range t.p).map (fun q => ((t.parity.find? (fun d => d.1 = q)).map (fun d => d.2)).getD 0)

/-- One failed line takes what its interleave's decoding gave it. -/
def deliverStaged (t : Stage) (r : Option (List (BitVec 528))) (passed : List (Nat × Nat × BitVec 528)) (s : State) (w : Want) : State :=
  match passed.find? (fun y => y.1 = w.line / 2) with
  | some y => deliver (noteRung s t.spur t.ctx t.fpa false y.2.2) t.spur t.ctx w (.line y.2.2 y.2.1 false)
  | none => match r with
    | some ls =>
      let l := ls.getD (w.line / 2) 0
      deliver (noteRung s t.spur t.ctx t.fpa true l) t.spur t.ctx w (.line l 0 true)
    | none => s

/-- R154: a wanted line that had passed the inner code is corrected by the page code, and counts as a line recovered as an erasure. What
waits in staging for its sector or in a copy takes the correction; a line that has gone to the fabric already stands as it was
written, once (R97, R129): DESIGN CHOICE, log entry 26. -/
def redeliver (t : Stage) (ls : List (BitVec 528)) (s : State) (w : Want) : State :=
  let l := ls.getD (w.line / 2) 0
  let p := t.spur
  let c := t.ctx
  let x := ctxOf s p c
  let s := noteResult (noteRung s p c t.fpa true l) p c w (.line l 0 true)
  if verifies s x.desc then
    (if x.lines.any (fun y => decide (y.1 = w.key)) ∧ x.wants.any (fun v => decide (v.sector = w.sector)) then
      sealLine (modCtx s p c (fun y => { y with sealedHold := y.sealedHold.filter (fun z => z.1 ≠ w) })) p c w (.line l 0 true)
    else s)
  else if collects x.desc.op ∨ x.desc.op = 0x18 ∨ x.desc.op = 0x40 then keepLine s p c w x.desc.op (.line l 0 true)
  else s

/-- Deliver what an interleave's decoding gave to the failed lines of its context, bits for lines a Chase decode passed, and to
those delivered before that it has corrected. -/
def deliverStage (s : State) (t : Stage) (r : Option (List (BitVec 528))) (fixed : List Nat) (passed : List (Nat × Nat × BitVec 528)) : State :=
  let x := ctxOf s t.spur t.ctx
  let here := fun w : Want => decide (w.key / 256 = pageKey t.fpa) && decide (w.line % 2 = t.e)
  -- corrections first: a sealed sector goes to its check as its last line comes (R154, R281)
  let s := match r with
    | some ls => (x.had.filter (fun w => here w && fixed.contains (w.line / 2))).foldl (redeliver t ls) s
    | none => s
  (x.wants.filter (fun w => here w && x.failed.contains w.key)).foldl (deliverStaged t r passed) s

/-- Finish a decode: clear the decoder, count what the page code undid, deliver, and let the ladder go on (R154, R161). -/
def finishDecode (s : State) (island k : Nat) (t : Stage) (data : List (Option (BitVec 528))) (passed : List (Nat × Nat × BitVec 528)) : State :=
  let s := stageRetry (modDec s island (fun x => { x with jobs := x.jobs.set none k none })) t.ridge
  if ¬ ctxUsed s t.spur t.ctx then s
  else
    let r := outerDecode t.p data t.parities
    let fixed := match r with
      | some (_, touched) => touched.filter (fun i => (data.getD i none).isSome)
      | none => []
    let s := countBy s (0x2110 + t.spur / 4) 0x0B (outerErrors data (outerColumns t.p data t.parities))
    let s := modCtx s t.spur t.ctx (fun x =>
      { x with fails := if r.isNone then (pageKey t.fpa * 2 + t.e, (data.filter (fun d => d.isNone)).length) :: x.fails else x.fails })
    if literalCtx s t.spur t.ctx then literalDecoded s t (r.map (fun y => y.1)) fixed
    else ladderCheck (deliverStage s t (r.map (fun y => y.1)) fixed passed) t.spur t.ctx t.fpa

/-- OUTER_DECODE_DONE (R154): column decoding of an interleave ends. -/
def execOuterDecodeDone (island k : Nat) (s : State) : Host.Outcome State Fault Refusal :=
  gate s (match (dec s island).jobs.get none k with
    | some t => if t.soft = [] then finishDecode s island k t t.lines [] else s
    | none => s)

/-- The three reads of a soft interleave's line, descrambled, unless it passed the centre read's hard decode or reads erased there, in
which case it stays an erasure (R150). -/
def softReads (s : State) (t : Stage) (x : Nat × List Slot) : Option (Slot × Slot × Slot) :=
  let u := pageSeed s (ctxOf s t.spur t.ctx).desc.region t.fpa (2 * x.1 + t.e)
  match x.2 with
  | [lo, mid, hi] =>
    if (t.lines.getD x.1 none).isSome ∨ isErased t.zeros mid then none else some (scramble u lo, scramble u mid, scramble u hi)
  | _ => none

/-- R162: the lines a soft interleave's hard decode passed, and those a Chase decode passes: position, bits counted, line. -/
def chaseLines (s : State) (t : Stage) : List (Nat × Nat × BitVec 528) :=
  let d := (ctxOf s t.spur t.ctx).desc
  t.soft.filterMap (fun x =>
    if (t.lines.getD x.1 none).isSome then
      (match x.2 with
        | [_, mid, _] =>
          let r := innerDecode (scramble (pageSeed s d.region t.fpa (2 * x.1 + t.e)) mid)
          some (x.1, r.1.bits, r.2)
        | _ => none)
    else match softReads s t x with
      | some (lo, mid, hi) => (chase t.chase lo mid hi).map (fun y => (x.1, y.1, y.2))
      | none => none)

/-- R146: the corrections the Chase decodes of an interleave apply and LC rejects. -/
def chaseCount (s : State) (t : Stage) : Nat :=
  (t.soft.map (fun x => match softReads s t x with
    | some (lo, mid, hi) => chaseRejects t.chase lo mid hi
    | none => 0)).foldl (· + ·) 0

/-- CHASE_DECODE_DONE (R162): the soft rung's Chase and column decoding are complete. -/
def execChaseDecodeDone (island k : Nat) (s : State) : Host.Outcome State Fault Refusal :=
  gate s (match (dec s island).jobs.get none k with
    | some t =>
      if t.soft = [] then s
      else
        let passed := chaseLines s t
        let data := (List.range 128).map (fun i => (passed.find? (fun y => y.1 = i)).map (fun y => y.2.2))
        finishDecode (if ctxUsed s t.spur t.ctx then countBy s (0x2110 + t.spur / 4) 0x0B (chaseCount s t) else s) island k t data passed
    | none => s)

/-! ### Retry reads -/

/-- THRESHOLDS_SET (R165): the thresholds stand at the ladder's step; its array read is issued, or waits for its port while a hold
defers it, the ridge is too hot, or other phases go first (R123, R124, R457). -/
def thresholdsStand (s : State) (l : Nat) (y : Ladder) : State :=
  let x := ctxOf s (lunSpur l) y.ctx
  if y.ctx = 64 then ladderEnd s l y
  else if arrayOpen s l ∧ portTurn s l x.cls (s.turns + 1) then ladderRead (tookTurn s l x.cls) l y
  else
    let ph : Phase := { ctx := y.ctx, cls := x.cls, kind := .arrayRead, lun := l, plane := y.plane, fpa := mkFpaB false l y.plane y.block y.page 0 }
    postPhase (modLun s l (fun z => { z with ladder := some { y with phase := 4 } })) (lunSpur l) (lunPort l) ph

/-- THRESHOLDS_SET (R165). -/
def execThresholdsSet (lun : Nat) (s : State) : Host.Outcome State Fault Refusal :=
  gate s (match (lunOf s lun).ladder with
    | some y => if y.phase ≠ 0 then s else thresholdsStand s lun y
    | none => s)

/-- The content of a retry read is in the register: every context of the ladder pulls its failed lines again. -/
def retryContent (s : State) (l : Nat) (y : Ladder) : State :=
  let p := lunSpur l
  let f := mkFpaB false l y.plane y.block y.page 0
  let s := modLun s l (fun z => { z with ladder := some { y with phase := 2 } })
  y.all.foldl (fun s c =>
    let x := ctxOf s p c
    let again := x.wants.filter (fun w => decide (w.key / 256 = pageKey f) && x.failed.contains w.key)
    let s := modCtx s p c (fun x =>
      { x with failed := x.failed.filter (fun k => k / 256 ≠ pageKey f), fails := x.fails.filter (fun y => y.1 / 2 ≠ pageKey f) })
    postPull s p c f ((again.map (fun w => w.line)).eraseDups) 0) s

/-- A soft read is in the register: each interleave that holds a failed wanted line is transferred with its parity. -/
def softContent (s : State) (l : Nat) (y : Ladder) : State :=
  let p := lunSpur l
  let f := mkFpaB false l y.plane y.block y.page 0
  let s := modLun s l (fun z => { z with ladder := some { y with phase := 2 } })
  y.all.foldl (fun s c =>
    let bad := ((ctxOf s p c).failed.filter (fun k => decide (k / 256 = pageKey f))).map (fun k => k % 2)
    bad.eraseDups.foldl (fun s e =>
      if y.soft = 0 then stageFor s p c f e 64
      else postPull s p c f (stageUnits e (parityLines (lunPhys s l))) (64 + y.soft)) s) s

/-- Load the entries of planes just read: VALID, and held where the read was for class 0 or 1 (R118, R122). -/
def finishLoad (s : State) (l : Nat) (planes held : List Nat) : State :=
  planes.foldl (fun s k => modCorn s (cornOf l k) (fun c =>
    if c.loading then { c with loading := false, valid := true, held := held.contains k && decide (od s 0x5800 0x01 ≠ 0) } else c)) s

/-- What a ladder's content is for, once its array read has ended. -/
def ladderContent (s : State) (l : Nat) (soft : Bool) : State :=
  match (lunOf s l).ladder with
  | some y =>
    if y.phase ≠ 1 then s
    else if y.ctx = 64 then ladderEnd s l y
    else if soft then softContent s l y
    else retryContent s l y
  | none => if soft then s else climbWaiting s l

/-- ARRAY_READ_DONE (R120): the LUN reports ready after an array read. -/
def execArrayReadDone (lun : Nat) (s : State) : Host.Outcome State Fault Refusal :=
  gate s (match (lunOf s lun).busy with
    | .read planes _ _ _ _ held => ladderContent (finishLoad (modLun s lun (fun x => { x with busy := .idle })) lun planes held) lun false
    | .soft _ _ _ _ _ => ladderContent (modLun s lun (fun x => { x with busy := .idle })) lun true
    | _ => s)

/-- STEP_ZERO_RESTORED (R161): the thresholds stand at step 0 again, and the LUN, with its twin where the features are CE-wide (R337),
is free for its next array read. -/
def execStepZeroRestored (lun : Nat) (s : State) : Host.Outcome State Fault Refusal :=
  gate s (match (lunOf s lun).ladder with
    | some y => if y.phase = 3 then climbWaiting (climbWaiting (modLun s lun (fun z => { z with ladder := none })) lun) (twin lun) else s
    | none => s)

/-- Refresh the copy of the history of some LUNs (R169). -/
def talusRefresh (s : State) (p : Nat → Bool) : State :=
  let m := s.talusCopy.filterKeys (fun k => !p (k / 64))
  { s with talusCopy := (s.talus.entries.filter (fun e => p (e.1 / 64))).foldl (fun m e => m.set 0 e.1 e.2) m }

/-- Load the live history of some LUNs from the copy (R169, R323). -/
def talusLoad (s : State) (p : Nat → Bool) : State :=
  let m := s.talus.filterKeys (fun k => !p (k / 64))
  { s with talus := (s.talusCopy.entries.filter (fun e => p (e.1 / 64))).foldl (fun m e => m.set 0 e.1 e.2) m }

/-- R418 class 0x08: the half-erased tables that were lost are rebuilt from the flag blocks; the locks clear once all fits. -/
def rebuildTables (s : State) : State :=
  (s.luns.keys.filter (fun l => (ridge s (lunRidge l)).heRebuild)).foldl lockRetry s

/-- TALUS_SYNC (R169): the dictionary's copy of the history is refreshed from the live store of the ridges in service. The
rebuild of a lost half-erased table, background work to which the manual gives no time, ends here as well. -/
def execTalusSync (s : State) : Host.Outcome State Fault Refusal :=
  gate s (
    let s := rebuildTables s
    let s := { s with ridges := s.ridges.mapVals {} (fun r => { r with heRebuild := false }) }
    talusRefresh s (fun l => decide ((ridge s (lunRidge l)).svc = .inService)))

end Sys2Proof.Machine
end

