-- ==== Sys2Proof/Machine/Program.lean ====
section
/-! DEFINITION. Ledge units at work: lines stored (R185 to R190), commits and sealing (R192 to R194), fills (R195), programs
from their start to the die's result (R193 to R199), release (R201). -/

namespace Sys2Proof.Machine

/-! ### LINE_WRITE -/

/-- The line a LINE_WRITE stores, by R186, or why none: stored line with the status, a status alone, or not yet known. -/
inductive Stored where
  | line (l : BitVec 528) (st : Status)
  | fail (st : Status)
  | ask
  | wait
deriving DecidableEq, Repr

/-- The key of a LINE_WRITE's line in its unit. -/
def writeKey (e : W512) (d : Led) : Nat := writePlane e d * 256 + fLine (eFpa e)

/-- R110: POISONED_MERGE. -/
def mergePoisoned (e : W512) : Status := ⟨0x12, fLine (eFpa e) * 256, 64 - popCount (eMask e)⟩

/-- R186, R188: the rows in order. -/
def storedLine (s : State) (x : Ent) (d : Led) : Stored :=
  let e := x.raw
  let k := writeKey e d
  let new := x.data.headD 0
  let old := d.lines.get 0 k
  let held := holdsLine d k
  let mk (data : W512) (poison : Bool) (gen : Nat) (st : Status) : Stored := .line (mkLine data true poison false (gen % 32) 0) st
  let again := if held then lWgen old + 1 else 0
  if eMask e = BitVec.allOnes 64 then mk new false again Status.ok
  else if held then mk (mergeBytes (eMask e) new (lData old)) (lPoison old) again (if lPoison old then mergePoisoned e else Status.ok)
  else if eMerge e = 0 then mk (mergeBytes (eMask e) new 0) false 0 Status.ok
  else match x.mergeRes with
    | none => if x.mergeAsked then .wait else .ask
    | some (1, l, st) => mk (mergeBytes (eMask e) new (lData l)) false (lWgen l + 1) st
    | some (2, _, _) => mk (mergeBytes (eMask e) new 0) false 0 Status.ok
    | some (4, _, _) => .fail ⟨0x14, fLine (eMerge e) / 64 * 64 * 256, 0⟩
    | some (5, _, st) => .fail st
    | some _ =>
      if isSealed s d.region then .fail ⟨0x14, fLine (eMerge e) / 64 * 64 * 256, 0⟩
      else mk (mergeBytes (eMask e) new 0) true 0 (mergePoisoned e)

/-- Take a writer off its unit. -/
def dropWriter (s : State) (u q i : Nat) : State := modUnit s u (fun d => { d with writers := d.writers.filter (fun w => w ≠ (q, i)) })

/-- A LINE_WRITE stores no line: the refuge page charged for its granule goes back when the granule has no other, unless the unit's
charge is its commit's by now (R202). -/
def refundGranule (s : State) (u p : Nat) : State :=
  if granuleClaimed s (unit s u) p ∨ (unit s u).state ≠ .opened then s else modUnit s u (fun d => { d with charge := d.charge.erase (.refuge, 1) })

/-- Does a LINE_WRITE of the unit with a lower admission number wait in the hold store (R185)? -/
def heldBefore (s : State) (u : Nat) (x : Ent) : Bool :=
  s.hold.any (fun h => decide (h.desc.q ≠ 0xFFFF) && decide (h.desc.source = 1) && decide (h.desc.op = 0x08) && decide (unitKey h.desc.handle = u)
    && decide (((entOf s h.desc.q h.desc.idx).bind (fun y => y.order)).getD 0 < x.order.getD 0))

/-- Store the line of the first LINE_WRITE of a unit, in admission order (R185), and send it down the chain (R190). A write whose
base is not the one an earlier write has fixed lies outside the unit (R277). -/
def storeFirst (s : State) (u : Nat) : State :=
  let d := unit s u
  match d.writers with
  | [] => s
  | (q, i) :: _ =>
    match entOf s q i with
    | none => dropWriter s u q i
    | some x =>
      let e := x.raw
      if x.fin ≠ none then dropWriter s u q i
      else if x.data = [] ∨ heldBefore s u x then s
      else match storedLine s x d with
        | .wait => s
        | .ask => pushMerge s q x
        | .fail st => report (refundGranule (dropWriter s u q i) u (writePlane e d)) q i st (eFpa e) (fLine (eFpa e))
        | .line l st =>
          if ciphered s d.region ∧ d.base ≠ none ∧ d.base ≠ some (writeBase s e d) then
            report (refundGranule (dropWriter s u q i) u (writePlane e d)) q i (unitState 4 (eUnit e)) (eFpa e) (fLine (eFpa e))
          else
          let s := modUnit (dropWriter s u q i) u (fun d =>
            { d with lines := d.lines.set 0 (writeKey e d) l, base := if d.base = none then some (writeBase s e d) else d.base })
          let s := if st.code = 0x12 then count s 0x5000 0x06 else s
          let s := if framesWrite s d.region x then
              sendTimed s d.region 0x03 (eFpa e) (handleOf s u) 0 (lineBytes l) [] q i u
            else degradedWrite s d.region q i (eFpa e)
          report s q i st (eFpa e) (fLine (eFpa e))

/-- LINE_STORE (R186): the data of the unit's first write is in and its merge, if any, is known: the line is stored. -/
def execLineStore (handle : BitVec 32) (s : State) : Host.Outcome State Fault Refusal :=
  gate s (let d := unit s (unitKey handle)
          if d.gen = hGen handle ∧ (d.state = .opened ∨ d.state = .committed) ∧ ¬ d.keyLost then storeFirst s (unitKey handle) else s)

/-- UNIT_COMMITTED (R192): every earlier LINE_WRITE has stored its line or completed SEAL_FAIL, so sealing starts. -/
def execUnitCommitted (handle : BitVec 32) (s : State) : Host.Outcome State Fault Refusal :=
  gate s (if (unit s (unitKey handle)).gen = hGen handle then commitReady s (unitKey handle) else s)

/-! ### PAGE_PROGRAM data -/

/-- R197: the 256 lines of each plane of a PAGE_PROGRAM. -/
def pageLines (data : List W512) : List (Nat × BitVec 528) :=
  (data.zipIdx).map (fun x => (x.2, mkLine x.1 true false false 0 0))

/-- The data of a PAGE_PROGRAM has loaded and its check has passed: PAGE frames go down the chain, the unit commits itself
(R197, R190, R242). -/
def pageLoaded (s : State) (u : Nat) : State :=
  let d := unit s u
  match d.commit with
  | none => s
  | some (q, i) =>
    match entOf s q i with
    | none => s
    | some x =>
      if d.kind ≠ .pageProgram ∨ d.reserved ∨ d.state ≠ .opened then s
      else if x.worst ≠ none then
        -- a data read has failed (R97): the unit goes, nothing is programmed
        settle (modEnt (toDone (modUnit s u (fun d => { d with commit := none })) u) q i (fun e => { e with left := 0, data := [] })) q i
      else if d.loading = 0 ∨ 64 * x.data.length < xferLen x.raw then s
      else
        let ls := pageLines x.data
        let s := modEnt (modUnit s u (fun d => { d with lines := { entries := ls } })) q i (fun e => { e with data := [] })
        let s := if framesWrite s d.region x then
            (List.range (d.planesM1 + 1)).foldl (fun s k =>
              sendTimed s d.region 0x06 (fSetLine (fSetPlane d.target (fPlane d.target + k)) 0) (handleOf s u) (eNum x.raw) 0
                (pageFlits ((ls.filter (fun y => decide (y.1 / 256 = k))).map (fun y => y.2))) q i u) s
          else degradedWrite s d.region q i (eFpa x.raw)
        commitLoaded s u

/-! ### Sealing (R194) -/

/-- Clear one of the ridge's two engines, and let the next waiting sector have it. -/
def gcmFree (s : State) (rg e : Nat) : State :=
  gcmStart (modRidge s rg (fun r => if e = 0 then { r with gcm0 := none } else { r with gcm1 := none })) rg

/-- The job of an engine. -/
def gcmJob (s : State) (rg e : Nat) : Option GcmJob := if e = 0 then (ridge s rg).gcm0 else (ridge s rg).gcm1

/-- SECTOR_SEALED (R194): a GCM engine has sealed a sector of a committed unit. -/
def execSectorSealed (ridgeNo engine : Nat) (s : State) : Host.Outcome State Fault Refusal :=
  gate s (match gcmJob s ridgeNo (engine % 2) with
    | some j =>
      if j.sealing then
        noteComplete (count (gcmFree (modUnit s j.record (fun d => { d with sealedSec := d.sealedSec ++ [j.sector] })) ridgeNo (engine % 2))
          0x6000 0x13) j.record
      else s
    | none => s)

/-- WL_FILL_EXPIRY (R195): the group of a committed unit has waited WL_FILL_MS: its unclaimed positions are filled. -/
def execWlFillExpiry (handle : BitVec 32) (s : State) : Host.Outcome State Fault Refusal :=
  gate s (let d := unit s (unitKey handle)
          if d.gen = hGen handle ∧ d.state = .committed ∧ s.ao.timeUs ≥ d.fillUs ∧ ¬ (d.restored ∧ (region s d.region).state ≠ 1) then fillGroup s (unitKey handle) else s)

/-! ### Programs -/

/-- R22: data-in segments of one physical page: 1,120 bytes each. -/
def segmentsOf (s : State) (l : Nat) : Nat := (lunPhys s l + 1119) / 1120

/-- Physical pages of the program of a unit's group: planes times positions. -/
def programPages (s : State) (u : Nat) : Nat :=
  (groupUnits s u).foldl (fun a e => a + e.2.planesM1 + 1) 0 + (groupFills s u).length

/-- R195, R339: the pages of the program on a LUN that go to the die now, in the order they are sent: position by position,
plane by plane. -/
def programRows (s : State) (l : Nat) : List (Nat × Nat) :=
  match (lunOf s l).busy with
  | .program us planes _ =>
    let fills := (ridge s (lunRidge l)).fills.filter (fun x => decide (x.state = .programming) && decide (fBlun x.phys = l))
    let all := (us.map (fun v => unit s v) ++ fills).flatMap (fun d => (unitPlanes d).map (fun p => ((unitWl s d).2.2, p)))
    (List.range 4).flatMap (fun pos => (planes.filter (fun p => all.contains (pos, p))).map (fun p => (pos, p)))
  | _ => []

/-- The row of a position and plane of the program on a LUN. -/
def programRow (s : State) (l : Nat) (x : Nat × Nat) : W64 :=
  match (lunOf s l).busy with
  | .program (u :: _) _ blk =>
    let w := unitWl s (unit s u)
    mkFpaB false l x.2 blk (pageOf s l w.1 w.2.1 x.1) 0
  | _ => 0

/-- What begins a page's data-in. -/
def pageHead (s : State) (l : Nat) (x : Nat × Nat) : List BusCyc := [.cmd 0x80, .col 0, .row (programRow s l x)]

/-- The unit or fill a position and plane of the program belongs to, with the handle its header names. -/
def rowUnit (s : State) (l : Nat) (x : Nat × Nat) : Led × BitVec 32 :=
  match (lunOf s l).busy with
  | .program us _ _ =>
    let mine := fun d : Led => decide ((unitWl s d).2.2 = x.1) && (unitPlanes d).contains x.2
    match us.find? (fun v => mine (unit s v)) with
    | some v => (unit s v, handleOf s v)
    | none => (((ridge s (lunRidge l)).fills.find? (fun d => decide (d.state = .programming) && decide (fBlun d.phys = l) && mine d)).getD {}, 0)
  | _ => ({}, 0)

/-- The bytes of the i-th page of a program (R193). -/
def rowBytes (s : State) (l i : Nat) : List Byte :=
  let x := (programRows s l).getD i (0, 0)
  let f := programRow s l x
  let d := (rowUnit s l x).1
  let k := x.2 - fPlane d.phys
  pageBytes (lunPhys s l) (fun u => scrambleSeed (rOd s d.region 0x09) (fBlock f) (fPage f) u)
    (unitHeader s d (rowUnit s l x).2 f k (seqOf (lunRidge l) ((lunOf s l).seqFirst + i))) (fun n => d.flash.get 0 (k * 256 + n))

/-- The bytes of the segment after which n are left, and at the end of a page what ends it: 11h before another plane of the
position, ONE_SHOT_MID before another position, 10h at the end of the program (R339). -/
def segmentCycles (s : State) (l n : Nat) : List BusCyc :=
  let rows := programRows s l
  let k := segmentsOf s l
  let gone := rows.length * k - n
  let i := (gone - 1) / k
  let last_ := gone % k = 0
  let tail := match rows.drop i with
    | x :: y :: _ => [BusCyc.cmd (if y.1 = x.1 then 0x11 else cmdByte s l 8)] ++ pageHead s l y
    | _ => [.cmd 0x10]
  [.data (((rowBytes s l i).drop (1120 * ((gone - 1) % k))).take 1120)] ++ (if last_ then tail else [])

/-- What begins the data-in of the program on a LUN. -/
def dataInHead (s : State) (l : Nat) : List BusCyc :=
  let m := match (lunOf s l).busy with
    | .program (u :: _) _ _ => (unitWl s (unit s u)).1
    | _ => 0
  slcPrefix s l m ++ pageHead s l ((programRows s l).headD (0, 0))

/-- Data-in waits for its port, which drives its head as it takes it. The phase has the class of the unit's entry, 2 but for DEMOTE
(R91), and 3 for a gap move (R46). -/
def postDataIn (s : State) (l u : Nat) : State :=
  let d := unit s u
  let ph : Phase := { ctx := u, cls := d.cls, kind := .dataIn, lun := l, fpa := d.phys, step := (programRows s l).length * segmentsOf s l, cycles := dataInHead s l }
  let s := modLun (invalidateLun s l) l (fun x => { x with startUs := s.ao.timeUs, issueUs := s.ao.timeUs, ranUs := 0, runOk := false, suspends := 0 })
  postPhase s (lunSpur l) (lunPort l) ph

/-- Data-in begins at once on the planes of a program that go to the die now: the Cornice entries of the LUN are invalid (R120). -/
def startDataIn (s : State) (l u : Nat) : State :=
  let s := postDataIn s l u
  modPort (bus s l (dataInHead s l)) (lunSpur l) (lunPort l) (fun y =>
    { y with waiting := y.waiting.map (fun ph => if ph.kind = .dataIn ∧ ph.lun = l then { ph with cycles := [] } else ph) })

/-- Has the data-in of the program on a LUN begun on its bus? -/
def dataInBegun (s : State) (l : Nat) : Bool :=
  (port s (lunSpur l) (lunPort l)).waiting.any (fun ph => decide (ph.kind = .dataIn) && decide (ph.lun = l) && decide (ph.cycles = []))

/-- A program before its confirm: its LUN, where it can be reset, is reset if data-in has begun, and data-in goes on from the start (R299, R318,
R347). -/
def dataInAgain (s : State) (l : Nat) (reset : Bool) : State :=
  let rows := programRows s l
  let s := if reset ∧ dataInBegun s l then bus s l (resetLun s l) else s
  modPort s (lunSpur l) (lunPort l) (fun y =>
    { y with seg := match y.seg with
               | some (u, .dataIn, n) => if fBlun (unit s u).phys = l then none else some (u, .dataIn, n)
               | z => z,
             waiting := y.waiting.map (fun ph =>
      if ph.kind = .dataIn ∧ ph.lun = l then { ph with step := rows.length * segmentsOf s l, cycles := dataInHead s l } else ph) })

/-- R180, R195: data-in of a unit's group begins: its units and fills are PROGRAMMING, the LUN is busy. The planes go together
where the die can, and otherwise one after the other in ascending order. -/
def beginProgram (s : State) (u : Nat) : State :=
  let d := unit s u
  let l := fBlun d.phys
  let us := (groupUnits s u).map (fun e => e.1)
  let fs := groupFills s u
  let n := programPages s u
  let q := od s (0x2110 + lunRidge l) 0x01
  let s := us.foldl (fun s v => modUnit s v (fun d => { d with state := .programming, flash := storedLines s d })) s
  let lay := fun x : Led => { x with state := .programming, flash := storedLines s { x with key := liveKey s x.region } }
  let s := modRidge s (u / 232) (fun r => { r with fills := r.fills.map (fun x => if fs.contains x then lay x else x) })
  let all := (List.range 6).filter (fun k => us.any (fun v => (unitPlanes (unit s v)).contains k))
  let k := if planesTogether s l (lunOf s l).multiProgram (all.map (fun p => fSetPlane d.phys p)) then all.length else 1
  let s := modLun (countPages s (u / 232) n) l (fun x =>
    { x with busy := .program us (all.take k) (fBlock d.phys), planesLeft := all.drop k, planesFailed := [], seqFirst := q })
  startDataIn s l u

/-- PROGRAM_START (R180): a unit or its group is sealed, the wordline group complete and the first of its LUN's in the order of
completion (R183), the LUN free. -/
def execProgramStart (handle : BitVec 32) (s : State) : Host.Outcome State Fault Refusal :=
  gate s (
    let u := unitKey handle
    let d := unit s u
    let l := fBlun d.phys
    -- an orderly shutdown fills groups without waiting for WL_FILL_MS (R369)
    let s := if s.ao.pf = .shutdown ∧ d.gen = hGen handle ∧ d.state = .committed then fillGroup s u else s
    if d.gen = hGen handle ∧ programReady s u ∧ portTurn s l d.cls d.turn then beginProgram (tookTurn s l d.cls) u
    else s)

/-- DATA_IN_SEGMENT_DONE (R22): a segment ends; after the last one the program is confirmed (R199). -/
def execDataInSegmentDone (spurNo portNo : Nat) (s : State) : Host.Outcome State Fault Refusal :=
  gate s (
    let k := portNo % 2
    match (port s spurNo k).seg with
    | some (u, .dataIn, n) =>
      let l := fBlun (unit s u).phys
      let s := bus (modPort s spurNo k (fun y => { y with seg := none })) l (segmentCycles s l n)
      if n = 0 then
        let s := modPort s spurNo k (fun y => { y with waiting := y.waiting.filter (fun ph => !(decide (ph.kind = .dataIn) && decide (ph.lun = l))) })
        judgeWaiting (modLun s l (fun x => { x with startUs := s.ao.timeUs, issueUs := s.ao.timeUs, ranUs := 0, runOk := decide (od s 0x5800 0x03 = 0) })) l
      else modPort s spurNo k (fun y =>
        { y with waiting := y.waiting.map (fun ph => if ph.kind = .dataIn ∧ ph.ctx = u then { ph with step := n } else ph) })
    | _ => s)

/-- A unit's program has ended: its entry, if it has one, gets the status. -/
def settleCommit (s : State) (u : Nat) (st : Status) (f : W64) : State :=
  let d := unit s u
  match d.commit with
  | none => s
  | some (q, i) =>
    let s := modUnit s u (fun d => { d with commit := none })
    let s := if d.keyHit then mergeStatus s q i ⟨0x20, (d.key.getD (0, 0)).1, 0⟩ f 0 else s
    report s q i st f 0

/-- The lowest plane of a list among those that failed, and its status byte. -/
def lowestFailing (planes : List Nat) (failed : List (Nat × Nat)) : Nat × Nat :=
  (failed.filter (fun x => planes.contains x.1)).foldl (fun a x => if x.1 < a.1 then x else a) (8, 0)

/-- R198: kinds whose units do not stay failed. -/
def ownKind (k : UKind) : Bool := decide (k = .pageProgram) || decide (k = .copyback) || decide (k = .gapMove) || decide (k = .fill)

/-- R374: the outcome of a unit restored COMMITTED is reported by a record alone. -/
def restoredNote (s : State) (u detail : Nat) : State :=
  let d := unit s u
  if d.restored then
    modUnit (cairn s 0x53 (cu 2 (u / 232)) d.region detail d.target (handleOf s u).toNat 0 0) u (fun d => { d with restored := false })
  else s

/-- R198, R374: one unit of a program that failed on some planes, each with its status byte; die is the DIE_FAIL status when the program
was cut off. -/
def unitProgrammed (failed : List (Nat × Nat)) (die : Option Status) (s : State) (u : Nat) : State :=
  let d := unit s u
  let l := fBlun d.phys
  let bad := (unitPlanes d).any (fun k => failed.any (fun x => decide (x.1 = k)))
  let f := d.target
  let mv := if d.kind = .gapMove then s.moves.find? (fun m => m.lun = l ∧ m.unit = some u) else none
  let s := restoredNote s u (if bad then 5 else 4)
  if ¬ bad then
    let s := settleCommit (toDone s u) u Status.ok f
    match mv with
    | some m => moveNext s m
    | none => s
  else
    let k := (lowestFailing (unitPlanes d) failed).1 % 8
    let st := die.getD ⟨0x31, k * 256 + (lowestFailing (unitPlanes d) failed).2, fBlock d.phys⟩
    let s := if die.isSome then s
      else cairn s 0x29 (cu 12 l) d.region st.detail (fSetPlane d.target k) (if ownKind d.kind then 0 else (handleOf s u).toNat) 0 0
    let s := if ownKind d.kind ∧ ¬ d.restored then toDone s u
      else setCharge (modUnit s u (fun d => { d with state := .opened, failed := true, ready := false })) u [(.refuge, granulesHeld d)]
    let s := settleCommit s u st f
    match mv with
    | some m => moveStall s m (fBlock d.phys)
    | none => s

/-- A program ends: its units settle, its fills go, the LUN is free. -/
def endProgram (s : State) (l : Nat) (failed : List (Nat × Nat)) (die : Option Status) : State :=
  match (lunOf s l).busy with
  | .program us _ _ =>
    let s := modRidge s (lunRidge l) (fun r => { r with fills := r.fills.filter (fun x => !(decide (x.state = .programming) && decide (fBlun x.phys = l))) })
    let s := modPort s (lunSpur l) (lunPort l) (fun y =>
      { y with waiting := y.waiting.filter (fun ph => !(decide (ph.kind = .dataIn) && decide (ph.lun = l))),
               seg := match y.seg with
                 | some (u, .dataIn, n) => if fBlun (unit s u).phys = l then none else some (u, .dataIn, n)
                 | z => z })
    let s := modLun s l (fun x => { x with busy := .idle, planesLeft := [], planesFailed := [] })
    eraseGo (climbWaiting (us.foldl (unitProgrammed failed die) s) l) l
  | _ => s

/-- Count a program command that failed (R198). -/
def countProgramFail (s : State) (l : Nat) : State := count s (0x5010 + lunRidge l) 0x08

/-- A program that never came to its end: every plane has failed, with a status of the die's failure (R320, R333). -/
def cutProgram (s : State) (l : Nat) (st : Status) : State :=
  endProgram (countProgramFail s l) l ((List.range 6).map (fun k => (k, 0))) (some st)

/-- R332: the failing planes of an operation on some planes: FAIL of the status byte says whether one has failed, the mask which; a mask that
names none leaves them all failed. -/
def failingPlanes (now : List Nat) (mask : Nat) (byte : Byte) : List Nat :=
  if ¬ byte.getLsbD 0 then []
  else if now.any (fun k => mask.testBit k) then now.filter (fun k => mask.testBit k)
  else now

/-- The result of a confirmed program by its final status byte: with planes left the next one goes to the die when its port lets it
(R195), otherwise the program ends. -/
def programResult (s : State) (l mask : Nat) (byte : Byte) : State :=
  match (lunOf s l).busy with
  | .program us now blk =>
    let bad := failingPlanes now mask byte
    let failed := (lunOf s l).planesFailed ++ bad.map (fun k => (k, byte.toNat))
    let todo := (lunOf s l).planesLeft
    let sent := (programRows s l).length
    let s := if bad = [] then s else countProgramFail s l
    match todo with
    | k :: left =>
      postDataIn (modLun s l (fun x =>
        { x with busy := .program us [k] blk, planesLeft := left, planesFailed := failed, seqFirst := x.seqFirst + sent })) l (us.headD 0)
    | [] => endProgram s l failed none
  | _ => s

/-! ### Release -/

/-- R201: may a unit in DONE return to FREE? -/
def releasable (d : Led) : Bool := decide (d.state = .done) && decide (d.readers = 0) && decide (d.mirror = [])

/-- UNIT_RELEASE (R201): the unit returns to FREE; a gap move that waits for a unit tries again. -/
def execUnitRelease (handle : BitVec 32) (s : State) : Host.Outcome State Fault Refusal :=
  gate s (
    let u := unitKey handle
    let d := unit s u
    if d.gen = hGen handle ∧ releasable d then moveRetry (freeUnit s u) (u / 232) else s)

end Sys2Proof.Machine
end

