-- ==== Sys2Proof/Machine/Pop.lean ====
section
/-! DEFINITION. Descriptors taken by an engine (R21, R115 to R117, R288), suspensions (R132, R133, R340), status polls and
timeouts (R128, R332, R333), DIE_FEATURE on its LUN (R348). -/

namespace Sys2Proof.Machine

/-! ### The choice of a class (R21) -/

/-- R24: the bytes of read staging a descriptor holds from its pop on: the sectors of a SEALED_HOLD read, 64 lines of 66 bytes each,
and a merge source's line or sealed sector. The sizes are the model's (log entry 48). -/
def stagingNeed (s : State) (d : Desc) : Nat :=
  let sectors := if d.op = 0x03 then 4 * (d.flags % 8 + 1)
    else if d.op = 0x04 then ((d.lines.map (fun y => (pageKey y.2.1, fLine y.2.1 / 64))).eraseDups).length
    else 1
  if d.op = 0x08 then (if verifies s d then 64 * 66 else 66)
  else if verifies s d ∧ rOd s d.region 0x0A = 2 then sectors * 64 * 66
  else 0

/-- R24: a read that cannot get staging space waits in its class; a merge source's is that of its target's ridge (R185). Room for one
interleave stays, so that what is staged can always be decoded. -/
def stagingFits (s : State) (p : Nat) (d : Desc) : Bool :=
  decide (stagingNeed s d = 0) || stagingRoom s (stagingRidge p d) (stagingNeed s d + stageBytes 6)

/-- The class an engine pops next, if any has a published packet that can start. -/
def popClass (s : State) (p : Nat) : Option Nat :=
  let sp := spur s p
  let has : Nat → Bool := fun k => match (sp.classes.getD k {}).pop with
    | some (d, _) => stagingFits s p d
    | none => false
  if sp.g2 ≥ 64 ∧ has 2 then some 2
  else if sp.g3 ≥ 512 ∧ has 3 then some 3
  else [0, 1, 2, 3].find? has

/-- The guards' counts after a pop of class k. DESIGN CHOICE (log entry 47): the spec does not say whether a pop of class 3 breaks the run of
pops from classes 0 and 1 while class 2 waits; class 2's count stays as it was. -/
def Spur.popped (sp : Spur) (k : Nat) : Spur :=
  let has := fun j => ((sp.classes.getD j {}).pop).isSome
  if k ≤ 1 then { sp with g2 := if has 2 then sp.g2 + 1 else 0, g3 := if has 3 then sp.g3 + 1 else 0 }
  else if k = 2 then { sp with g2 := 0, g3 := if has 3 then sp.g3 + 1 else 0 }
  else { sp with g3 := 0 }

/-! ### The head item of a packet (R303) -/

/-- ARG of a head: unit handle, or PAGE_COUNT, REQUEST_ID or PARAMS. -/
def Desc.headArg (d : Desc) : Nat := if d.op = 0x18 ∨ d.op = 0x19 ∨ d.op = 0x30 then d.arg else d.handle.toNat

/-- R301: the opcode of a packet: a member's own work runs under an internal one. -/
def Desc.opcode (d : Desc) : Nat := if d.q = 0xFFFF ∧ (d.op = 0x09 ∨ d.op = 0x0B ∨ d.op = 0x10 ∨ d.op = 0x11) then 0x45 else d.op

/-- R303: the head item of a packet. A LINE_WRITE's names the entry's own address, its merge source stands in the body. -/
def headItem (s : State) (d : Desc) : BitVec 256 :=
  let track := match entOf s d.q d.idx with
    | some x => x.place
    | none => 0xFFFF
  let slots := d.lines.foldl (fun a (x : Nat × W64 × W64) => a + 2 ^ x.1) 0
  let key := match d.key with
    | some (k, g) => place 256 80 (g % 65536) ||| place 256 70 (k % 1024) ||| place 256 69 1
    | none => 0
  let own := match entOf s d.q d.idx with
    | some x => if d.op = 0x08 then (physOf s d.region (eFpa x.raw), eFpa x.raw) else (d.phys, d.named)
    | none => (d.phys, d.named)
  place 256 0 1 ||| place 256 8 ((d.items - 1) % 8) ||| place 256 16 (slots % 32) ||| place 256 24 (d.region % 256)
    ||| place 256 32 (d.flags % 256) ||| place 256 40 (d.opcode % 256) ||| place 256 48 (track % 65536) ||| key
    ||| place 256 96 (d.headArg % 2 ^ 32) ||| place 256 128 own.2.toNat ||| place 256 192 own.1.toNat

/-- A body item (R303) at place n of its packet. -/
def mkBody (n : Nat) (a b c : W64) (x : Nat) : BitVec 256 :=
  place 256 0 2 ||| place 256 8 (n % 256) ||| place 256 32 (x % 2 ^ 32) ||| place 256 64 c.toNat ||| place 256 128 b.toNat ||| place 256 192 a.toNat

/-- R303: body item n of a packet, from 1. -/
def bodyItem (d : Desc) (n : Nat) : BitVec 256 :=
  if d.op = 0x04 then
    match d.lines[n]? with
    | some (k, p, f) => mkBody n p f 0 k
    | none => 0
  else if d.op = 0x08 then mkBody n d.merge d.mask 0 d.handle.toNat
  else if d.op = 0x11 then mkBody n d.target 0 0 0
  else mkBody n (d.body.extractLsb' (192 * (n - 1)) 64) (d.body.extractLsb' (192 * (n - 1) + 64) 64) (d.body.extractLsb' (192 * (n - 1) + 128) 64) 0

/-- The four registers an item fills, the lowest word first (R288). -/
def itemRegs (i : BitVec 256) : List W64 := (List.range 4).map (fun k => i.extractLsb' (64 * k) 64)

/-! ### Sources of a page (R116) -/

/-- R117: the data of a line a unit holds, as a read from flash would deliver it: a pushed page (R258) is held as stored, and a sector
that was sealed before its unit was flushed (R374) as sealed under the unit's own base, so their lines are deciphered for the
reader. -/
def unitData (s : State) (x : Desc) (d : Led) (w : Want) (l : BitVec 528) : W512 :=
  if ¬ lValid l ∧ (d.copied ∨ lSealed l) then 0
  else if ¬ d.copied ∧ lSealed l then
    match d.key.bind (laneKey s (fRidge w.fpa)) with
    | none => poisonPattern 5 w.line
    | some m => gcmLine m (unitBase s d (w.plane - fPlane d.target) + BitVec.ofNat 64 (w.line / 64 * 64 * 4096)) (w.line % 64) (lData l)
  else if ¬ d.copied ∨ rOd s d.region 0x0A = 0 then lData l
  else match x.key.bind (laneKey s (fRidge w.fpa)) with
    | none => poisonPattern 5 w.line
    | some m =>
      if rOd s d.region 0x0A = 1 then xtsDec m (descDu s x w) (lData l)
      else gcmLine m (descDu s x { w with line := w.line / 64 * 64 }) (w.line % 64) (lData l)

/-- R117, R181: a page's wanted lines are taken from a unit. -/
def serveUnit (s : State) (p c u : Nat) (ws : List Want) : State :=
  let d := unit s u
  if ws = [] then s else
  let s := count (modUnit s u (fun d => { d with readers := d.readers + 1 })) 0x5800 0x07
  let s := modCtx s p c (fun x => { x with hits := x.hits ++ [u] })
  ws.foldl (fun s w =>
    let k := (w.plane - fPlane d.target) * 256 + w.line
    let l := d.lines.get 0 k
    let held := holdsLine d k
    let s := dropWant s p c w
    let x := (ctxOf s p c).desc
    if x.op = 0x08 then
      (if w.dst < 2 ^ 24 then mergeDone s x (if !held || !lValid l then 2 else if lPoison l then 3 else 1) (withData l (unitData s x d w l)) Status.ok else s)
    else if w.dst ≥ 2 ^ 24 then s
    else if held && lPoison l then
      writeLine (modCtx s p c (fun y => { y with acc := accLine y.acc w (.line l 0 false) })) p c w (poisonPattern 2 w.line)
    else writeLine s p c w (if held then unitData s x d w l else 0)) s

/-- R117, R195: a page's wanted lines are taken from a fill unit: no line of it is VALID. It goes with its group's program, so no
reader holds it. -/
def serveFill (s : State) (p c : Nat) (ws : List Want) : State :=
  if ws = [] then s else
  ws.foldl (fun s w =>
    let s := dropWant s p c w
    let x := (ctxOf s p c).desc
    if x.op = 0x08 then (if w.dst < 2 ^ 24 then mergeDone s x 2 0 Status.ok else s)
    else writeLine s p c w 0) (count s 0x5800 0x07)

/-- Does a read opcode take Ledge units as sources (R116, R225, R228, R258)? -/
def takesUnits (op : Nat) : Bool := isRead op || decide (op = 0x08)
/-- Does it consult the poison map? Scrub reads and gap moves do not (R228, R49). -/
def takesMap (op : Nat) : Bool := decide (op ≠ 0x18) && decide (op ≠ 0x40) && decide (op ≠ 0x41)

/-- R305: a gather read whose lines all lie in the poison map drops its body items. -/
def dropBodies (s : State) (p : Nat) (d : Desc) (ws : List Want) : State :=
  if d.op = 0x04 ∧ d.items > 1 ∧ ws.all (fun w => (poisonMask s d.region w.named).getLsbD w.line) then count s (0x4100 + p) 0x0C else s

/-- R187: a line of the merge source that the poison map names, where a unit or a fill holds the rest of its page, so that no sector comes
together for a tag check: any poisoned line of the sector fails the merge source of a sealed region there. -/
def mergeMapped (p c : Nat) (s : State) (w : Want) : State :=
  mergeDone (noteResult s p c w .mapped) (ctxOf s p c).desc 4 0 Status.ok

/-- R116: give each page of a context's wanted lines its source. -/
def sourcePage (p c : Nat) (s : State) (page : Nat) : State :=
  let x := ctxOf s p c
  let d := x.desc
  let mine := x.wants.filter (fun w => decide (w.key / 256 = page))
  match mine with
  | [] => s
  | w0 :: _ =>
    let m : BitVec 256 := if takesMap d.op then poisonMask s d.region w0.named else 0
    let u := if takesUnits d.op then sourceUnit s d.region w0.named else none
    let held := u.isSome || (takesUnits d.op && sourceFill s d.region w0.named)
    let mapped := mine.filter (fun w => m.getLsbD w.line)
    let rest := mine.filter (fun w => !m.getLsbD w.line)
    let alone := held && decide (d.op = 0x08) && verifies s d
    let s := if alone then s else mapped.foldl (fun s w => deliver s p c w .mapped) s
    let s := match u with
      | some u => serveUnit s p c u rest
      | none =>
        if held then serveFill s p c rest
        else if rest = [] then s
        else judgeRead (postWants s p c rest) p c w0.fpa
    if alone then mapped.foldl (mergeMapped p c) s else s

/-- The wants of a read descriptor (R94, R99, R131, R185). In a sealed region a line or a merge source wants its whole
sector; the lines that were not asked for go nowhere. -/
def readWants (s : State) (d : Desc) : List Want :=
  let whole := verifies s d
  let one (f named : W64) (dst : Nat) : List Want :=
    let w : Want := { plane := fPlane f, line := fLine f, dst := dst, fpa := fSetBlock f false (fBlock f), named := named }
    if whole then
      (List.range 64).map (fun i =>
        let k := fLine f / 64 * 64 + i
        if k = fLine f then w else { w with line := k, dst := 2 ^ 24, fpa := fSetLine w.fpa k })
    else [w]
  let page (k : Nat) (dst : Nat → Nat) : List Want :=
    (List.range 256).map (fun i =>
      { plane := fPlane d.phys + k, line := i, dst := dst i, fpa := fSetLine (fSetPlane d.phys (fPlane d.phys + k)) i,
        named := fSetPlane d.named (fPlane d.named + k) })
  if d.op = 0x01 then one d.phys d.named 0
  else if d.op = 0x08 then one d.phys d.named 0
  else if d.op = 0x02 then
    (List.range 64).map (fun i =>
      { plane := fPlane d.phys, line := fLine d.phys + i, dst := 64 * i, fpa := fSetLine d.phys (fLine d.phys + i), named := d.named })
  else if d.op = 0x03 then (List.range (d.flags % 8 + 1)).flatMap (fun k => page k (fun i => 16384 * k + 64 * i))
  else if d.op = 0x04 then
    -- lines asked for stand before the others of their sectors, so that a slot asked for is never taken for another's filler
    let all := d.lines.flatMap (fun y => one y.2.1 y.2.2 (64 * y.1))
    let asked := all.filter (fun w => decide (w.dst < 2 ^ 24))
    asked ++ (all.filter (fun w => decide (w.dst ≥ 2 ^ 24) && !asked.any (fun a => decide (a.key = w.key)))).eraseDups
  else if d.op = 0x11 then (List.range (d.flags % 8 + 1)).flatMap (fun k => page k (fun _ => 2 ^ 24))
  else if d.op = 0x19 then page 0 (fun _ => 2 ^ 24)
  else []

/-- Begin the reads of a descriptor: its wanted lines get their sources. -/
def beginRead (s : State) (p c : Nat) : State :=
  let d := (ctxOf s p c).desc
  let ws := readWants s d
  let s := modCtx (dropBodies s p d ws) p c (fun x => { x with wants := ws, stage := 0 })
  afterLines ((ws.map (fun w => w.key / 256)).eraseDups.foldl (sourcePage p c) (postHeaders s p c)) p c

/-- The pages of a scrub descriptor: a patrol step's planes, or SCRUB_RANGE's pages in page order, plane by plane (R233). A
patrol step leaves out half-erased blocks and pages beyond the LUN's own (R228). -/
def scrubPages (s : State) (d : Desc) : List W64 :=
  if d.op = 0x18 then
    (List.range d.arg).flatMap (fun i => (List.range (d.flags % 8 + 1)).map (fun k =>
      fSetPage (fSetPlane d.phys (fPlane d.phys + k)) (fPage d.phys + i)))
  else
    let l := fBlun d.phys
    ((List.range (lunPlanes s l)).map (fun k => fSetPlane d.phys k)).filter (fun f =>
      decide (fPage f < lunPages s l (rOd s d.region 0x06)) && !halfListed s f)

/-- Has the unit of a check gone meanwhile: a member's freed by a DISCARD (R250), an entry's ended by a slot erase (R205)? -/
def staleCheck (s : State) (d : Desc) : Bool :=
  let x := unit s (unitKey d.handle)
  if d.q = 0xFFFF then decide (d.op ≠ 0x11) && decide (x.gen ≠ hGen d.handle) else decide (x.gen ≠ hGen d.handle) || !x.reserved

/-- R182 check 3 has passed for a context's unit: UNIT_OPEN opens it, PAGE_PROGRAM goes on when its data is in, COPYBACK
reads its source. -/
def checkPassed (s : State) (p c : Nat) : State :=
  let d := (ctxOf s p c).desc
  if staleCheck s d then freeCtx s p c else
  let u := unitKey d.handle
  let s := modUnit s u (fun x => { x with reserved := false })
  if d.q = 0xFFFF ∧ d.op ≠ 0x11 then memberGo (freeCtx s p c) u
  else if d.op = 0x09 then
    -- a slot erased since the admission leaves the unit KEY_LOST (R184)
    let lost := match (unit s u).key with
      | some kg => decide (material s kg = none)
      | none => false
    closeLate (reportDesc (modUnit (freeCtx s p c) u (fun x => { x with keyLost := lost })) d ⟨0, 0, d.handle.toNat⟩) u
  else if d.op = 0x0B then pageLoaded (freeCtx s p c) u
  else beginRead s p c

/-- R182 check 3 has failed: the reservation is released and the entry ends; a member refuses the frame (R246 cause 5). -/
def checkFailed (s : State) (p c : Nat) (st : Status) : State :=
  let d := (ctxOf s p c).desc
  if staleCheck s d then freeCtx s p c else
  let k := unit s (unitKey d.handle)
  let l := (k.mkey.getD (0, 0)).1
  -- a pushed page that its probe refuses is one (R258, R261)
  let s := if d.q = 0xFFFF ∧ (k.mkey.getD (0, 0)).2 = 2 ^ 32 then cairn (count s (0x8100 + d.region) 0x08) 0x3A (cu 6 l) d.region 5 d.named 0 0 0 else s
  let s := if d.q = 0xFFFF ∧ d.op ≠ 0x11 then k.due.foldl (fun s n => refuseLater s l n) s else s
  let on := fun s : State => if d.q = 0xFFFF ∧ d.op ≠ 0x11 then forwardLater s l else s
  on <| moveRetry (reportDesc (freeCtx (dropReservation s (unitKey d.handle)) p c) d st) (unitKey d.handle / 232)

/-- The page whose block check 3 judges. -/
def checkPage (d : Desc) : W64 := if d.op = 0x11 then d.targetPhys else d.phys

/-- Run check 3 for a context (R182, R222 to R224). A probe waits for its port like every array read (R123, R124). -/
def runCheck (s : State) (p c : Nat) : State :=
  let d := (ctxOf s p c).desc
  let f := checkPage d
  match preCheck s d.region f d.arg with
  | .pass => checkPassed s p c
  | .fail st => checkFailed s p c st
  | .probe =>
    let ph : Phase := { ctx := 64, cls := d.cls, kind := .probe, lun := fBlun f, plane := fPlane f, fpa := f,
                        units := (List.range (d.arg + 1)).map (fun k => fPlane f + k), step := d.region }
    postPhase (modCtx s p c (fun x => { x with stage := 1 })) (fSpur f) (fPort f) ph

/-- The erase of a popped descriptor joins its LUN's erases (R208). -/
def queueErase (s : State) (c : Nat) (who : EraseFor) (d : Desc) : State :=
  let l := fBlun d.phys
  let j : EraseJob := { who := who, desc := d, ctx := c, planes := (List.range (d.arg % 8 + 1)).map (fun k => fPlane d.phys + k),
                        journal := decide (rOd s d.region 0x05 = 1), no := s.turns + 1 }
  modLun (stamp s) l (fun x => { x with erases := x.erases ++ [j] })

/-- What a popped descriptor starts with, by its opcode. An integrator opcode runs from its ENTRY word by word. -/
def startDesc (s : State) (p c : Nat) : State :=
  let d := (ctxOf s p c).desc
  let hold3 := fun s : State => modCtx s p c (fun x => { x with stage := 3 })
  if d.op = 0x18 ∨ d.op = 0x40 then
    let s := modCtx s p c (fun x => { x with pages := scrubPages s d, stage := 4 })
    match (ctxOf s p c).pages with
    | [] => if d.op = 0x40 then scrubDone (freeCtx s p c) d.region
            else reportDesc (freeCtx s p c) d Status.ok
    | _ => scrubNext s p c
  else if d.op = 0x09 ∨ d.op = 0x0B ∨ d.op = 0x11 then runCheck s p c
  else if d.op = 0x10 then queueErase (hold3 s) c (if d.q = 0xFFFF then .member else .entry) d
  else if d.op = 0x30 then hold3 s
  else if d.op = 0x41 then
    let s := modMove (hold3 s) d.region (fBlun d.phys) (fun m => { m with ctx := some c })
    match moveOf s d.region (fBlun d.phys) with
    | some m => moveGo s m
    | none => freeCtx s p c
  else if d.op ≥ 0x80 then
    modSpur (hold3 s) p (fun x => { x with current := if x.current = none then some c else x.current })
  else beginRead s p c

/-- r0 to r11 as a routine starts: the manual gives r1 to r11 no value there, so a routine the block runs word by word
finds free values. -/
def startRegs (s : State) (d : Desc) : List W64 :=
  if d.op ≥ 0x80 then 0 :: (List.range 11).map (fun i => Config.freeAlu (s.free + i)) else List.replicate 12 0

/-- The context a packet starts in (R288, R298). -/
def newCtx (s : State) (d : Desc) : Ctx :=
  { desc := d, cls := d.cls, pc := dEntry (dispatchOf s d.opcode), regs := startRegs s d ++ itemRegs (headItem s d), bodies := if d.op ≥ 0x80 then d.items - 1 else 0,
    charge := d.charge, commitAt := dEntry (dispatchOf s d.opcode), lun := fBlun d.phys,
    staging := stagingNeed s d, mapOn := decide (od s 0x2100 0x04 = 1), no := s.turns + 1 }

/-- Pop the packet R21 selects into a free context. A shipped routine reads its body items as it starts, or drops them (R305). -/
def popInto (s : State) (p c : Nat) : State :=
  match popClass s p with
  | none => s
  | some k =>
    match (screeOf s p k).pop with
    | none => s
    | some (d, q) =>
      let s := modSpur s p (fun x => (Spur.popped { x with classes := setAt x.classes k q } k))
      let s := if d.op ≥ 0x80 then s else readBodies s p k (d.items - 1)
      let s := screeDrain s p k
      let s := modSpur (count s (0x4100 + p) 0x0D) p (fun x => { x with ctxs := x.ctxs.set {} c (newCtx s d) }) |> stamp
      startDesc (if d.op ≥ 0x80 then { s with free := s.free + 11 } else s) p c

/-! ### Failures of a die (R332, R333) -/

/-- The contexts that wait for a LUN's current operation. -/
def busyCtxs (s : State) (l : Nat) : List Nat :=
  let x := lunOf s l
  let lad := match x.ladder with
    | some y => y.all
    | none => []
  match x.busy with
  | .read _ _ _ _ c _ => (c :: lad).eraseDups
  | .soft _ _ _ c _ => (c :: lad).eraseDups
  | .feature c => [c]
  | .routine c _ _ _ => c :: lad
  | _ => lad

/-- The contexts that wait for the probe a LUN runs, with their spurs: a COPYBACK's target may lie on another spur than its
source. -/
def probeCtxs (s : State) (l : Nat) : List (Nat × Nat) :=
  match (lunOf s l).busy with
  | .probe planes blk _ _ => s.spurs.entries.flatMap (fun e => (e.2.ctxs.entries.filter (fun c =>
      let f := checkPage c.2.desc
      decide (c.2.stage = 1) && decide (fBlun f = l) && decide (fBlock f = blk)
        && decide ((List.range (c.2.desc.arg + 1)).map (fun k => fPlane f + k) = planes))).map (fun c => (e.1, c.1)))
  | _ => []

/-- The erase a LUN runs or has suspended, its marker programs included, ends with a status; the planes the die has passed are erased
(R210). DESIGN CHOICE (log entry 29): a marker program that ends DIE_FAIL is not taken for a failed program of its flag block, so that no
switch falls due for it: R219 does not say. -/
def failErase (s : State) (l : Nat) (st : Status) : State :=
  match (lunOf s l).erases with
  | j :: _ =>
    if j.phase = .queued then s
    else
      let s := j.passed.foldl (fun s k => planeErased s l j k) s
      endErase (markerEnd (if j.passed = [] then s else lockRetry s l) l j) l j st
  | [] => s

/-- What ran on a LUN that has stopped answering ends with a status (R120). -/
def failOp (l : Nat) (s : State) (x : Busy × Status) : State :=
  match x.1 with
  | .program _ _ _ => cutProgram (modLun s l (fun y => { y with busy := x.1 })) l x.2
  | .erase _ _ => failErase s l x.2
  | .marker => failErase s l x.2
  | _ => s

/-- Microseconds from a moment to now, as EXTRA shows them (R333). -/
def usSince (s : State) (t : Nat) : Nat := sat (2 ^ 32 - 1) (s.ao.timeUs - t)

/-- R332, R333, R120: a LUN has stopped answering: RESET LUN for causes 1 and 2 (R330), its Cornice entries invalid, and what ran on it,
suspended work included, ends DIE_FAIL with a cause and the microseconds since its issue. -/
def dieFail (s : State) (l cause : Nat) : State :=
  let x := lunOf s l
  let st := fun t : Nat => (⟨0x33, lunPort l * 256 + cause, usSince s t⟩ : Status)
  let here := st x.issueUs
  let aside := st (x.susp.elim x.issueUs (fun u => if u.observed then u.issueUs else x.issueUs))
  let s := cairn (invalidateLun (if cause = 3 then s else bus s l (resetLun s l)) l) 0x2C (cu 12 l) 0xFFFF here.detail (mkFpaB false l 0 0 0 0) here.extra 0 0
  let s := cancelLoads s l
  let cs := (busyCtxs s l).map (fun c => (lunSpur l, c)) ++ probeCtxs s l
  let s := modLun s l (fun y => { y with busy := .idle, susp := none, suspended := none, ladder := none, invalid := 0 })
  let s := cs.foldl (fun s (x : Nat × Nat) => if ctxUsed s x.1 x.2 then failDesc s x.1 x.2 here else s) s
  let ops := (x.busy, here) :: (match x.suspended with
    | some b => [(b, aside)]
    | none => [])
  let s := ops.foldl (failOp l) s
  eraseGo (climbWaiting s l) l

/-- A timeout is counted on its channel (R333). -/
def countTimeout (s : State) (l : Nat) : State := count s (0x4400 + l / 16) 0x09

/-- R332: is a status byte invalid: RDY 0 with ARDY 1, or WP_n 0 while write protect is driven high? -/
def statusInvalid (byte : Byte) (wp : Bool) : Bool := (!byte.getLsbD 6 && byte.getLsbD 5) || (wp && !byte.getLsbD 7)

/-- A status byte is the last one of its LUN (R313), and the die status of the routines, the mailbox routine among them, whose last status
read named that LUN (R293, STAT). -/
def latchDie (s : State) (l : Nat) (byte : Byte) : State :=
  (spur s (lunSpur l)).ctxs.entries.foldl (fun s e =>
    if (e.2.desc.op ≥ 0x80 ∨ e.1 = 63) ∧ e.2.statLun = l then modCtx s (lunSpur l) e.1 (fun x => { x with die := byte }) else s)
    (modLun s l (fun x => { x with dieStatus := byte.toNat }))

/-- R332: an invalid status byte of a busy LUN is read again at once; the third in a row resets the LUN. -/
def invalidStatus (s : State) (l : Nat) : State :=
  if (lunOf s l).invalid ≥ 2 then dieFail s l 2 else modLun (bus s l (pollCycles s l)) l (fun x => { x with invalid := x.invalid + 1 })

/-- R128, R332: a poll of a LUN returns a status byte, when it is the poll's turn on the port. An invalid one of a busy LUN is read
again; a valid one with RDY set says that what it runs has come to its end. -/
def dieResult (s : State) (l : Nat) (byte : Byte) (f : State → State) : State :=
  if ¬ pollTurn s l then s
  else
    let s := latchDie (bus s l (pollCycles s l)) l byte
    if (lunOf s l).busy = .idle then s
    else if statusInvalid byte (chan s (l / 16)).wp then invalidStatus s l
    else
      let s := modLun s l (fun x => { x with invalid := 0 })
      if byte.getLsbD 6 then f s else s

/-- PROGRAM_RESULT (R198): a poll reports the end of a confirmed program: the failing planes, and the final status byte. -/
def execProgramResult (lun failMask : Nat) (byte : Byte) (s : State) : Host.Outcome State Fault Refusal :=
  gate s (match (lunOf s lun).busy with
    | .program _ _ _ => if dataInOpen s lun then s else dieResult s lun byte (fun s => programResult s lun failMask byte)
    | _ => s)

/-- R340: do RDY and every bit of SUSPENDED_MASK of a LUN's profile read 1 in a status byte? -/
def showsSuspended (s : State) (l : Nat) (byte : Byte) : Bool :=
  byte.getLsbD 6 && decide (byte.toNat &&& cmdByte s l 48 = cmdByte s l 48)

/-- A poll shows a LUN ready: a program or an erase that a routine has posted has ended, a probe goes on with its next operation, and the
LUN of a DIE_FEATURE has taken its parameters (R128, R224, R348). What no row reports otherwise ends here. -/
def pollReady (s : State) (l : Nat) : State :=
  match (lunOf s l).busy with
  | .routine _ k _ _ => if k = 0 then s else eraseGo (climbWaiting (modLun s l (fun x => { x with busy := .idle, susp := none })) l) l
  | .probe _ _ _ _ => probeNext s l
  | .feature c => climbWaiting (modCtx (modLun s l (fun x => { x with busy := .idle })) (lunSpur l) c (fun x => { x with stage := 6 })) l
  | _ => s

/-- STATUS_POLL (R128, R332, R340): a poll of a LUN returns a status byte; while a suspension is awaited it may show it. -/
def execStatusPoll (lun : Nat) (byte : Byte) (s : State) : Host.Outcome State Fault Refusal :=
  gate s (dieResult s lun byte (fun s =>
    if (lunOf s lun).susp ≠ none ∧ showsSuspended s lun byte then
      modLun s lun (fun x => { x with susp := x.susp.map (fun u => { u with shown := true }) })
    else pollReady s lun))

/-! ### Holds and suspensions -/

/-- HOLD_WINDOW_EXPIRY (R123): the entry is no longer held; refuge programs it has deferred go out. -/
def execHoldWindowExpiry (entry : Nat) (s : State) : Host.Outcome State Fault Refusal :=
  gate s (
    let s := modCorn s entry (fun c => { c with held := false })
    openingGo (refugeGo s (lunRidge (entry / 6))) (entry / 6))

/-- RESUME_RUN_ELAPSED (R132): reads refused only for that time suspend the operation now. -/
def execResumeRunElapsed (lun : Nat) (s : State) : Host.Outcome State Fault Refusal :=
  gate s (match (lunOf s lun).busy with
    | .erase _ _ | .program _ _ _ | .routine _ _ _ _ => judgeWaiting (modLun s lun (fun x => { x with runOk := true })) lun
    | _ => s)

/-- SUSPEND_OBSERVED (R340): the poll has shown the LUN suspended; the reads that joined are served (R133). -/
def execSuspendObserved (lun : Nat) (s : State) : Host.Outcome State Fault Refusal :=
  gate s (match (lunOf s lun).susp with
    | some u =>
      if u.observed ∨ ¬ u.shown then s
      else climbWaiting (modLun s lun (fun x =>
        { x with susp := some { u with observed := true, issueUs := x.issueUs, ranUs := x.ranUs + (s.ao.timeUs - x.startUs) },
                 suspended := some x.busy, busy := .idle })) lun
    | none => s)

/-- Has a time beyond BUSY_FACTOR times a declared one, both in nanoseconds, gone by (R333)? -/
def overdue (s : State) (us ns : Nat) : Bool := decide (1000 * us > od s 0x4300 0x02 * ns)

/-- R340: the declared suspend latency of what a LUN runs, in nanoseconds (R352). -/
def suspendTime (s : State) (l : Nat) : Nat :=
  let t := (lunOf s l).times1
  if (lunOf s l).busy.programs then 1000 * bitsOf t 31 16 else 1000 * bitsOf t 15 0

/-- SUSPEND_POLL_TIMEOUT (R340): the suspended state has not shown within BUSY_FACTOR times its latency. The block counts the time
itself. -/
def execSuspendPollTimeout (lun _us : Nat) (s : State) : Host.Outcome State Fault Refusal :=
  gate s (match (lunOf s lun).susp with
    | some u =>
      if (chan s (lun / 16)).lost ∨ u.observed ∨ u.shown ∨ ¬ overdue s (s.ao.timeUs - u.since) (suspendTime s lun) then s else dieFail (countTimeout s lun) lun 1
    | none => s)

/-- SUSPEND_WINDOW_EXPIRY (R133): no further read joins. -/
def execSuspendWindowExpiry (lun : Nat) (s : State) : Host.Outcome State Fault Refusal :=
  gate s (modLun s lun (fun x => { x with susp := x.susp.map (fun u => { u with windowOpen := false }) }))

/-- Issue the resume command of a LUN (R133 step 4, R340). -/
def resumeLun (s : State) (l : Nat) : State :=
  match (lunOf s l).suspended with
  | none => s
  | some b => resumed (bus s l (suspendCycles s l (if b.programs then cmdByte s l 40 else cmdByte s l 24))) l b

/-- RESUME_ISSUE (R133): every admitted read has finished its die operations, and the port has no work before the resume command
(R124). -/
def execResumeIssue (lun : Nat) (s : State) : Host.Outcome State Fault Refusal :=
  gate s (if resumeReady s lun ∧ portTurn s lun (suspendedClass s lun) ((lunOf s lun).susp.elim 0 (fun u => u.no)) then resumeLun (tookTurn s lun (suspendedClass s lun)) lun else s)

/-! ### Responses to read data -/

/-- The answer to a data write of a read (R97): the entry may become final. -/
def rdataAnswer (s : State) (r : FabReq) (q i : Nat) (err : Bool) : State :=
  let s := modEnt (fabTake s r err) q i (fun e => { e with io := e.io - 1 })
  settle (if err then dataFail s q i r.addr else s) q i

/-- READ_DATA_WRITE_RESPONSE (R97): a data write of a read is acknowledged. -/
def execReadDataWriteResponse (tag : Nat) (err : Bool) (s : State) : Host.Outcome State Fault Refusal :=
  gate s (match reqOf s tag with
    | none => lateTag s
    | some r => match r.purpose with
      | .rdata q i => rdataAnswer s r q i err
      | .stale => fabTake s r err
      | _ => s)

/-! ### DIE_FEATURE (R348) -/

/-- The context of a DIE_FEATURE with a sub-operation that waits for its LUN. -/
def featureCtx (s : State) (p c sub : Nat) : Bool :=
  let x := ctxOf s p c
  ctxUsed s p c && decide (x.desc.op = 0x30) && decide (bitsOf x.desc.body 7 0 = sub)

/-- Does a LUN take new thresholds, which keeps it busy for tFEAT (R333)? -/
def setsSteps (s : State) (l : Nat) : Bool := match (lunOf s l).ladder with
  | some y => decide (y.phase = 0) || decide (y.phase = 3)
  | none => false

/-- How many SET FEATURES a ladder has sent for the thresholds it sets or restores: each keeps the LUN busy for tFEAT. -/
def setsSent (s : State) (l : Nat) : Nat := match (lunOf s l).ladder with
  | some y => ((if y.phase = 3 then ladderRestore s l y else ladderCycles s l y).filter (fun c =>
      decide (c = .cmd 0xEF) || decide (c = .cmd 0xD5))).length
  | none => 0

/-- R333, R352: the declared maximum of what a LUN does now, in nanoseconds: tR for an array read, tPROG, tBERS, tFEAT for each
setting of a ladder; a probe's operations are held to theirs one by one. -/
def busyMax (s : State) (l : Nat) : Nat :=
  let x := lunOf s l
  let tR := 1000 * bitsOf x.times0 31 16
  let feat := bitsOf x.times1 47 32
  match x.busy with
  | .idle => setsSent s l * feat
  | .read _ _ _ _ _ _ => tR
  | .soft _ _ _ _ _ => tR
  | .program _ _ _ => 1000 * bitsOf x.times0 47 32
  | .marker => 1000 * bitsOf x.times0 47 32
  | .erase _ _ => 10000 * bitsOf x.times0 63 48
  | .probe _ _ _ todo => if (todo.head?).any (fun o => o.1) then tR else feat
  | .routine _ k _ _ => if k = 2 then 10000 * bitsOf x.times0 63 48 else 1000 * bitsOf x.times0 47 32
  | .feature _ => feat

/-- BUSY_TIMEOUT (R333): the LUN has stayed busy beyond BUSY_FACTOR times its declared maximum, in an array operation, while
thresholds are set, or in a DIE_FEATURE. The block counts the time itself, suspended intervals left out. A channel that has lost its
training is not polled, so that nothing times out there (R347). -/
def execBusyTimeout (lun _us : Nat) (s : State) : Host.Outcome State Fault Refusal :=
  gate s (
    let x := lunOf s lun
    if ¬ (chan s (lun / 16)).lost ∧ ((x.busy ≠ .idle ∧ ¬ dataInOpen s lun ∧ ¬ x.busy.dataIn) ∨ (x.busy = .idle ∧ setsSteps s lun))
        ∧ overdue s (x.ranUs + (s.ao.timeUs - x.startUs)) (busyMax s lun) then dieFail (countTimeout s lun) lun 1
    else s)

/-- R348: a DIE_FEATURE goes out on its LUN when that is free, no hold defers it and its port lets it: the LUN is busy for tFEAT. -/
def featureGo (s : State) (p c : Nat) (cycles : List BusCyc) : State :=
  let x := ctxOf s p c
  let l := fBlun x.desc.phys
  if featureReady s x.desc ∧ portTurn s l x.cls x.no then
    modLun (bus (tookTurn s l x.cls) l (.ce x.desc.phys :: cycles)) l (fun y => y.issue (.feature c) s.ao.timeUs)
  else s

/-- The LUN of a DIE_FEATURE is ready again: the entry reports the parameters. -/
def featureEnd (s : State) (p c : Nat) (v : Nat) : State := reportDesc (freeCtx s p c) (ctxOf s p c).desc ⟨0, 0, v % 2 ^ 32⟩

/-- A GET form: the cycles go out, the LUN is polled to its end (STATUS_POLL), then the parameters as read back are reported. -/
def featureGet (s : State) (p c : Nat) (v : BitVec 32) : State :=
  let x := ctxOf s p c
  let l := fBlun x.desc.phys
  if x.stage = 6 then featureEnd s p c v.toNat
  else if (lunOf s l).busy = .feature c then s
  else featureGo s p c (getFeature l (featureWide s x.desc) (bitsOf x.desc.body 15 8))

/-- A SET form: the cycles go out, and Cornice entries behind the CE, or of the LUN, are invalid (R120); with the LUN polled to its end the
parameters as written are reported. -/
def featureSet (s : State) (p c : Nat) : State :=
  let d := (ctxOf s p c).desc
  let l := fBlun d.phys
  if (ctxOf s p c).stage = 6 then featureEnd s p c d.arg
  else if (lunOf s l).busy = .feature c then s
  else
    let t := featureGo s p c (setFeature l (featureWide s d) (bitsOf d.body 15 8) d.arg)
    if (lunOf t l).busy = .feature c then (if featureWide s d then invalidateLuns t [l / 2 * 2, l / 2 * 2 + 1] else invalidateLun t l) else t

/-- GET_FEATURES (R348). -/
def execGetFeatures (step : FeatStep) (s : State) : Host.Outcome State Fault Refusal :=
  gate s (match step with
    | .enter q => admitRow (fun e => decide (eOpcode e = 0x30) && decide (eSubop e = 0)) q s
    | .run p c v => if featureCtx s p c 0 then featureGet s p c v else s)
/-- SET_FEATURES (R348). -/
def execSetFeatures (step : FeatStep) (s : State) : Host.Outcome State Fault Refusal :=
  gate s (match step with
    | .enter q => admitRow (fun e => decide (eOpcode e = 0x30) && decide (eSubop e = 1)) q s
    | .run p c _ => if featureCtx s p c 1 then featureSet s p c else s)
/-- LUN_GET_FEATURES (R348). -/
def execLunGetFeatures (step : FeatStep) (s : State) : Host.Outcome State Fault Refusal :=
  gate s (match step with
    | .enter q => admitRow (fun e => decide (eOpcode e = 0x30) && decide (eSubop e = 2)) q s
    | .run p c v => if featureCtx s p c 2 then featureGet s p c v else s)
/-- LUN_SET_FEATURES (R348). -/
def execLunSetFeatures (step : FeatStep) (s : State) : Host.Outcome State Fault Refusal :=
  gate s (match step with
    | .enter q => admitRow (fun e => decide (eOpcode e = 0x30) && decide (eSubop e = 3)) q s
    | .run p c _ => if featureCtx s p c 3 then featureSet s p c else s)

end Sys2Proof.Machine
end

