-- ==== Sys2Proof/Machine/Erase.lean ====
section
/-! DEFINITION. Rows of erases, markers and probes (R208 to R224), gap moves (R46), patrol scrub (R227 to R233), regions that
stop (R41), and the tag check of sealed sectors (R281 to R283). -/

namespace Sys2Proof.Machine

/-! ### Erases -/

/-- A JOURNAL erase ends because no flag block takes its INTENT: a status byte of a flag block's operation, no plane, its
target block (R218, R219). -/
def unmarkedStatus (byte : Nat) (j : EraseJob) : Status := ⟨0x32, 0xF000 + byte, fBlock j.desc.phys⟩

/-- The switch that falls due before the next marker of a LUN (R219): with a flag block taken, the erase at the head starts,
or programs its DONE; short of energy the switch waits before its next page; with both blocks failed the erase ends, before its erase
command by R218, after it by the die's result. -/
def switchFirst (s : State) (l : Nat) (j : EraseJob) : State :=
  if ¬ eraseOpen s l ∨ ¬ (j.phase = .doneMark ∨ (j.phase = .queued ∧ ¬ eraseBlocked s l j)) then s
  else
    let r := flagSwitch (tookTurn s l 3) l
    match r.2 with
    | .short => eraseShort r.1 l
    | .done => if j.phase = .queued then startErase r.1 l else startDone r.1 l
    | .failed b =>
      if j.phase = .queued then endErase (if j.retried then r.1 else takeSeq r.1 l) l j (unmarkedStatus (if j.retried then j.byte else b) j)
      else settleErase r.1 l j

/-- ERASE_COMMAND_ISSUE (R209): every COMMITTED or PROGRAMMING unit on the block has reached DONE: the erase, or its intent
marker in a JOURNAL region, is issued. A DONE marker that waited for its port, for energy or for a switch is issued here too. -/
def eraseIssue (s : State) (l : Nat) : State :=
  match (lunOf s l).erases with
  | j :: _ => if j.journal ∧ j.phase ≠ .marked ∧ switchDue s l then switchFirst s l j else eraseGo s l
  | [] => s

/-- ERASE_COMMAND_ISSUE (R209). -/
def execEraseCommandIssue (lun : Nat) (s : State) : Host.Outcome State Fault Refusal := gate s (eraseIssue s lun)

/-- R218, R219, R405: a marker program has failed: it is recorded, and the next marker needs a switch. -/
def markerFailed (s : State) (l byte kind region : Nat) : State :=
  let x := lunOf s l
  modLun (markerRecordOf s l x.flagBlock (x.flagPage - 1) byte kind region) l (fun x => { x with flagBad := true })

/-- INTENT_MARKER_RESULT (R218, R221): the intent marker's program has ended: the erase command follows when its port lets it, and
not at all once the power-fail sequence has begun; a first failure leads through a switch to the same record once more. -/
def intentResult (s : State) (l : Nat) (byte : Byte) : State :=
  match (lunOf s l).erases with
  | j :: _ =>
    if j.phase ≠ .intent ∨ (lunOf s l).busy ≠ .marker then s
    else
      let s := markerEnd s l j
      if ¬ byte.getLsbD 0 then
        let s := modLun s l (fun x =>
          { x with markers := x.markers ++ [⟨fBlock j.desc.phys, planeMask j.planes, j.seq, j.desc.region, j.record, x.flagBlock⟩] })
        startMarked (modErase s l (fun j => { j with phase := .marked, retried := false })) l
      else
        let s := markerFailed s l byte.toNat 1 j.desc.region
        if j.retried then endErase s l j (unmarkedStatus byte.toNat j)
        else eraseIssue (modErase s l (fun j => { j with phase := .queued, retried := true, byte := byte.toNat })) l
  | [] => s

/-- INTENT_MARKER_RESULT (R218). -/
def execIntentMarkerResult (lun : Nat) (byte : Byte) (s : State) : Host.Outcome State Fault Refusal :=
  gate s (if (lunOf s lun).busy = .marker then dieResult s lun byte (fun s => intentResult s lun byte) else s)

/-- The die has reported the result of an erase on its planes, by its final status byte (R332): with planes left the next one is issued
when its port lets it (R208); then a DATA
erase is complete, and a JOURNAL erase programs its DONE marker (R221). -/
def eraseResult (s : State) (l failMask : Nat) (byte : Byte) : State :=
  match (lunOf s l).erases, (lunOf s l).busy with
  | j :: _, .erase now _ =>
    let bad := failingPlanes now failMask byte
    let j := { j with fail := j.fail ||| planeMask bad, byte := if j.fail = 0 then byte.toNat else j.byte,
                      passed := j.passed ++ now.filter (fun k => !bad.contains k) }
    let s := modErase (modLun s l (fun x => { x with busy := .idle })) l (fun _ => { j with phase := if j.journal ∧ j.left = [] then .doneMark else j.phase })
    let s := climbWaiting s l
    if j.left ≠ [] then startNext s l else if j.journal then startDone s l else settleErase s l j
  | _, _ => s

/-- ERASE_RESULT (R210). -/
def execEraseResult (lun failMask : Nat) (byte : Byte) (s : State) : Host.Outcome State Fault Refusal :=
  gate s (match (lunOf s lun).busy with
    | .erase _ _ => dieResult s lun byte (fun s => eraseResult s lun failMask byte)
    | _ => s)

/-- DONE_MARKER_RESULT (R221): the done marker's program has ended; a first failure switches flag blocks and programs it once
more, and the entry completes by the die's erase result either way (R218). -/
def doneResult (s : State) (l : Nat) (byte : Byte) : State :=
  match (lunOf s l).erases with
  | j :: _ =>
    if j.phase ≠ .doneMark ∨ (lunOf s l).busy ≠ .marker then s
    else
      let s := markerEnd s l j
      if ¬ byte.getLsbD 0 then
        settleErase (modLun s l (fun x => { x with markers := resolveMarks x.markers (fBlock j.desc.phys) (planeMask j.planes) j.fail j.seq })) l j
      else
        let s := markerFailed s l byte.toNat 2 j.desc.region
        if j.retried then settleErase s l j
        else eraseIssue (modErase s l (fun j => { j with retried := true })) l
  | [] => s

/-- DONE_MARKER_RESULT (R221). -/
def execDoneMarkerResult (lun : Nat) (byte : Byte) (s : State) : Host.Outcome State Fault Refusal :=
  gate s (if (lunOf s lun).busy = .marker then dieResult s lun byte (fun s => doneResult s lun byte) else s)

/-! ### Probes -/

/-- The block a check-3 descriptor names, in the form its entry gave it (R43). -/
def checkNamed (d : Desc) : W64 := fSetPage (fSetLine (if d.op = 0x11 then d.target else d.named) 0) 0

/-- The probe of context c of spur p has ended with the zero counts of its reads: those of page 0 on its planes, then those of the
last page (R224). -/
def probeEnded (s : State) (l p c : Nat) (zeros : List Nat) : State :=
  let d := (ctxOf s p c).desc
  let f := checkPage d
  let n := d.arg + 1
  let limit := od s 0x2200 0x03
  let bad := (List.range n).filter (fun k => decide (zeros.getD k 0 > limit) || decide (zeros.getD (n + k) 0 > limit))
  let planes := (List.range n).map (fun k => fPlane f + k)
  let s := count s (0x2210 + lunRidge l) 0x03
  let s := modCtx s p c (fun x => { x with stage := 0 })
  if bad = [] then checkPassed (freshAdd s l (fBlock f) (planeMask planes)) p c
  else
    let mask := planeMask (bad.map (fun k => fPlane f + k))
    let s := halfInsert s l (fBlock f) mask 1
    let s := cairn (count s (0x2210 + lunRidge l) 0x04) 0x2B (cu 12 l) d.region 0 (checkNamed d) mask 0 0
    checkFailed s p c (halfStatus (fPlane f + bad.headD 0) 1 (fBlock f))

/-- The thresholds a probe moved are restored before any other array read of the LUN (R224, R161): with the page of the two whose type uses
more offsets, so that every feature changed is written back (R338). -/
def probeRestore (s : State) (l region block : Nat) : State :=
  let m := rOd s region 0x06
  let last := lunPages s l m - 1
  if offsetFeature s l (od s (0x2140 + rOd s region 0x07) 0x03) then
    let y : Ladder :=
      { ctx := 64, plane := 0, block := block, page := if offsetsUsed s l m last > offsetsUsed s l m 0 then last else 0, region := region,
        system := false, rung := 4, tried := [], n := 0, step := 0, joined := [], phase := 3, soft := 0, limit := 0, softOn := false }
    modLun (bus s l (ladderRestore s l y)) l (fun x => { x with ladder := some y })
  else climbWaiting s l

/-- A probe's last read ends on a LUN: the first context that waits for it goes on by its counts. -/
def probeResult (s : State) (l : Nat) (zeros : List Nat) : State :=
  match (lunOf s l).busy with
  | .probe _ blk r todo =>
    if todo.length > 1 then s
    else
      let cs := probeCtxs s l
      let s := modLun s l (fun x => { x with busy := .idle })
      probeRestore (match cs with
        | (p, c) :: _ => probeEnded s l p c zeros
        | [] => s) l r blk
  | _ => s

/-- PROBE_RESULT (R224). -/
def execProbeResult (lun : Nat) (zeros : List Nat) (s : State) : Host.Outcome State Fault Refusal := gate s (probeResult s lun zeros)

/-! ### Gap moves -/

/-- R46 step 4: S and G after a move. -/
def afterMove (L S G : Nat) : Nat × Nat := if G > 0 then (S, G - 1) else ((S + 1) % L, L)

/-- R48, R195: the OPEN units of a region on a LUN map with the Traverse state as it now stands; the unit of a move keeps its page. -/
def remapOpen (s : State) (r l : Nat) : State :=
  (s.units.entries.filter (fun e => decide (e.2.state = .opened) && decide (e.2.region = r) && decide (fBlun e.2.phys = l) && decide (e.2.kind ≠ .gapMove))).foldl
    (fun s e => modUnit s e.1 (fun d => { d with phys := physOf s r d.target })) s

/-- Commit a move whose pages are all programmed (R46): S, G, MOVES, record; held entries go on, and the next move may
start. -/
def commitMove (s : State) (m : Move) : State :=
  let t := tvOf s m.region m.lun
  let sg := afterMove (winL s m.region) t.start t.gap
  let s := remapOpen (modTv s m.region m.lun (fun t => { t with moving := false, start := sg.1, gap := sg.2 })) m.region m.lun
  let s := count s (0x2000 + m.region) 0x14
  let s := cairn s 0x18 (cu 12 m.lun) m.region 0 0 (sg.1 * 65536 + sg.2) (rOd s m.region 0x14) 0
  let s := { s with moves := s.moves.filter (fun x => ¬ (x.region = m.region ∧ x.lun = m.lun)) }
  let s := match m.ctx with
    | some c => freeCtx s (lunSpur m.lun) c
    | none => s
  testMoves (releaseMoves s) m.lun

/-- GAP_MOVE_COMMIT (R46). -/
def execGapMoveCommit (r lun : Nat) (s : State) : Host.Outcome State Fault Refusal :=
  gate s (match moveOf s r lun with
    | some m => if m.stage = 4 then commitMove s m else s
    | none => s)

/-! ### Scrub -/

/-- SCRUB_STEP_DUE (R227): a patrol step falls due. With reads of the last one outstanding it waits for them, and is counted
late. -/
def execScrubStepDue (r : Nat) (s : State) : Host.Outcome State Fault Refusal :=
  gate s (
    let g := region s r
    if ¬ scrubRuns s r then s
    else if g.scrubOut > 0 then
      (if g.scrubLate then s else count (modRegion s r (fun g => { g with scrubLate := true })) (0x2300 + r) 0x05)
    else scrubStep s r)

/-- SCRUB_PAGE_ASSESSED (R229): a page read by a step or SCRUB_RANGE is assessed. -/
def execScrubPageAssessed (spurNo c : Nat) (s : State) : Host.Outcome State Fault Refusal :=
  gate s (
    let x := ctxOf s spurNo c
    if ctxUsed s spurNo c ∧ x.stage = 4 ∧ (x.desc.op = 0x18 ∨ x.desc.op = 0x40) then assessPage s spurNo c else s)

/-! ### Regions that stop (R41) -/

/-- Is admitted work of a region left: entries admitted and not final, moves, units, held work? -/
def regionBusy (s : State) (r : Nat) : Bool :=
  s.queues.entries.any (fun q => q.2.ents.any (fun e => decide (e.order ≠ none) && decide (e.fin = none) && decide (eRegion e.raw = r)
    && decide (eOpcode e.raw ≠ 0x30) && decide (eOpcode e.raw ≠ 0x20)))
  || s.moves.any (fun m => decide (m.region = r))
  || s.units.entries.any (fun e => decide (e.2.state ≠ .free) && decide (e.2.region = r))
  || s.ridges.entries.any (fun e => e.2.fills.any (fun x => decide (x.region = r)))
  || decide ((region s r).scrubOut > 0)

/-- REGION_STOPPED (R41): the last admitted work of a DRAINING region is done, and its last unit FREE. DESIGN CHOICE (log entry 30): the
Refresh pages of a block the scrubber has not left go without a record; the spec is silent on them. -/
def execRegionStopped (r : Nat) (s : State) : Host.Outcome State Fault Refusal :=
  gate s (if (region s r).state = 2 ∧ ¬ regionBusy s r then
      modRegion s r (fun g => { g with state := 0, scrubLate := false, refresh := [], mirror := 7 })
    else s)

/-! ### Tag checks (R281 to R283) -/

/-- Why a sector fails its check, 0 for a pass (R282). -/
def tagReason (s : State) (j : GcmJob) : Nat :=
  let ls := (List.range 64).map (fun i => ((j.lines.find? (fun x => x.1 = j.sector * 64 + i)).map (fun x => x.2)).getD 0)
  match j.key.bind (laneKey s (j.spur / 4)) with
  | none => 1
  | some m =>
    if j.bad ≠ 0 then j.bad
    else if ls.any (fun l => !lSealed l) then 3
    else
      let tag := gcmTag m j.du (ls.map lMeta0) (ls.map lData)
      if tag = (ls.map lMeta1).take 16 then 0 else 4

/-- R283, R285: a sector whose tag fails, a merge source's as well, is counted and recorded as g names it. -/
def tagRecord (s : State) (d : Desc) (f g : W64) : State :=
  cairn (count s 0x6000 0x12) 0x30 (cu 12 (fBlun f)) d.region d.slot g ((d.key.getD (0, 0)).2) 0 0

/-- A sector has been checked: held lines go out, or requested lines go as poison (R282, R283). DESIGN CHOICE (log entry 26): of
several failing sectors of a SEALED_STREAM read the latest gives TAG_FAIL its count of lines delivered before the failure, which the
spec does not settle. -/
def sectorChecked (s : State) (p c : Nat) (j : GcmJob) (reason : Nat) : State :=
  let x := ctxOf s p c
  let d := x.desc
  let k := j.sector
  let f := keyFpa (k * 64)
  -- the record names the page as the entry does (R43)
  let named := ((d.lines.find? (fun y => decide (pageKey y.2.1 = pageKey f))).map (fun y => y.2.2)).getD d.named
  let g := fSetLine (fSetPlane named (fPlane f)) (fLine f)
  let s := modCtx s p c (fun y => { y with gcmOut := y.gcmOut - 1 })
  if reason = 0 then passSector s p c k j.lines
  else if d.op = 0x08 then tagRecord (mergeDone (dropSector s p c k) d 4 0 Status.ok) d f g
  else if reason = 1 then loseSector (count s 0x6000 0x12) p c k
  else
    let n := if rOd s d.region 0x0A = 3 then x.acc.delivered else 0
    let s := (heldOf x k).foldl (fun s y => writeLine s p c y.1 (poisonPattern 4 y.1.line)) (dropSector s p c k)
    let first := decide (x.acc.tag = 0) || decide (fPlane f * 256 + fLine f < x.acc.tagPlane * 256 + x.acc.tagLine)
    let note := fun (a : Acc) =>
      { a with tag := a.tag + 1, tagDelivered := n, tagLine := if first then fLine f else a.tagLine,
               tagPlane := if first then fPlane f else a.tagPlane }
    tagRecord (modCtx s p c (fun y => { y with acc := note y.acc })) d f g

/-- TAG_VERIFY_DONE (R282): a GCM engine has finished a sector's check. -/
def execTagVerifyDone (ridgeNo engine : Nat) (s : State) : Host.Outcome State Fault Refusal :=
  gate s (match gcmJob s ridgeNo (engine % 2) with
    | some j =>
      if j.sealing then s
      else
        let s := gcmFree s ridgeNo (engine % 2)
        if ¬ ctxUsed s j.spur j.ctx then s
        else
          let blank := decide (j.bad = 0) && j.lines.all (fun l => decide (l.2 = 0))
          let reason := if blank then 0 else tagReason s j
          let s := if blank then s else count s 0x6000 0x14
          afterLines (sectorChecked s j.spur j.ctx j reason) j.spur j.ctx
    | none => s)

end Sys2Proof.Machine
end

