-- ==== Sys2Proof/Machine/ColRx.lean ====
section
/-! DEFINITION. The Col port's receiving side: links and their states (R251), frames received in order (R245, R246), what a
member does with them (R250), acknowledges (R247, R248), degraded and detached regions (R252 to R255), repairs (R257 to
R259). -/

namespace Sys2Proof.Machine

/-! ### Degrading and detaching -/

/-- Is an entry a write of region r whose frames the tail has not all acknowledged (R254)? -/
def unacked (s : State) (r q : Nat) (e : Ent) : Bool :=
  let op := eOpcode e.raw
  decide (e.order ≠ none) && decide (e.fin = none) && decide (eRegion e.raw = r) && (decide (op = 0x08) || decide (op = 0x0B)) &&
    (e.mirror || (decide (op = 0x08) && decide (e.left > 0)) ||
      (decide (op = 0x0B) && s.units.entries.any (fun u => decide (u.2.commit = some (q, e.idx)) && decide (u.2.loading ≠ 0))))

/-- R254: an ORIGIN region degrades: its unacknowledged writes complete MIRROR_DEGRADED, its units stop waiting for the
chain, DEGRADE goes down, notice and record. -/
def degradeRegion (s : State) (r pos cause : Nat) : State :=
  if (region s r).mirror ≠ 1 ∧ (region s r).mirror ≠ 2 then s
  else
    let l := downLink s r
    let s := modRegion s r (fun g => { g with mirror := 0 })
    let s := modLink s l (fun x => { x with timers := x.timers.filter (fun t => t.region ≠ r), own := x.own.filter (fun e => e.2 ≠ r) })
    let s := { s with units := s.units.mapVals {} (fun d => if d.region = r then { d with mirror := [] } else d) }
    let ws := s.queues.entries.flatMap (fun q => (q.2.ents.filter (unacked s r q.1)).map (fun e => (q.1, e.idx, eFpa e.raw)))
    let s := ws.foldl (fun s (w : Nat × Nat × W64) =>
      settle (modEnt (mergeStatus s w.1 w.2.1 ⟨0x50, pos, 0⟩ w.2.2 (fLine w.2.2)) w.1 w.2.1 (fun e => { e with mirror := false })) w.1 w.2.1) s
    let s := sendFrame s l (mkHeader 0x09 0 (chainId s r) 0 0 pos 0) [] r
    mirrorNotice s r l pos cause

/-- R254: a member region detaches: each of its open units is committed as it stands, with a record, and one whose lines a key erase
took goes to DONE (R180); notice, with the position that
failed the chain as DEGRADE names it (R242, R256). -/
def detachRegion (s : State) (r l pos cause : Nat) : State :=
  if (region s r).mirror ≠ 4 then s
  else
    let s := modRegion s r (fun g => { g with mirror := 5 })
    let gone := (s.units.entries.filter (fun e => decide (e.2.region = r) && decide (e.2.mkey = none) && decide (e.2.state = .opened) && !e.2.reserved && e.2.keyLost)).map (fun e => e.1)
    let s := gone.foldl (fun s u => toDone (closedRecord s u 3) u) s
    let us := (s.units.entries.filter (fun e => decide (e.2.region = r) && decide (e.2.mkey ≠ none) && decide (e.2.state = .opened) && (!e.2.failed || e.2.keyLost))).map (fun e => e.1)
    let s := us.foldl (fun s u =>
      let d := unit s u
      let s := closedRecord s u (if d.keyLost then 3 else 1)
      memberGo (modUnit (if d.keyLost then s else count s (0x8100 + r) 0x07) u (fun d => { d with loading := 0, commitDue := true })) u) s
    mirrorNotice s r l pos cause

/-- Regions whose mirroring uses a link, not STOPPED. -/
def mirrorRegions (s : State) (p : Nat → Bool) : List Nat :=
  (List.range 256).filter (fun r => decide ((region s r).state ≠ 0) && decide (rOd s r 0x0C ≠ 0) && p r)

/-- R251, R254, R255: a link leaves UP. Its buffers go; origin regions on it degrade, member regions fed by it detach, those
that forward on it stop forwarding. Held work that waits for the link is judged again. -/
def linkDown (s : State) (l state cause pos nak : Nat) : State :=
  let served := (link s l).waiting.filterMap (fun f => f.serve)
  let s := modLink s l (fun x => { x with
    state := state, cause := cause, txSeq := 0, rxNext := 0, credits := 0, creditsSeen := 0, freed := 0, replay := [], waiting := [],
    unheld := [], fwd := [], later := [], own := [], heldIn := [0, 0, 0, 0], heldOut := [0, 0, 0, 0] })
  -- frames of the other link that were or would be forwarded here will never be held beyond (R255)
  let s := modLink s (1 - l) (fun x => { x with fwd := x.fwd.map (fun e => (e.1, e.2.1, none)), later := [] })
  -- a REPAIR_SERVE whose frame has not gone out finds its link down (R258)
  let s := served.foldl (fun s x => reportDesc s x.1 ⟨0x51, 1, x.1.arg⟩) s
  let s := if state = 3 then count s (0x8010 + l) 0x08 else s
  let s := readyChange s 6 l false (if cause = 6 then 1 else 5)
  let ex := nak * 256 + cause
  let s := (mirrorRegions s (fun r => isOrigin s r && decide (downLink s r = l))).foldl (fun s r => degradeRegion s r pos ex) s
  let s := modLink s l (fun x => { x with timers := [] })
  let s := (mirrorRegions s (fun r => decide (rOd s r 0x0C = 2) && decide (upLink s r = l))).foldl (fun s r => detachRegion s r l 0 ex) s
  let s := (mirrorRegions s (fun r => decide (rOd s r 0x0C = 2) && decide (downLink s r = l) && decide (chainPos s r < chainLen s r))).foldl
    (fun s r => mirrorNotice s r l (chainPos s r + 1) ex) s
  releaseHeld s (fun c => decide (c = .link l))

/-- R251: a link fails. -/
def linkFail (s : State) (l cause pos nak : Nat) : State := if (link s l).state = 2 then linkDown s l 3 cause pos nak else s

/-- A write of 1 to a link's ENABLE (R251). The serializer trains its lanes while ENABLE is 1: no command raises M_l_LANES_UP, and the
model takes it to rise here (DESIGN CHOICE, log entry 31). -/
def enableLink (s : State) (l : Nat) : State :=
  match (link s l).state with
  | 0 => modLink s l (fun x => { x with state := 1, lanes := true })
  | 3 => modLink s l (fun x => { x with early := true })
  | _ => s

/-- A write of 0 (R251). -/
def disableLink (s : State) (l : Nat) : State :=
  let x := link s l
  if x.state = 2 then modLink (linkDown s l 0 6 0 0) l (fun x => { x with lanes := false })
  else releaseHeld (modLink s l (fun x => { x with state := 0, lanes := false })) (fun c => decide (c = .link l))

/-- The HELLO flit of this block (R242). -/
def helloFlit (s : State) : Flit :=
  withSeq (mkHeader 1 0 0 (BitVec.ofNat 64 (od s 0x8000 0x01)) (BitVec.ofNat 32 (od s 0x1000 0x01)) 0
    (place 1024 160 (od s 0x1000 0x02) ||| place 1024 192 512)) 0

/-- HELLO_TIMER (R251): HELLO is sent every 10 µs in TRAINING. -/
def execHelloTimer (l : Nat) (s : State) : Host.Outcome State Fault Refusal :=
  gate s (if (link s l).state = 1 ∧ ¬ railDown s then count (emit s (.col l 0 (helloFlit s))) (0x8010 + l) 0x04 else s)

/-- Does a region's window hold a physical page: its blocks in FIRST to LAST? -/
def inWindow (s : State) (r : Nat) (f : W64) : Bool := decide (rOd s r 0x03 ≤ fBlock f) && decide (fBlock f ≤ rOd s r 0x04)

/-- The links a block of a mirrored region sends a REPAIR_REQ on (R257): UP_LINK but for the origin, DOWN_LINK but for the tail. -/
def askLinks (s : State) (r : Nat) : List Nat :=
  if rOd s r 0x0C = 0 then []
  else (if isOrigin s r then [] else [upLink s r]) ++ (if chainPos s r < chainLen s r then [downLink s r] else [])

/-- R200, R373: a region's damaged pages not yet asked for: one REPAIR_REQ each, with the region RUNNING and mirrored and a link it
needs UP. -/
def askRepairs (s : State) (r : Nat) : State :=
  if (region s r).state ≠ 1 ∨ ¬ (askLinks s r).any (fun l => decide ((link s l).state = 2)) then s
  else
    (List.range 16).foldl (fun s g =>
      ((ridge s g).damage.filter (fun d => !d.2 && inWindow s r d.1)).foldl (fun s d =>
        modRidge (requestRepair s r d.1) g (fun y => { y with damage := y.damage.map (fun z => if z.1 = d.1 then (z.1, true) else z) })) s) s

/-- HELLO (R251): the link comes up; pages that waited for it are asked for (R373). HELLO itself has SEQ 0, so the next frame each way has SEQ 1. -/
def execHello (l : Nat) (flit : Flit) (s : State) : Host.Outcome State Fault Refusal :=
  gate s (
    if (link s l).state ≠ 1 ∨ ¬ (link s l).lanes then s
    else if ¬ flitIntact flit then count s (0x8010 + l) 0x07
    else if fhKind flit ≠ 1 then s
    else
      let s := modLink s l (fun x => { x with state := 2, txSeq := 1, rxNext := 1, credits := 512 })
      let s := setOd (count s (0x8010 + l) 0x05) (0x8010 + l) 0x03 (fhFpa flit).toNat
      (List.range 256).foldl askRepairs (releaseHeld (readyChange s 6 l true 0) (fun c => decide (c = .link l))))

/-! ### Frames received (R245, R246) -/

/-- The data flits and the tail of a frame agree (R242). -/
def dataIntact (n : Nat) (data : List Flit) (tail : Flit) : Bool :=
  decide (data.length = n) && flitIntact tail && decide (dataCrc data = tail.extractLsb' 0 32)

/-- Receive a frame of a kind on a link: discarded with a retry when it is not intact or not the next; else applied. -/
def rxFrame (s : State) (l kind : Nat) (flit : Flit) (n : Nat) (data : List Flit) (tail : Flit) (apply : State → State) : State :=
  let x := link s l
  if x.state ≠ 2 ∨ ¬ x.lanes then s
  else if ¬ flitIntact flit then ackOn (count s (0x8010 + l) 0x07) l 0 0 0 true
  else if fhKind flit ≠ kind then s
  else if fhSeq flit ≠ x.rxNext then ackOn s l 0 0 0 true
  else if n > 0 ∧ ¬ dataIntact n data tail then ackOn (count s (0x8010 + l) 0x07) l 0 0 0 true
  else
    let k := if n = 0 then 1 else n + 2
    apply (count (modLink s l (fun x => { x with rxNext := (x.rxNext + 1) % 2 ^ 32, freed := (x.freed + k) % 2 ^ 32 })) (0x8010 + l) 0x05)

/-- A member refuses a frame (R246): it is not forwarded and never held. -/
def refuseFrame (s : State) (l seq cause : Nat) : State :=
  ackOn (modLink s l (fun x => { x with unheld := x.unheld ++ [seq] })) l seq 0 cause false

/-- A member takes a frame: it forwards it, behind those before it, when its chain goes on and DOWN_LINK is UP (R246, R255), and
acknowledges. -/
def acceptFrame (s : State) (l r : Nat) (flit : Flit) (rest : List (Nat × Flit)) (heldNow : Bool) : State :=
  let seq := fhSeq flit
  let s :=
    if chainPos s r ≥ chainLen s r then s
    else if (link s (downLink s r)).state = 2 then
      forwardLater (modLink s l (fun x => { x with fwd := x.fwd ++ [(seq, r, none)], later := x.later ++ [⟨seq, r, flit, rest⟩] })) l
    else modLink s l (fun x => { x with fwd := x.fwd ++ [(seq, r, none)] })
  ackOn (if heldNow then s else modLink s l (fun x => { x with unheld := x.unheld ++ [seq] })) l 0 0 0 false

/-- The member region of a frame that came down its chain, or the cause of a NAK (R238). -/
def matchFrame (s : State) (l : Nat) (flit : Flit) : Except Nat Nat :=
  match mirrorRegions s (fun r => decide (rOd s r 0x0C = 2) && decide ((region s r).state = 1) && decide (chainId s r = fhChain flit)
      && decide (upLink s r = l) && decide (chainPos s r = fhPos flit + 1)) with
  | [] => .error 1
  | r :: _ => if chainPos s r < chainLen s r ∧ upLink s r = downLink s r then .error 8 else .ok r

/-- The region of a frame that came up its chain, from the block after this one. -/
def matchUpward (s : State) (l : Nat) (flit : Flit) : Option Nat :=
  (mirrorRegions s (fun r => decide ((region s r).state = 1) && decide (chainId s r = fhChain flit) && decide (downLink s r = l)
    && decide (chainPos s r < chainLen s r) && decide (fhPos flit = chainPos s r + 1))).head?

/-- R246 cause 7, R366: is the rail below its warning threshold, or has the power-fail sequence begun? -/
def railLow (s : State) : Bool := decide (railMv s < od s 0x7000 0x04) || railDown s

/-- R254: a DETACHED member region attaches again at the next frame for its chain. DESIGN CHOICE (log entry 33): only frames that come down on
UP_LINK count, not a REPAIR_REQ or a REPAIR that comes up on DOWN_LINK. -/
def reattach (s : State) (r : Nat) : State := modRegion s r (fun g => if g.mirror = 5 then { g with mirror := 4 } else g)

/-- What a member does with a frame that came down its chain: matched to its region (R238), which attaches again (R254), refused
while the rail is low (R246 cause 7, R366), else carried out. -/
def withMember (l : Nat) (flit : Flit) (s : State) (act : Nat → State → State) : State :=
  match matchFrame s l flit with
  | .error c => refuseFrame s l (fhSeq flit) c
  | .ok r => if railLow s then refuseFrame (reattach s r) l (fhSeq flit) 7 else act r (reattach s r)

/-- R246 cause 2: does an FPA of a frame pass R36? A spur that is not ready has no geometry to check against. -/
def frameAddr (s : State) (op r : Nat) (f : W64) (planes : Nat) : Bool :=
  fpaForm op f && decide (fRes f = 0) && (!spurReady s (fSpur f) || decide (addrReason s op r f planes 0 = none))

/-- The member unit of an origin's handle on an arrival link (R250). -/
def memberUnit (s : State) (l : Nat) (h : BitVec 32) : Option Nat :=
  (s.units.entries.find? (fun e => decide (e.2.mkey = some (l, h.toNat)) && decide (e.2.state ≠ .free))).map (fun e => e.1)

/-- Has the bank of an address room for a unit of some planes (R246 cause 3)? -/
def bankRoom (s : State) (f : W64) (planes : Nat) : Bool :=
  (ridge s (fRidge f)).ledgeReady && decide (granulesFree s (fRidge f) ≥ planes) && decide (freeRecord s (fRidge f) 232 0 ≠ none)

/-- R246 cause 5: does the half-erased table or lock cover the block? -/
def frameHalf (s : State) (r : Nat) (f : W64) (planesM1 : Nat) : Bool :=
  match preCheck s r (physOf s r f) planesM1 with
  | .fail _ => true
  | _ => false

/-- R246 cause 6: a region that needs a key has none. -/
def frameKeyless (s : State) (r : Nat) : Bool := ciphered s r && !slotUsable (keySlot s (slotOf s r)).state

/-- Open a member's unit for a frame. Where check 3 needs a probe, it is pushed as class 2 work, and the unit waits for it (R250, R182,
R223); where it passes at once, the unit is open. -/
def memberOpen (s : State) (l r : Nat) (kind : UKind) (op : Nat) (f : W64) (num seq : Nat) (h : BitVec 32) : State × Nat :=
  let u := takeRecord s (fRidge f)
  let probes := decide (preCheck s r (physOf s r f) num = .probe)
  let s := bindUnit (openUnit s u kind r f num probes) u r
  let s := modUnit s u (fun d => { d with mkey := some (l, h.toNat), due := [seq], base := some (tweakForm s r f) })
  (if probes then pushDesc s { op := op, cls := 2, region := r, named := f, handle := handleOf s u, arg := num } else s, u)

/-- OPEN (R250): the frame is held once the unit is open (R247). -/
def openTaken (l : Nat) (flit : Flit) (s : State) : State :=
  let seq := fhSeq flit
  let f := fhFpa flit
  let num := fhByte20 flit % 8
  withMember l flit s (fun r s =>
    if (memberUnit s l (fhHandle flit)).isSome then refuseFrame s l seq 9
    else if ¬ frameAddr s 0x09 r f num then refuseFrame s l seq 2
    else if ¬ bankRoom s f (num + 1) then refuseFrame s l seq 3
    else if frameHalf s r f num then refuseFrame s l seq 5
    else
      let y := memberOpen s l r .member 0x09 f num seq (fhHandle flit)
      memberGo (acceptFrame y.1 l r flit [] false) y.2)

/-- OPEN (R250). -/
def execOpenFrame (l : Nat) (flit : Flit) (s : State) : Host.Outcome State Fault Refusal :=
  gate s (rxFrame s l 2 flit 0 [] 0 (openTaken l flit))

/-- LINE (R250): the line is stored without a merge; a later one for the same line replaces it. -/
def lineTaken (l : Nat) (flit : Flit) (s : State) : State :=
  let seq := fhSeq flit
  let f := fhFpa flit
  withMember l flit s (fun r s =>
    match memberUnit s l (fhHandle flit) with
    | none => refuseFrame s l seq 9
    | some u =>
      let d := unit s u
      let p := fPlane f - fPlane d.target
      let more : Charge := if d.lines.keys.any (fun k => decide (k / 256 = p)) then [] else [(.refuge, 1)]
      let c := costOf s more
      if d.state ≠ .opened then refuseFrame s l seq 9
      else if ¬ targets d r f ∨ ¬ frameAddr s 0x08 r f 0 then refuseFrame s l seq 2
      else if d.keyLost ∨ (d.key = none ∧ frameKeyless s r) then refuseFrame s l seq 6
      else if ¬ covers s c then refuseFrame (deny s) l seq 4
      else
        let s := if d.key = none then bindUnit s u r else s
        let st := mkLine (flit.extractLsb' 168 512) false false false 0 0 ||| ((flit.extractLsb' 680 8).setWidth 528 <<< 512)
        let s := modUnit (spend s c) u (fun d => { d with lines := d.lines.set 0 (p * 256 + fLine f) st, charge := d.charge ++ more })
        acceptFrame (peakDemand s) l r flit [] true)

/-- LINE (R250). -/
def execLineFrame (l : Nat) (flit : Flit) (s : State) : Host.Outcome State Fault Refusal :=
  gate s (rxFrame s l 3 flit 0 [] 0 (lineTaken l flit))

/-- COMMIT (R250): the unit is committed, once no gap move holds it (R192, R48); nothing is reported upstream. -/
def commitTaken (l : Nat) (flit : Flit) (s : State) : State :=
  let seq := fhSeq flit
  withMember l flit s (fun r s =>
    match memberUnit s l (fhHandle flit) with
    | none => refuseFrame s l seq 9
    | some u =>
      let d := unit s u
      let c := programCharge s r (d.planesM1 + 1) - costOf s d.charge
      if d.state ≠ .opened then refuseFrame s l seq 9
      else if ¬ d.keyLost ∧ ¬ d.failed ∧ ¬ covers s c then refuseFrame (deny s) l seq 4
      else if d.failed then acceptFrame (toDone s u) l r flit [] true
      else
        let s := if d.keyLost then s else spend s c
        acceptFrame (memberGo (modUnit s u (fun d => { d with commitDue := true })) u) l r flit [] true)

/-- COMMIT (R250). -/
def execCommitFrame (l : Nat) (flit : Flit) (s : State) : Host.Outcome State Fault Refusal :=
  gate s (rxFrame s l 4 flit 0 [] 0 (commitTaken l flit))

/-- DISCARD (R250): the unit returns to FREE without programming. -/
def discardTaken (l : Nat) (flit : Flit) (s : State) : State :=
  withMember l flit s (fun r s =>
    match memberUnit s l (fhHandle flit) with
    | none => refuseFrame s l (fhSeq flit) 9
    | some u =>
      let d := unit s u
      if d.state = .opened ∨ d.state = .committed then acceptFrame (moveRetry (freeUnit s u) (u / 232)) l r flit [] true
      else acceptFrame s l r flit [] true)

/-- DISCARD (R250). -/
def execDiscardFrame (l : Nat) (flit : Flit) (s : State) : Host.Outcome State Fault Refusal :=
  gate s (rxFrame s l 5 flit 0 [] 0 (discardTaken l flit))

/-- Line i of n lines of w bits in data flits. -/
def unpackLine (w : Nat) (data : List Flit) (i : Nat) : Nat :=
  (data.zipIdx.foldl (fun a x => a + x.1.toNat * 2 ^ (1024 * x.2)) 0) / 2 ^ (w * i) % 2 ^ w

/-- One plane's data of a PAGE frame is stored in its unit; it is held once check 3 has passed (R247). -/
def pageStored (s : State) (u p seq : Nat) (data : List Flit) : State :=
  let ls := (List.range 256).map (fun i => (p * 256 + i, mkLine (BitVec.ofNat 512 (unpackLine 512 data i)) true false false 0 0))
  memberGo (modUnit s u (fun d =>
    { d with lines := ls.foldl (fun m x => m.set 0 x.1 x.2) d.lines, loading := d.loading - 1,
             due := if d.due.contains seq then d.due else d.due ++ [seq] })) u

/-- PAGE (R250): one plane's data of an internal unit of NUM + 1 planes; the last plane in, the unit commits. -/
def pageData (l : Nat) (flit : Flit) (data : List Flit) (_tail : Flit) (s : State) : State :=
  let seq := fhSeq flit
  let f := fhFpa flit
  let num := fhByte20 flit % 8
  let rest := data.map (fun x => ((1, x) : Nat × Flit)) ++ [(2, tailFlit data)]
  withMember l flit s (fun r s =>
    match memberUnit s l (fhHandle flit) with
    | some u =>
      if (unit s u).loading = 0 then refuseFrame s l seq 9
      else if ¬ targets (unit s u) r f ∨ ¬ frameAddr s 0x0B r f 0 then refuseFrame s l seq 2
      else if (unit s u).keyLost then refuseFrame s l seq 6
      else
        let s := modUnit s u (fun d => { d with due := d.due ++ [seq] })
        pageStored (acceptFrame s l r flit rest false) u (fPlane f - fPlane (unit s u).target) seq data
    | none =>
      let c := programCharge s r (num + 1)
      if ¬ frameAddr s 0x0B r f num then refuseFrame s l seq 2
      else if frameKeyless s r then refuseFrame s l seq 6
      else if ¬ bankRoom s f (num + 1) then refuseFrame s l seq 3
      else if frameHalf s r f num then refuseFrame s l seq 5
      else if ¬ covers s c then refuseFrame (deny s) l seq 4
      else
        let y := memberOpen (spend s c) l r .pageProgram 0x0B f num seq (fhHandle flit)
        let s := peakDemand (modUnit y.1 y.2 (fun d => { d with charge := programKinds s r (num + 1), loading := num + 1, commitDue := true }))
        pageStored (acceptFrame s l r flit rest false) y.2 0 seq data)

/-- PAGE (R250). -/
def execPageFrame (l : Nat) (flit : Flit) (data : List Flit) (tail : Flit) (s : State) : Host.Outcome State Fault Refusal :=
  gate s (rxFrame s l 6 flit 128 data tail (pageData l flit data tail))

/-- Push a member's own class 3 work; a gap move on its block holds it (R48). -/
def memberPush (s : State) (d : Desc) : State :=
  if underMove s d.region d.named ∨ (d.op = 0x11 ∧ underMove s d.region d.target) then hold s .gapMove d else pushDesc s d

/-- ERASE (R250): the erase runs on the member's own flash in class 3. -/
def eraseTaken (l : Nat) (flit : Flit) (s : State) : State :=
  let f := fhFpa flit
  let num := fhByte20 flit % 8
  withMember l flit s (fun r s =>
    if ¬ frameAddr s 0x10 r f num then refuseFrame s l (fhSeq flit) 2
    else
      acceptFrame (memberPush s { op := 0x10, cls := 3, region := r, flags := num, named := f, phys := physOf s r f, arg := num }) l r flit [] true)

/-- ERASE_FRAME (R250). -/
def execEraseFrame (l : Nat) (flit : Flit) (s : State) : Host.Outcome State Fault Refusal :=
  gate s (rxFrame s l 7 flit 0 [] 0 (eraseTaken l flit))

/-- COPY (R250): the copy runs on the member's own flash in class 3, through an internal unit on the target. -/
def copyTaken (l : Nat) (flit : Flit) (s : State) : State :=
  let seq := fhSeq flit
  let f := fhFpa flit
  let g : W64 := flit.extractLsb' 192 64
  let num := fhByte20 flit % 8
  withMember l flit s (fun r s =>
    let c := programCharge s r (num + 1)
    if ¬ frameAddr s 0x11 r f num ∨ ¬ frameAddr s 0x11 r g num then refuseFrame s l seq 2
    else if ¬ bankRoom s g (num + 1) then refuseFrame s l seq 3
    else if frameHalf s r g num then refuseFrame s l seq 5
    else if ¬ covers s c then refuseFrame (deny s) l seq 4
    else
      let u := takeRecord s (fRidge g)
      let s := openUnit (spend s c) u .copyback r g num true
      let s := peakDemand (modUnit s u (fun d => { d with charge := programKinds s r (num + 1), loading := 1, copied := true }))
      acceptFrame (memberPush s { op := 0x11, cls := 3, region := r, flags := num, named := f, phys := physOf s r f, target := g,
                                  targetPhys := physOf s r g, handle := handleOf s u, arg := num }) l r flit [] true)

/-- COPY (R250). -/
def execCopyFrame (l : Nat) (flit : Flit) (s : State) : Host.Outcome State Fault Refusal :=
  gate s (rxFrame s l 8 flit 0 [] 0 (copyTaken l flit))

/-- DEGRADE (R254): the member detaches and forwards the frame. Frames of the region that could not be forwarded, this one among them,
no longer hold back HELD (R255). -/
def degradeTaken (l : Nat) (flit : Flit) (s : State) : State :=
  match matchFrame s l flit with
  | .error c => refuseFrame s l (fhSeq flit) c
  | .ok r =>
    if railLow s then refuseFrame s l (fhSeq flit) 7
    else
      let s := acceptFrame (detachRegion s r l (fhByte20 flit % 16) 7) l r flit [] true
      ackOn (modLink s l (fun x => { x with
        fwd := x.fwd.filter (fun e => ¬ (e.2.1 = r ∧ e.2.2 = none ∧ ¬ x.later.any (fun y => decide (y.seq = e.1)))) })) l 0 0 0 false

/-- DEGRADE (R254). -/
def execDegradeFrame (l : Nat) (flit : Flit) (s : State) : Host.Outcome State Fault Refusal :=
  gate s (rxFrame s l 9 flit 0 [] 0 (degradeTaken l flit))

/-! ### Repairs -/

/-- Take a frame that came up a chain: it is held here, and not forwarded by the member rule. -/
def takeUpward (s : State) (l : Nat) : State := ackOn s l 0 0 0 false

/-- A repair request is entered in the table, or dropped (R257). Answers whether it was entered. -/
def enterRequest (s : State) (r : Nat) (f : W64) (id : BitVec 32) (fromUp : Bool) (l : Nat) : State × Bool :=
  let who := id.toNat / 2 ^ 29
  if s.col.table.length ≥ 128 then
    (cairn (count s 0x8000 0x07) 0x39 (cu 6 l) r (5 * 4096 + who * 512) f id.toNat 0 0, false)
  else
    let s := { s with col := { s.col with table := s.col.table ++ [⟨id, f, r, false, fromUp, s.ao.timeUs⟩] } }
    (repairNotice s r 1 who id.toNat f l id.toNat, true)

/-- May a frame that came up a chain be taken? A member whose rail is low refuses it (R366). -/
def refusesUp (s : State) (r : Nat) : Bool := decide (rOd s r 0x0C = 2) && railLow s

/-- REPAIR_REQ (R257): entered, noticed, and forwarded away from the requester. -/
def requestTaken (l : Nat) (flit : Flit) (s : State) : State :=
  let id := fhHandle flit
  let f := fhFpa flit
  match matchUpward s l flit with
  | some r =>
    if refusesUp s r then refuseFrame s l (fhSeq flit) 7
    else
      let y := enterRequest s r f id false l
      takeUpward (if y.2 then sendRepairReq y.1 r f id true false else y.1) l
  | none =>
    withMember l flit s (fun r s =>
      let y := enterRequest s r f id true l
      if y.2 then acceptFrame y.1 l r flit [] true
      else ackOn y.1 l 0 0 0 false)

/-- REPAIR_REQ (R257). -/
def execRepairReq (l : Nat) (flit : Flit) (s : State) : Host.Outcome State Fault Refusal :=
  gate s (rxFrame s l 0x0A flit 0 [] 0 (requestTaken l flit))

/-- A stored line deciphered by the AES lane (R278): only lines that were enciphered. -/
def decipherLine (m : W512) (base : W64) (i : Nat) (x : BitVec 528) : BitVec 528 :=
  if lValid x ∧ ¬ lPoison x then
    withData x (xtsDec m (base + BitVec.ofNat 64 (i * 4096)) (lData x))
  else x

/-- A poisoned line of a sector that does not verify. -/
def poisonedLine : BitVec 528 := mkLine 0 true true false 0 0

/-- The lines of a sector through a GCM engine: plaintext, no longer sealed, if its tag passes, poisoned if it fails (R259). -/
def openSector (m : W512) (base : W64) (k : Nat) (ls : List (BitVec 528)) : List (BitVec 528) :=
  let du := base + BitVec.ofNat 64 (k * 64 * 4096)
  if gcmTag m du (ls.map lMeta0) (ls.map lData) = (ls.map lMeta1).take 16 then
    ls.mapIdx (fun i x => mkLine (gcmLine m du i (lData x)) (lValid x) (lPoison x) false (lWgen x) 0)
  else ls.map (fun _ => poisonedLine)

/-- Stored lines of a page as plaintext (R259): by the region's cipher mode, under slot material m. -/
def plainPage (mode : Nat) (m : Option W512) (base : W64) (ls : List (BitVec 528)) : List (BitVec 528) :=
  match mode, m with
  | 0, _ => ls
  | _, none => ls
  | 1, some k => ls.mapIdx (fun i x => decipherLine k base i x)
  | _, some k => (List.range 4).flatMap (fun j => openSector k base j ((ls.drop (64 * j)).take 64))

/-- The lines a REPAIR frame carries. -/
def repairLines (data : List Flit) : List (BitVec 528) :=
  (List.range 256).map (fun i => BitVec.ofNat 528 (unpackLine 528 data i))

/-- Lines of one plane as a unit holds them: the ones that stand valid or poisoned. -/
def heldLines (ls : List (BitVec 528)) : SMap (BitVec 528) :=
  ls.zipIdx.foldl (fun m x => m.set 0 x.2 x.1) { entries := [] }

/-- R259: a repair frame at its requester lands as a repair unit and closes the request, or is dropped. -/
def landRepair (s : State) (l r : Nat) (q : RepReq) (ls : List (BitVec 528)) : State :=
  let f := q.fpa
  let me := chainPos s r
  let gone := frameKeyless s r
  if ¬ bankRoom s f 1 ∨ ¬ covers s (eRefuge s) ∨ gone then
    repairNotice (count (if bankRoom s f 1 ∧ ¬ covers s (eRefuge s) then deny s else s) 0x8000 0x09) r 4 me q.id.toNat f l q.id.toNat
  else
    let c := eRefuge s
    let u := takeRecord s (fRidge f)
    let s := bindUnit (openUnit (spend s c) u .repair r f 0 false) u r
    let m := (unit s u).key.bind (material s)
    let plain := plainPage (rOd s r 0x0A) m (tweakForm s r f) ls
    let s := peakDemand (modUnit s u (fun d => { d with failed := true, charge := [(.refuge, 1)], lines := heldLines plain, base := some (tweakForm s r f) }))
    let s := { s with col := { s.col with table := s.col.table.erase q } }
    repairNotice s r 2 me (handleOf s u).toNat f l q.id.toNat

/-- A REPAIR toward a requester: at it, it lands or is a duplicate; between, it goes on (R258, R259). Answers the state, and
whether the frame is to be forwarded. -/
def repairHere (s : State) (l r : Nat) (flit : Flit) (data : List Flit) : State × Bool :=
  let id := fhHandle flit
  if id.toNat / 2 ^ 29 ≠ chainPos s r then (s, true)
  else match s.col.table.find? (fun e => decide (e.id = id) && e.own && decide (e.region = r)) with
    | none => (count s 0x8000 0x08, false)
    | some q => (landRepair s l r q (repairLines data), false)

/-- R258: a pushed page is programmed with the stored lines unchanged. A page that a unit of the member already targets is refused (R261);
DESIGN CHOICE: the NAK gives cause 3, as R246 names none for it (log entry 33). -/
def pushTaken (s : State) (l r : Nat) (flit : Flit) (data : List Flit) (rest : List (Nat × Flit)) : State :=
  let seq := fhSeq flit
  let f := fhFpa flit
  let c := programCharge s r 1
  let no := fun (n : Nat) => refuseFrame (cairn (count (if n = 4 then deny s else s) (0x8100 + r) 0x08) 0x3A (cu 6 l) r n f 0 0 0) l seq n
  if railLow s then no 7
  else if ¬ frameAddr s 0x0B r f 0 then no 2
  else if ¬ bankRoom s f 1 ∨ pageTaken s r f 0 then no 3
  else if frameHalf s r f 0 then no 5
  else if ¬ covers s c then no 4
  else
    let u := takeRecord s (fRidge f)
    let probes := decide (preCheck s r (physOf s r f) 0 = .probe)
    let s := openUnit (spend s c) u .pageProgram r f 0 probes
    let s := peakDemand (modUnit s u (fun d =>
      { d with mkey := some (l, 2 ^ 32), due := [seq], commitDue := true, charge := programKinds s r 1, copied := true, lines := heldLines (repairLines data) }))
    let s := acceptFrame s l r flit rest false
    memberGo (if probes then pushDesc s { op := 0x0B, cls := 2, region := r, named := f, handle := handleOf s u, arg := 0 } else s) u

/-- REPAIR (R258, R259). -/
def repairTaken (l : Nat) (flit : Flit) (data : List Flit) (_tail : Flit) (s : State) : State :=
  let rest := data.map (fun x => ((1, x) : Nat × Flit)) ++ [(2, tailFlit data)]
  match matchUpward s l flit with
  | some r =>
    if refusesUp s r then refuseFrame s l (fhSeq flit) 7
    else
      let y := repairHere s l r flit data
      let s := if y.2 ∧ rOd y.1 r 0x0C = 2 then sendFrame y.1 (upLink y.1 r) (rehead flit (chainPos y.1 r)) rest r else y.1
      takeUpward s l
  | none =>
    match matchFrame s l flit with
    | .error c => refuseFrame s l (fhSeq flit) c
    | .ok r =>
      if fhHandle flit = 0 then pushTaken (reattach s r) l r flit data rest
      else if railLow s then refuseFrame (reattach s r) l (fhSeq flit) 7
      else
        let y := repairHere (reattach s r) l r flit data
        if y.2 then acceptFrame y.1 l r flit rest true else ackOn y.1 l 0 0 0 false

/-- REPAIR (R259). -/
def execRepairFrame (l : Nat) (flit : Flit) (data : List Flit) (tail : Flit) (s : State) : Host.Outcome State Fault Refusal :=
  gate s (rxFrame s l 0x0B flit 132 data tail (repairTaken l flit data tail))

/-- REPAIR_TIMEOUT (R257): the oldest entry of a REQUEST_ID expires once it has stood REPAIR_TIMEOUT_MS; its requester is told.
Requesters of different chains may use one REQUEST_ID, so an entry goes alone. -/
def execRepairTimeout (id : BitVec 32) (s : State) : Host.Outcome State Fault Refusal :=
  gate s (match s.col.table.find? (fun e => decide (e.id = id) && decide (e.since + od s 0x8000 0x05 * 1000 ≤ s.ao.timeUs)) with
    | none => s
    | some e =>
      let s := { s with col := { s.col with table := s.col.table.erase e } }
      if e.own then repairNotice s e.region 3 (chainPos s e.region) id.toNat e.fpa (downLink s e.region) id.toNat else s)

/-! ### Acknowledges -/

/-- Send the frames of the replay buffer from a SEQ again (R245); one that has been sent three times fails the link. DESIGN CHOICE (log
entry 31): REPLAYS counts each frame sent again, where the spec says only that it counts these events; and the position that a link
failure of its own names (R254, R256), which the spec does not give, is 0 here, at CREDIT_TIMEOUT and at LANES_DOWN. -/
def replayFrom (s : State) (l seq : Nat) : State :=
  let fs := (link s l).replay.filter (fun f => seqLe seq f.seq)
  if fs = [] ∨ railDown s then s
  else if fs.any (fun f => decide (f.sends ≥ 3)) then linkFail s l 4 0 0
  else
    let s := modLink s l (fun x => { x with replay := x.replay.map (fun f => if seqLe seq f.seq then { f with sends := f.sends + 1 } else f) })
    fs.foldl (fun s f => count (emitFrame s l f) (0x8010 + l) 0x06) s

/-- R248: a timed frame that every position has acknowledged is durable: its entry and its unit no longer wait for it. -/
def timerDone (l : Nat) (s : State) (t : HopTimer) : State :=
  let s := modLink s l (fun x => { x with timers := x.timers.filter (fun y => y.seq ≠ t.seq) })
  let s := modUnit s t.unit (fun d => { d with mirror := d.mirror.filter (fun m => m ≠ (l, t.seq)) })
  if t.q = 0xFFFF ∨ (link s l).timers.any (fun y => decide (y.q = t.q) && decide (y.idx = t.idx)) then s
  else settle (modEnt s t.q t.idx (fun e => { e with mirror := false })) t.q t.idx

/-- Has position n of a chain acknowledged a frame (R248)? -/
def posAcked (x : Link) (n seq : Nat) : Bool := seqLe seq (x.heldIn.getD (n - 1) 0)

/-- R246, R248, R251: a NAK arrives. A forwarded frame's goes upstream; this block's own degrades its region. With no hops
the link fails. -/
def nakArrived (s : State) (l seq hops cause : Nat) : State :=
  let s := match (link s (1 - l)).fwd.find? (fun e => e.2.2 = some seq) with
    | some e => ackOn s (1 - l) e.1 (hops + 1) cause false
    | none => s
  let mine := (link s l).own.find? (fun e => e.1 = seq)
  if hops = 0 then linkFail s l 2 1 cause
  else match mine with
    | some e => degradeRegion s e.2 (hops + 1) (cause * 256 + 2)
    | none => s

/-- What an ACK flit says, in order: NAK, coverage, credits, held frames, retry (R243 to R248). -/
def ackTaken (s : State) (l : Nat) (f : Flit) : State :=
  let cause := bitsOf f 271 264
  let s := if cause ≠ 0 then nakArrived s l (bitsOf f 319 288) (bitsOf f 279 272) cause else s
  if (link s l).state ≠ 2 then s
  else
    let rx := bitsOf f 95 64
    let cr := bitsOf f 127 96
    let hs := [bitsOf f 159 128, bitsOf f 191 160, bitsOf f 223 192, bitsOf f 255 224]
    let s := modLink s l (fun x => { x with
      replay := x.replay.filter (fun t => !seqLe t.seq rx),
      credits := x.credits + (cr + 2 ^ 32 - x.creditsSeen % 2 ^ 32) % 2 ^ 32, creditsSeen := cr, heldIn := hs })
    let s := modLink s l (fun x => { x with own := x.own.filter (fun e => !posAcked x (chainLen s e.2) e.1) })
    let s := ((link s l).timers.filter (fun t => posAcked (link s l) (chainLen s t.region) t.seq)).foldl (timerDone l) s
    let s := if (link s (1 - l)).state = 2 ∧ heldFields s (1 - l) ≠ (link s (1 - l)).heldOut
      then ackOn s (1 - l) 0 0 0 false else s
    let s := if f.getLsbD 320 then replayFrom s l (bitsOf f 383 352) else s
    linkIssue s l (link s l).waiting.length

/-- ACK (R247). -/
def execAck (l : Nat) (flit : Flit) (s : State) : Host.Outcome State Fault Refusal :=
  gate s (
    if (link s l).state ≠ 2 ∨ ¬ (link s l).lanes then s
    else if ¬ flitIntact flit then ackOn (count s (0x8010 + l) 0x07) l 0 0 0 true
    else if fhKind flit ≠ 0x10 then s
    else ackTaken s l flit)

/-- CREDIT_TIMEOUT (R244): a frame has waited for credits too long. It names position 0 (DESIGN CHOICE, log entry 31). -/
def execCreditTimeout (l : Nat) (s : State) : Host.Outcome State Fault Refusal :=
  gate s (match (link s l).waiting with
    | f :: _ => if f.flits.length > (link s l).credits then linkFail s l 3 0 0 else s
    | [] => s)

/-- REPLAY_TIMEOUT (R245): a frame has not been covered in time; it is sent again, or the link fails. -/
def execReplayTimeout (l seq : Nat) (s : State) : Host.Outcome State Fault Refusal :=
  gate s (if (link s l).state = 2 ∧ (link s l).replay.any (fun f => decide (f.seq = seq)) then replayFrom s l seq else s)

/-- HOP_DEADLINE (R248): the deadline of a position for a timed frame. The first position at or before it that has not
acknowledged fails the chain there; position 1 fails the link. No deadline runs for a frame that waits for credits. -/
def execHopDeadline (l seq pos : Nat) (s : State) : Host.Outcome State Fault Refusal :=
  gate s (match (link s l).timers.find? (fun t => t.seq = seq) with
    | none => s
    | some t =>
      if (link s l).waiting.any (fun f => decide (f.seq = seq)) then s
      else match ((List.range (min pos (chainLen s t.region))).map (fun k => k + 1)).find? (fun n => !posAcked (link s l) n seq) with
        | none => s
        | some n => if n = 1 then linkFail s l 1 1 0 else degradeRegion s t.region n 1)

/-- LANES_DOWN (R251, R432): M_l_LANES_UP falls. It names position 0, and the serializer of a link in TRAINING is taken to train its lanes
again at once, as no command tells when it has (DESIGN CHOICE, log entry 31). -/
def execLanesDown (l : Nat) (s : State) : Host.Outcome State Fault Refusal :=
  gate s (modLink (linkFail s l 5 0 0) l (fun x => { x with lanes := decide (x.state = 1) }))

/-! ### Firmware's control of mirroring (R252, R253) -/

/-- A write to MIRROR_CTRL: its outcome in CTRL_RESULT. -/
def mirrorCtrl (s : State) (r v : Nat) : State :=
  let g := region s r
  let out := fun (s : State) n => setOd s (0x8100 + r) 0x09 n
  if ¬ isOrigin s r ∨ g.state ≠ 1 then out s 2
  else if v = 1 ∧ g.mirror = 0 then
    if (link s (downLink s r)).state = 2 then out (modRegion s r (fun g => { g with mirror := 1 })) 0 else out s 1
  else if v = 2 ∧ g.mirror = 1 then out (modRegion s r (fun g => { g with mirror := 2 })) 0
  else if v = 3 ∧ (g.mirror = 1 ∨ g.mirror = 2) then out (degradeRegion s r 0 6) 0
  else out s 3

end Sys2Proof.Machine
end

