-- ==== Sys2Proof/Machine/Cairn.lean ====
section
/-! DEFINITION. The Cairn log (R403 to R407), its record port (R408), Crestline frames that carry records (R396, R401,
R409), the latched log fault (R411) and the authenticated clear (R412 to R415). -/

namespace Sys2Proof.Machine

/-! ### Frames of the ring -/

/-- The 16-bit symbols of a number. -/
def symbolsOf (n v : Nat) : List (BitVec 16) := (List.range n).map (fun i => BitVec.ofNat 16 (v / 2 ^ (16 * i)))

/-- The bytes of symbols, low byte first. -/
def symBytes (l : List (BitVec 16)) : List Byte := l.flatMap (fun x => [x.extractLsb' 0 8, x.extractLsb' 8 8])

/-- A frame of the ring (R396). -/
def ringFrame (dst src kind tag : Nat) (payload : List (BitVec 16)) : List (BitVec 16) :=
  let b := [BitVec.ofNat 16 (dst % 64 * 1024 + src % 64 * 16 + kind % 16), BitVec.ofNat 16 (tag % 256 * 256 + payload.length % 256)] ++ payload
  b ++ symbolsOf 2 (crc32c (symBytes b)).toNat

/-- NODE_ID. -/
def nodeId (s : State) : Nat := od s 0x9000 0x02

/-- Put a frame of this block's on the ring. -/
def sendRing (s : State) (dst kind tag : Nat) (payload : List (BitVec 16)) : State :=
  emit s (.crest (ringFrame dst (nodeId s) kind tag payload))

/-- A record as the payload of a NOTICE or RECORD frame. -/
def recordFrame (s : State) (dst kind : Nat) (w : W512) : State := sendRing s dst kind 0 (symbolsOf 32 w.toNat)

/-- R401: a record goes out as a NOTICE frame, or waits while the ring is DOWN. -/
def noticeFrame (s : State) (w : W512) : State :=
  let dst := od s 0x9000 0x03
  if dst = 0xFF then s
  else if s.crest.state = 2 then recordFrame s dst 0x9 w
  else if s.crest.notices.length ≥ 16 then count s 0x9000 0x0A
  else { s with crest := { s.crest with notices := s.crest.notices ++ [w] } }

/-- R409: a record goes to LOG_SINK while the ring is ready. -/
def sinkFrame (s : State) (w : W512) : State :=
  let dst := od s 0x9000 0x04
  if dst ≠ 0xFF ∧ s.crest.state = 2 then recordFrame s dst 0xA w else s

/-! ### Records -/

/-- RATE of a code. -/
def rateOf (s : State) (c : Nat) : Nat := s.ao.rates.get (cairnDefaultRate c) c

/-- R406: every bucket has gained RATE tokens per second since it was last looked at. Buckets hold what is missing, in
millionths of a token. -/
def refillBuckets (s : State) : State :=
  let us := s.ao.timeUs - s.ao.bucketUs
  let b := s.ao.buckets.entries.foldl (fun (m : SMap Nat) e => m.set 0 e.1 (e.2 - us * rateOf s e.1)) { entries := [] }
  modAo s (fun a => { a with bucketUs := a.timeUs, buckets := b })

/-- R406: has the code's bucket a token? -/
def hasToken (s : State) (c : Nat) : Bool :=
  decide (rateOf s c = 0) || decide (s.ao.buckets.get 0 c + 1000000 ≤ rateOf s c * 1000000)

/-- R406, R417: may a record be written: its bucket holds a token, or it tells of an uncorrectable error? -/
def mayWrite (s : State) (r : CairnReq) : Bool := hasToken s r.code || (decide (r.code = 0x58) && decide (r.arg0 = 2))

/-- Take a token, if there is one. -/
def takeToken (s : State) (c : Nat) : State :=
  if rateOf s c = 0 ∨ ¬ hasToken s c then s else modAo s (fun a => { a with buckets := a.buckets.modify 0 c (fun x => x + 1000000) })

/-- R403: a record, before CHECK. -/
def recordBody (s : State) (r : CairnReq) (supp : Nat) : W512 :=
  place 512 0 (r.code % 256) ||| place 512 16 (if s.ao.logFault ∧ s.ao.logTold then 1 else 0) ||| place 512 24 1
    ||| place 512 32 (s.ao.nextSeq % 2 ^ 32) ||| place 512 64 (s.ao.timeUs % 2 ^ 64) ||| place 512 176 (od s 0x2100 0x06 % 65536)
    ||| place 512 192 (sat 65535 supp) ||| place 512 208 (r.unit % 65536) ||| place 512 224 (r.region % 65536)
    ||| place 512 240 (r.detail % 65536) ||| place 512 256 (r.arg0 % 2 ^ 32) ||| (r.fpa.setWidth 512 <<< 288)
    ||| place 512 352 (r.arg1 % 2 ^ 64) ||| place 512 416 (r.arg2 % 2 ^ 64)

/-- With CHECK: CRC-32C over bytes 0 to 59. -/
def recordWord (s : State) (r : CairnReq) (supp : Nat) : W512 :=
  let b := recordBody s r supp
  b ||| ((crc32c (bytesOf 60 b)).setWidth 512 <<< 480)

/-- SEQ of a record. -/
def recSeq (w : W512) : Nat := bitsOf w 63 32
/-- OLDEST_SEQ: that of the oldest record, NEXT_SEQ with none. -/
def oldestSeq (s : State) : Nat :=
  match s.ao.log with
  | w :: _ => recSeq w
  | [] => s.ao.nextSeq

/-- R408: the enabled port skips past records that are gone. -/
def portSkip (s : State) : State :=
  let p := od s 0x9200 0x02
  let o := oldestSeq s
  -- PORT_SEQ stands behind OLDEST_SEQ when it is not among the retained records and not NEXT_SEQ
  let ahead := (p + 2 ^ 32 - o) % 2 ^ 32
  if od s 0x9200 0x01 = 1 ∧ ahead > (s.ao.nextSeq + 2 ^ 32 - o) % 2 ^ 32 then
    setOd (countBy s 0x9200 0x04 ((o + 2 ^ 32 - p) % 2 ^ 32)) 0x9200 0x02 o
  else s

/-- R403, R408: store a record; a full log loses its oldest. -/
def storeRecord (s : State) (w : W512) : State :=
  let full := decide (s.ao.log.length ≥ 4096)
  let s := modAo s (fun a => { a with log := (if full then a.log.drop 1 else a.log) ++ [w], nextSeq := (a.nextSeq + 1) % 2 ^ 32 })
  portSkip (if full then count s 0x9100 0x10 else s)

/-- R411: does a record of the bypass queue still wait for an output that is enabled? -/
def bypassWaits (s : State) (b : Bypassed) : Bool :=
  (b.port && decide (od s 0x9200 0x01 = 1)) || (b.sink && decide (od s 0x9000 0x04 ≠ 0xFF))

/-- Records that every enabled output has taken leave the bypass queue. -/
def bypassTidy (s : State) : State := modAo s (fun a => { a with bypass := a.bypass.filter (bypassWaits s) })

/-- With the ring UP, the records of the bypass queue that wait for LOG_SINK go out as RECORD frames. -/
def bypassSink (s : State) : State :=
  let dst := od s 0x9000 0x04
  if dst = 0xFF ∨ s.crest.state ≠ 2 then s
  else
    let ws := (s.ao.bypass.filter (fun b => b.sink)).map (fun b => b.word)
    bypassTidy (modAo (ws.foldl (fun s w => recordFrame s dst 0xA w) s) (fun a => { a with bypass := a.bypass.map (fun b => { b with sink := false }) }))

/-- R411: a record composed while LOGMEM_FAULT is latched goes to the bypass queue, and from there to the enabled outputs; with the queue
full it is LOST. -/
def bypassRecord (s : State) (w : W512) : State :=
  let s := bypassTidy (count (modAo s (fun a => { a with nextSeq := (a.nextSeq + 1) % 2 ^ 32 })) 0x9100 0x11)
  if s.ao.bypass.length ≥ 16 then count s 0x9100 0x12
  else
    let b : Bypassed := { word := w, port := decide (od s 0x9200 0x01 = 1), sink := decide (od s 0x9000 0x04 ≠ 0xFF) }
    if bypassWaits s b then bypassSink (modAo s (fun a => { a with bypass := a.bypass ++ [b] })) else s

/-- R447: a record composed before the log self-test has ended waits in the bypass queue. -/
def waitRecord (s : State) (w : W512) : State :=
  let s := modAo s (fun a => { a with nextSeq := (a.nextSeq + 1) % 2 ^ 32 })
  if s.ao.bypass.length ≥ 16 then count s 0x9100 0x12 else modAo s (fun a => { a with bypass := a.bypass ++ [{ word := w }] })

/-- R411: once the FAULT record of the log's failure is written, no record is stored. -/
def noteTold (s : State) (r : CairnReq) : State :=
  if s.ao.logFault ∧ r.code = 0x58 ∧ r.detail / 256 = 0x1A then modAo s (fun a => { a with logTold := true }) else s

/-- Write one record now, under the rate limit of R406. -/
def writeRecord (s : State) (r : CairnReq) : State :=
  let s := refillBuckets s
  if ¬ mayWrite s r then
    count (modAo s (fun a => { a with suppressed := a.suppressed.modify 0 r.code (fun n => sat 65535 (n + 1)) })) 0x9100 0x0F
  else
    let w := recordWord s r (s.ao.suppressed.get 0 r.code)
    let s := modAo (takeToken s r.code) (fun a => { a with suppressed := a.suppressed.set 0 r.code 0 })
    let s := if s.ao.logFault ∧ s.ao.logTold then bypassRecord s w
      else sinkFrame (if s.ao.logTested then storeRecord s w else waitRecord s w) w
    noteTold (if r.notice then noticeFrame s w else s) r

/-- A clear is between its steps 3 and 5: records raised are held (R414). -/
def clearHolds (s : State) : Bool :=
  match s.ao.clear with
  | some c => decide (c.stage = 3)
  | none => false

/-- CAIRN_RECORD (R403): the oldest record raised reaches the log. -/
def execCairnRecord (s : State) : Host.Outcome State Fault Refusal :=
  .next (match s.ao.cairnIn with
    | [] => s
    | r :: rest => if clearHolds s then s else writeRecord (modAo s (fun a => { a with cairnIn := rest })) r)

/-- R411: the log's SRAM has failed: the latch, and a FAULT record, the last one stored, that goes out as a NOTICE frame. -/
def logFaulted (s : State) (addr : Nat) : State :=
  cairnLoud (modAo s (fun a => { a with logFault := true })) 0x58 0 0xFFFF (0x1A * 256) 0 2 addr 0

/-- RECORD_PORT_SEND (R408): the recorder holds the port back, or takes the record at PORT_SEQ. DESIGN CHOICE (log entry 41): while
LOGMEM_FAULT is latched the port sends the bypass queue only; whether retained records it has not sent still go out the spec does not say. -/
def execRecordPortSend (hold : Bool) (s : State) : Host.Outcome State Fault Refusal :=
  gate s (
    let s := setOd s 0x9200 0x05 (if hold then 1 else 0)
    if hold ∨ od s 0x9200 0x01 = 0 then s
    else if s.ao.logFault then
      match s.ao.bypass.find? (fun b => b.port) with
      | some b =>
        let sent := s.ao.bypass.modify (s.ao.bypass.findIdx (fun b => b.port)) (fun b => { b with port := false })
        count (emit (bypassTidy (modAo s (fun a => { a with bypass := sent }))) (.record b.word)) 0x9200 0x03
      | none => s
    else
      let s := portSkip s
      match s.ao.log.find? (fun w => recSeq w = od s 0x9200 0x02) with
      | some w => count (setOd (emit s (.record w)) 0x9200 0x02 ((od s 0x9200 0x02 + 1) % 2 ^ 32)) 0x9200 0x03
      | none => s)

/-- A write of RATE for a code (R406). -/
def writeRate (s : State) (c v : Nat) : State :=
  let s := refillBuckets s
  let have_ := rateOf s c * 1000000 - s.ao.buckets.get 0 c
  let miss := if rateOf s c = 0 then 0 else v * 1000000 - min have_ (v * 1000000)
  modAo s (fun a => { a with rates := a.rates.set (cairnDefaultRate c) c v, buckets := a.buckets.set 0 c miss })

/-! ### The clear (R412 to R415) -/

/-- A write of 1 to NONCE_REQ (R412). -/
def requestNonce (s : State) : State :=
  let s := count s 0x9100 0x1C
  let n0 : W64 := BitVec.ofNat 64 s.ao.timeUs
  let n1 : W64 := place 64 0 (od s 0x9100 0x1C % 2 ^ 32) ||| place 64 32 (od s 0x2100 0x06 % 65536)
  let s := setOd (setOd s 0x9100 0x14 n0.toNat) 0x9100 0x15 n1.toNat
  modAo s (fun a => { a with nonce := some (n0, n1) })

/-- R412: is a nonce younger than 60 s? Its first half is the block time at issue. -/
def nonceFresh (s : State) (n : W64 × W64) : Bool := decide (s.ao.timeUs < n.1.toNat + 60000000)

/-- NONCE_EXPIRY (R412): 60 s after its issue the nonce ends. -/
def execNonceExpiry (s : State) : Host.Outcome State Fault Refusal :=
  .next (if s.ao.nonce.any (nonceFresh s) then s else modAo s (fun a => { a with nonce := none }))

/-- DETAIL of CLEARED and CLEAR_REFUSED. -/
def clearDetail (path who : Nat) : Nat := path * 4096 + who % 64

/-- Set CLEAR_STATUS: result, key port cause, state (R415). -/
def clearStatus (s : State) (result cause state : Nat) : State := setOd s 0x9100 0x19 (result * 65536 + cause * 256 + state)

/-- A clear ends with a failure: CLEAR_REFUSED, nothing removed. -/
def clearFail (s : State) (path who result cause : Nat) : State :=
  cairn (clearStatus (modAo s (fun a => { a with clear := none })) result cause 2) 0x02 0 0xFFFF (clearDetail path who) 0 result 0 0

/-- Step 5: every record before CLEARED is removed. -/
def clearRemove (s : State) : State :=
  match s.ao.clear with
  | none => s
  | some c =>
    if c.stage ≠ 3 then s
    else
      let s := modAo s (fun a => { a with clear := none, log := a.log.dropWhile (fun w => decide (recSeq w ≠ c.cleared)) })
      portSkip (clearStatus s 0 0 2)

/-- Has the record port sent the CLEARED record, or is it disabled? -/
def clearSent (s : State) (c : ClearJob) : Bool :=
  decide (od s 0x9200 0x01 = 0) || (s.ao.log.all (fun w => decide (recSeq w ≠ od s 0x9200 0x02)) && decide (od s 0x9200 0x02 ≠ c.cleared))

/-- Steps 2 and 3, once the key port has answered: compare the code, write CLEARED; with the port disabled step 5 follows at
once. -/
def clearCompared (s : State) (cause : Nat) (code : List Byte) : State :=
  match s.ao.clear with
  | none => s
  | some c =>
    if cause ≠ 0 then clearFail s c.path c.who 4 cause
    else if code ≠ bytesOf 8 s.ao.code0 ++ bytesOf 8 s.ao.code1 then clearFail s c.path c.who 2 0
    else if s.ao.logFault then clearFail s c.path c.who 6 0
    else
      let n := min s.ao.log.length 4095
      let seq := s.ao.nextSeq
      let s := writeRecord s ⟨0x01, 0, 0xFFFF, clearDetail c.path c.who, 0, n, c.nonce0.toNat, c.nonce1.toNat, false⟩
      let s := modAo s (fun a => { a with clear := some { c with stage := 3, cleared := seq, removed := n } })
      if od s 0x9200 0x01 = 0 then clearRemove s else s

/-- CLEAR_REMOVE (R414 step 5). -/
def execClearRemove (s : State) : Host.Outcome State Fault Refusal :=
  .next (match s.ao.clear with
    | some c => if c.stage = 3 ∧ clearSent s c then clearRemove s else s
    | none => s)

/-- CLEAR_WAIT_TIMEOUT (R414 step 4): the record port is still behind. -/
def execClearWaitTimeout (s : State) : Host.Outcome State Fault Refusal :=
  .next (match s.ao.clear with
    | some c => if c.stage = 3 ∧ ¬ clearSent s c then clearFail s c.path c.who 5 0 else s
    | none => s)

end Sys2Proof.Machine
end

