-- ==== Sys2Proof/Machine/Keys.lean ====
section
/-! DEFINITION. Key slots and the key port: LOAD and DERIVE (R269 to R273), the accesses of a command one by one (R270,
R271, R435), slot states (R263, R265), erasing a slot (R267, R205), ridge key caches (R268). -/

namespace Sys2Proof.Machine

/-! ### Commands on the key port -/

/-- CLIENT_ID. -/
def keyClient (s : State) : Nat := od s 0x6000 0x0A

/-- Put the first access of the command on the port (R270, R271, R434). -/
def keyIssue (s : State) : State :=
  match s.keyJob with
  | none => s
  | some j =>
    let s := { s with keyJob := some { j with busy := true, waitLock := false, waitPoll := false } }
    match j.todo with
    | .lock :: _ => emit s (.key false 0x00 0 (keyClient s))
    | .write a v :: _ => emit s (.key true a v (keyClient s))
    | .status :: _ => emit s (.key false 0x18 0 (keyClient s))
    | .out :: _ => emit s (.key false 0x14 0 (keyClient s))
    | .unlock :: _ => emit s (.key true 0x00 0 (keyClient s))
    | [] => { s with keyJob := some { j with busy := false } }

/-- The accesses of one FETCH (R271). -/
def fetchAccs (index : Nat) : List KeyAcc :=
  [.write 0x08 index, .write 0x0C 64, .write 0x04 1, .status] ++ List.replicate 64 .out

/-- The accesses of one CMAC over a message (R269, R272). -/
def cmacAccs (index : Nat) (len : Nat) (msg : List Byte) : List KeyAcc :=
  [.write 0x08 index, .write 0x0C len, .write 0x04 2] ++ msg.map (fun b => .write 0x10 b.toNat) ++ [.status] ++ List.replicate 16 .out

/-- The message of iteration i of DERIVE (R272). -/
def deriveMsg (i label : Nat) (context : List Byte) : List Byte :=
  beBytes 4 i ++ leBytes 8 label ++ [0] ++ context ++ beBytes 4 0x200

/-- Every access of a command, from the lock to its release. -/
def keyScript (what : KeyFor) (index label : Nat) (context : List Byte) : List KeyAcc :=
  [.lock] ++ (match what with
    | .load => fetchAccs index
    | .derive => (List.range 4).flatMap (fun i =>
        let m := deriveMsg (i + 1) label context
        cmacAccs index m.length m)
    | .image => cmacAccs index context.length context
    | .clear => cmacAccs index 32 context) ++ [.unlock]

/-- A command as it starts. -/
def keyJobOf (what : KeyFor) (slot index label : Nat) (context : List Byte) : KeyJob :=
  { what := what, slot := slot, index := index, label := label, context := context, todo := keyScript what index label context,
    busy := false, waitLock := false, waitPoll := false, locked := false, buf := [], iter := 0, failed := none }

/-- Start a command, or let it wait for the one that runs. -/
def keyStart (s : State) (j : KeyJob) : State :=
  if s.keyJob = none then keyIssue { s with keyJob := some j } else { s with keyQueue := s.keyQueue ++ [j] }

/-- CMD_STATUS at the end of a command (R273). -/
def cmdStatus (s : State) (result cause state : Nat) : State := setOd s 0x6000 0x09 (result * 65536 + cause * 256 + state)

/-- R263: material is accepted for a slot: the copies exchange roles, and the old one is kept while it has users. -/
def keyAccept (s : State) (k : Nat) (m : W512) (derived : Bool) : State :=
  let s := modKey s k (fun x =>
    let g := (x.gen + 1) % 65536
    if x.state = .reloading ∧ x.users > 0 then
      { x with state := .draining, gen := g, live := m, shadow := x.live, oldUsers := x.users, users := 0, derived := derived }
    else { x with state := .live, gen := g, live := m, shadow := 0, oldUsers := 0, users := 0, derived := derived })
  releaseHeld (keyNotice s k 1 0) (fun c => decide (c = .keyLoading))

/-- R263: a load fails. -/
def keyReject (s : State) (k cause : Nat) : State :=
  let s := modKey s k (fun x => { x with shadow := 0, state := if x.state = .reloading then .live else .failed })
  releaseHeld (keyNotice s k 2 cause) (fun c => decide (c = .keyLoading))

/-- A command has made its last access: what it was for. -/
def keyDone (s : State) (j : KeyJob) : State :=
  let m : W512 := wordOfBytes 512 j.buf
  match j.what with
  | .load | .derive =>
    match j.failed with
    | some (res, c) => cmdStatus (if c = 7 then s else keyReject s j.slot c) res c 2
    | none =>
      if keyK1 m = keyK2 m then cmdStatus (keyReject s j.slot 5) 0x22 5 2
      else count (cmdStatus (keyAccept s j.slot m (decide (j.what = .derive))) 0 0 2) 0x6000 0x0F
  | .image => { s with image := { s.image with answer := some ((j.failed.getD (0, 0)).2, j.buf) } }
  | .clear => clearCompared s ((j.failed.getD (0, 0)).2) j.buf

/-- The command on the port is over; the next one that waits begins. -/
def keyFinish (s : State) : State :=
  match s.keyJob with
  | none => s
  | some j =>
    let s := keyDone { s with keyJob := none } j
    match s.keyQueue with
    | n :: rest => if s.keyJob = none then keyIssue { s with keyJob := some n, keyQueue := rest } else s
    | [] => s

/-- A command fails: the lock is released if it is held, and the command ends (R270). An access in progress is waited for. -/
def keyFail (s : State) (res cause : Nat) : State :=
  match s.keyJob with
  | none => s
  | some j =>
    let j := { j with failed := some (j.failed.getD (res, cause)), todo := if j.busy then j.todo.take 1 else [.unlock] }
    if j.busy then { s with keyJob := some j }
    else if j.locked then keyIssue { s with keyJob := some j }
    else keyFinish { s with keyJob := some { j with todo := [] } }

/-- R273, R285: a write to CMD starts LOAD or DERIVE with the parameters as they stand. -/
def keyCommand (s : State) (derive : Bool) : State :=
  let k := od s 0x6000 0x01
  let slot := keySlot s k
  if slot.state = .draining then cmdStatus s 0x21 6 2
  else
    let s := modKey s k (fun x => { x with state := if slotUsable x.state then .reloading else .loading })
    if ¬ s.keyReady then cmdStatus (keyReject s k 2) 0x22 2 2
    else
      let ctx := (leBytes 8 (od s 0x6000 0x04) ++ leBytes 8 (od s 0x6000 0x05) ++ leBytes 8 (od s 0x6000 0x06)).take (od s 0x6000 0x07)
      keyStart (cmdStatus s 0 0 1) (keyJobOf (if derive then .derive else .load) k (od s 0x6000 0x02) (od s 0x6000 0x03) ctx)

/-- An access of the command has ended well with a read value. -/
def keyNext (s : State) (j : KeyJob) (v : BitVec 32) : State :=
  let j := { j with busy := false }
  let rest := j.todo.drop 1
  match j.failed, j.todo with
  -- a failed command: a lock read that just won the lock still releases it
  | some _, .unlock :: _ => keyFinish { s with keyJob := some j }
  | some _, .lock :: _ =>
    if v = 0 then keyIssue { s with keyJob := some { j with locked := true, todo := [.unlock] } }
    else keyFinish (count { s with keyJob := some j } 0x6000 0x11)
  | some _, _ => if j.locked then keyIssue { s with keyJob := some { j with todo := [.unlock] } } else keyFinish { s with keyJob := some j }
  | none, .lock :: _ =>
    if v = 0 then keyIssue { s with keyJob := some { j with locked := true, todo := rest } }
    else count { s with keyJob := some { j with waitLock := true } } 0x6000 0x11
  | none, .status :: _ =>
    if v.getLsbD 1 then keyFail { s with keyJob := some j } 0x22 3
    else if v.getLsbD 0 then { s with keyJob := some { j with waitPoll := true } }
    else keyIssue { s with keyJob := some { j with todo := rest } }
  | none, .out :: _ => keyIssue { s with keyJob := some { j with todo := rest, buf := j.buf ++ [v.extractLsb' 0 8] } }
  | none, .write _ _ :: _ => keyIssue { s with keyJob := some { j with todo := rest } }
  | none, .unlock :: _ => keyFinish { s with keyJob := some { j with locked := false, todo := rest } }
  | none, [] => keyFinish { s with keyJob := some j }

/-- An access has ended in an error (R435). A failed release of the lock ends the command all the same. -/
def keyError (s : State) (j : KeyJob) : State :=
  let j := { j with busy := false }
  match j.todo with
  | .unlock :: _ => keyFinish { s with keyJob := some { j with failed := some (j.failed.getD (0x22, 3)) } }
  | _ => keyFail { s with keyJob := some j } 0x22 3

/-- R376: the first read of STATUS after reset has ended: without an error response the key port is ready, unless its self-test has
failed (R447). -/
def firstStatus (s : State) (err : Bool) : State :=
  let s := { s with keyFirst := false }
  if err ∨ s.keyBad ∨ s.keyReady then s else readyChange { s with keyReady := true } 5 0 true 0

/-- KEY_ACCESS_ACK (R435, R376). -/
def execKeyAccessAck (err : Bool) (rdata : BitVec 32) (s : State) : Host.Outcome State Fault Refusal :=
  gate s (if s.keyFirst then firstStatus s err else match s.keyJob with
    | some j => if ¬ j.busy then s else if err then keyError s j else keyNext s j rdata
    | none => s)

/-- KEY_ACCESS_TIMEOUT (R435): 250 cycles without an acknowledge end the access as an error. -/
def execKeyAccessTimeout (s : State) : Host.Outcome State Fault Refusal :=
  gate s (if s.keyFirst then firstStatus s true else match s.keyJob with
    | some j => if j.busy then keyError s j else s
    | none => s)

/-- KEY_LOCK_RETRY (R270): LOCK is read again. -/
def execKeyLockRetry (s : State) : Host.Outcome State Fault Refusal :=
  gate s (match s.keyJob with
    | some j => if j.waitLock then keyIssue s else s
    | none => s)

/-- LOCK_TIMEOUT (R270): the lock has not been won in time. -/
def execLockTimeout (s : State) : Host.Outcome State Fault Refusal :=
  gate s (match s.keyJob with
    | some j => if j.failed = none ∧ j.todo.head? = some .lock then keyFail s 0x22 1 else s
    | none => s)

/-- KEY_STATUS_POLL (R271): STATUS is read again. -/
def execKeyStatusPoll (s : State) : Host.Outcome State Fault Refusal :=
  gate s (match s.keyJob with
    | some j => if j.waitPoll then keyIssue s else s
    | none => s)

/-- Has OP been written and busy not been seen clear? -/
def opRunning (j : KeyJob) : Bool :=
  match j.todo with
  | .status :: _ => true
  | .write a _ :: _ => decide (a = 0x10)
  | _ => false

/-- OP_TIMEOUT (R273 cause 4). -/
def execOpTimeout (s : State) : Host.Outcome State Fault Refusal :=
  gate s (match s.keyJob with
    | some j => if j.failed = none ∧ opRunning j then keyFail s 0x22 4 else s
    | none => s)

/-! ### Erasing a slot (R267, R205) -/

/-- End the LINE_WRITEs of a unit that are admitted and not final: KEY_ERASED. -/
def endWriters (s : State) (u k : Nat) : State :=
  let h := handleOf s u
  let ws := s.queues.entries.flatMap (fun q => (q.2.ents.filter (fun e =>
    decide (e.order ≠ none) && decide (e.fin = none) && decide (eOpcode e.raw = 0x08) && decide (eUnit e.raw = h))).map (fun e => (q.1, e.idx, eFpa e.raw)))
  ws.foldl (fun s (w : Nat × Nat × W64) => finalise s w.1 w.2.1 ⟨0x20, k, 0⟩ w.2.2)
    (modUnit s u (fun d => { d with writers := [], lines := { entries := [] }, charge := [] }))

/-- Segments of a program's data-in that have gone to the die, the one under way with them; none left: all have. -/
def segmentsGone (s : State) (l total : Nat) : Nat :=
  let y := port s (lunSpur l) (lunPort l)
  match y.seg with
  | some (v, .dataIn, n) => if fBlun (unit s v).phys = l then total - n else total
  | _ => match y.waiting.find? (fun ph => decide (ph.kind = .dataIn) && decide (ph.lun = l)) with
    | some ph => total - ph.step
    | none => total

/-- R205: lines of a PROGRAMMING unit that have not gone to the die go poisoned: pages are sent position by position, plane by
plane, sixteen lines a segment; those of planes still to do have not begun. -/
def poisonUnsent (s : State) (u : Nat) : State :=
  let d := unit s u
  let l := fBlun d.phys
  let rows := programRows s l
  let n := segmentsOf s l
  let gone := segmentsGone s l (rows.length * n)
  (unitPlanes d).foldl (fun s p =>
    let sent := if (lunOf s l).planesLeft.contains p then 0
      else match rows.findIdx? (fun x => x = ((unitWl s d).2.2, p)) with
        | some i => min 256 (16 * (gone - i * n))
        | none => 256
    let left := (List.range 256).filter (fun i => decide (i ≥ sent))
    let gone := fun m : SMap (BitVec 528) => left.foldl (fun m i => m.set 0 ((p - fPlane d.phys) * 256 + i) poisonedLine) m
    modUnit s u (fun d => { d with lines := gone d.lines, flash := gone d.flash })) s

/-- R205: what an erase of slot k does to one unit bound to it. -/
def eraseUnit (k : Nat) (s : State) (u : Nat) : State :=
  let d := unit s u
  let down := fun s => if (d.kind = .host ∧ ¬ d.keyLost) ∨ (d.kind = .pageProgram ∧ (d.state = .committed ∨ d.commitDue)) then sendDown s d.region 0x05 0 (handleOf s u) 0 0 [] else s
  match d.state with
  | .opened =>
    let s := down (endWriters s u k)
    if d.kind = .pageProgram ∧ d.commit ≠ none then
      match d.commit with
      | some (q, i) => finalise (toDone (modUnit s u (fun d => { d with commit := none, reserved := false })) u) q i ⟨0x20, k, 0⟩ d.target
      | none => s
    else modUnit s u (fun d => { d with keyLost := true })
  | .committed =>
    let rg := u / 232
    let s := down (endWriters s u k)
    let s := modRidge s rg (fun r =>
      let out := fun (j : Option GcmJob) => match j with
        | some x => if x.sealing ∧ x.record = u then none else some x
        | none => none
      { r with gcm0 := out r.gcm0, gcm1 := out r.gcm1, gcmWait := r.gcmWait.filter (fun x => !(x.sealing && decide (x.record = u))) })
    let s := gcmStart (gcmStart s rg) rg
    settleCommit (toDone s u) u ⟨0x20, k, 0⟩ d.target
  | .programming => modUnit (poisonUnsent s u) u (fun d => { d with keyHit := true })
  | .free | .done => s

/-- R205: the positions of a discarded COMMITTED unit are filled at once where other units of its group are left, COMMITTED or
OPEN, so that these can program. DESIGN CHOICE (log entry 27): fills of a group of which no unit is left are dropped, so that nothing of it
is programmed; R205 fills for its other units alone. -/
def fillDiscarded (s : State) (e : Nat × Led) : State :=
  let d := e.2
  let rest := (groupUnits s e.1).filter (fun x => decide (x.1 ≠ e.1) && !x.2.keyLost && !x.2.failed)
  match (rest.find? (fun x => x.2.state = .committed)).or rest.head? with
  | none => modRidge s (e.1 / 232) (fun r => { r with fills := r.fills.filter (fun x => !(decide (x.state = .committed) && sameGroup s d x)) })
  | some (v, _) =>
    let ps := (rest.map (fun x => unitPlanes x.2)).flatten
    let taken := ((rest.map (fun x => x.2)) ++ (ridge s (e.1 / 232)).fills.filter (fun x => sameGroup s d x)).flatMap
      (fun x => (unitPlanes x).map (fun p => (p, (unitWl s x).2.2)))
    let holes := ((unitPlanes d).filter ps.contains).map (fun p => (p, (unitWl s d).2.2))
    noteComplete ((holes.filter (fun h => !taken.contains h)).foldl (fillHole v) s) v

/-- ERASE of slot k (R263, R267). -/
def eraseSlot (s : State) (k : Nat) : State :=
  let was := (keySlot s k).state
  let loads := fun (j : KeyJob) => decide (j.slot = k ∧ (j.what = .load ∨ j.what = .derive))
  let s := match s.keyJob with
    | some j => if loads j then keyFail { s with keyJob := some { j with failed := some (0x22, 7) } } 0x22 7 else s
    | none => s
  -- a command that waits for the port is abandoned without an access
  let s := if s.keyQueue.any loads then cmdStatus { s with keyQueue := s.keyQueue.filter (fun j => ¬ loads j) } 0x22 7 2 else s
  let s := modKey s k (fun x => { x with state := if was = .empty then .empty else .erased, live := 0, shadow := 0, derived := false })
  let s := { s with ridges := s.ridges.mapVals {} (fun r => { r with keyCache := r.keyCache.filter (fun x => x.1.1 ≠ k), keyFills := r.keyFills.filter (fun x => x.1 ≠ k) }) }
  let us := s.units.entries.filter (fun e => match e.2.key with
    | some (n, _) => decide (n = k)
    | none => false)
  let s := (us.map (fun e => e.1)).foldl (eraseUnit k) s
  let s := (us.filter (fun e => e.2.state = .committed)).foldl fillDiscarded s
  let s := keyNotice (count s 0x6000 0x10) k 3 0
  releaseHeld s (fun c => decide (c = .keyLoading))

/-- KEY_CACHE_FILL (R268): a fill that was started brings a ridge's key cache the round keys of a slot and generation; a full cache loses its
oldest entry. -/
def execKeyCacheFill (ridgeNo slot gen : Nat) (s : State) : Host.Outcome State Fault Refusal :=
  gate s (
    match material s (slot, gen) with
    | none => s
    | some m =>
      if keyCached s ridgeNo (slot, gen) ∨ ¬ (ridge s ridgeNo).keyFills.contains (slot, gen) then s
      else modRidge s ridgeNo (fun r =>
        { r with keyCache := (if r.keyCache.length ≥ 32 then r.keyCache.drop 1 else r.keyCache) ++ [((slot, gen), m)],
                 keyFills := r.keyFills.filter (fun x => x ≠ (slot, gen)) }))

end Sys2Proof.Machine
end

