-- ==== Sys2Proof/Machine/Engine.lean ====
section
/-! DEFINITION. Channel engines: microwords of integrator routines executed one by one (R287 to R297), the choice of a
context (R294), engine faults and their cure by a spare (R317 to R320), the mailboxes' engine side (R313 to R316). The
shipped microroutines are not run word by word: what the manual says each of them does is the meaning of the rows that make
their progress. -/

namespace Sys2Proof.Machine

/-! ### Fields of a microword (R291) -/

/-- YIELD. -/
def wYield (w : Microword) : Bool := w.getLsbD 159
/-- COMMIT. -/
def wCommit (w : Microword) : Nat := bitsOf w 158 155
/-- SEQ. -/
def wSeq (w : Microword) : Nat := bitsOf w 154 152
/-- COND. -/
def wCond (w : Microword) : Nat := bitsOf w 151 146
/-- TARGET. -/
def wTarget (w : Microword) : Nat := bitsOf w 145 134
/-- P0_OP and P1_OP. -/
def wPort (w : Microword) (k : Nat) : Nat := if k = 0 then bitsOf w 133 130 else bitsOf w 129 126
/-- BUS_IMM. -/
def wBusImm (w : Microword) : Nat := bitsOf w 125 118
/-- BUS_REG. -/
def wBusReg (w : Microword) : Nat := bitsOf w 117 114
/-- MOVE_OP. -/
def wMove (w : Microword) : Nat := bitsOf w 113 110
/-- MOVE_LEN. -/
def wMoveLen (w : Microword) : Nat := bitsOf w 109 102
/-- MOVE_REG. -/
def wMoveReg (w : Microword) : Nat := bitsOf w 101 98
/-- CODEC_OP. -/
def wCodec (w : Microword) : Nat := bitsOf w 97 94
/-- ALU_OP. -/
def wAlu (w : Microword) : Nat := bitsOf w 93 90
/-- ALU_DST. -/
def wDst (w : Microword) : Nat := bitsOf w 89 86
/-- ALU_A. -/
def wA (w : Microword) : Nat := bitsOf w 85 82
/-- ALU_B. -/
def wB (w : Microword) : Nat := bitsOf w 81 78
/-- ALU_BSEL. -/
def wBsel (w : Microword) : Nat := bitsOf w 77 76
/-- SCREE_OP. -/
def wScree (w : Microword) : Nat := bitsOf w 75 74
/-- MBOX_OP. -/
def wMbox (w : Microword) : Nat := bitsOf w 73 71
/-- TIMER_OP. -/
def wTimer (w : Microword) : Nat := bitsOf w 70 68
/-- STATUS_OP. -/
def wStatus (w : Microword) : Nat := bitsOf w 67 65
/-- IMM. -/
def wImm (w : Microword) : Nat := bitsOf w 31 0

/-- R292, R293, R314: has a word only listed encodings? A value of SCREE_OP, MBOX_OP, TIMER_OP, STATUS_OP the manual calls
reserved counts with those of the tables. -/
def wordLegal (w : Microword) : Bool :=
  decide (wCond w ≤ 25) && decide (wPort w 0 ≤ 11) && decide (wPort w 1 ≤ 11) && decide (wMove w ≤ 8) && decide (wCodec w ≤ 8)
    && decide (wAlu w ≤ 14) && decide (wScree w ≤ 2) && decide (wMbox w ≤ 4) && decide (wTimer w ≤ 2) && decide (wStatus w ≤ 2)

/-! ### Engine state -/

/-- The word of a context's address; unused words of the control store are zero (R309). -/
def wordAt (s : State) (pc : Nat) : Microword := s.image.words.getD (pc % 4096) 0

/-- A register; r0 reads zero (R287). -/
def reg (x : Ctx) (i : Nat) : W64 := if i = 0 then 0 else x.regs.getD i 0

/-- Write a register; r0 ignores it. -/
def setReg (x : Ctx) (i : Nat) (v : W64) : Ctx := if i = 0 then x else { x with regs := setAt x.regs i v }

/-- Does the context run word by word: an integrator routine, or the mailbox routine? -/
def isLiteral (x : Ctx) (c : Nat) : Bool := decide (x.desc.op ≥ 0x80) || decide (c = 63)

/-- Has the context a phase posted or in transfer on a port (COND 4, COND 5)? -/
def phasePending (s : State) (p c k : Nat) : Bool :=
  (port s p k).waiting.any (fun ph => decide (ph.ctx = c)) || (port s p k).infl.any (fun u => decide (u.ctx = c))

/-- R292: does a condition hold for a context? -/
def condHolds (s : State) (p c n : Nat) : Bool :=
  let x := ctxOf s p c
  let smask := cmdByte s x.statLun 48
  match n with
  | 0 => true
  | 1 => x.zero
  | 2 => x.carry
  | 3 => x.neg
  | 4 => !phasePending s p c 0
  | 5 => !phasePending s p c 1
  | 6 => x.die.getLsbD 6
  | 7 => x.die.getLsbD 0
  | 8 => x.die.getLsbD 6 && decide (x.die.toNat &&& smask = smask)
  | 9 => x.lkHit
  | 10 => x.lkLoad
  | 11 => x.lkPois
  | 12 => x.lkUnit
  | 13 => x.innerFail
  | 14 => x.outerDone
  | 15 => x.outerOk
  | 16 => decide (x.cls ≤ 1) && decide (suspendVerdict s x.desc.region x.desc.phys = .allowed)
  | 17 => holdDefers s x.lun
  | 18 => decide (x.timer = 2)
  | 19 => decide ((spur s p).mbox.inState = 1)
  | 20 => decide ((spur s p).mbox.outState = 2)
  | 21 => (spur s p).mbox.outTimeout
  | 22 => x.replayed
  | 23 => x.granted
  | 24 => !keyGone s x.desc
  -- which lines an integrator's descriptor has the manual does not say: those it has asked for, and at least one (DESIGN CHOICE, log 20)
  | 25 => decide (x.wants = []) && decide (x.failed = []) && decide (x.sealedHold = []) && (decide (x.desc.op < 0x80) || decide (x.mask ≠ []))
  | _ => false

/-- Does a context stand at a word it can execute now: its WAIT holds, and an OUT_POST finds the outbound mailbox not POSTED
(R314)? -/
def wordReady (s : State) (p c : Nat) : Bool :=
  let w := wordAt s (ctxOf s p c).pc
  !(decide (wMbox w = 4) && decide ((spur s p).mbox.outState = 1)) && (decide (wSeq w ≠ 6) || condHolds s p c (wCond w))

/-- R294: the rank of a context: its class; context 63 ranks as class 1. -/
def ctxRank (s : State) (p c : Nat) : Nat := if c = 63 then 1 else (ctxOf s p c).cls

/-- R294: the parked context that runs next: class order, oldest first. The age of a context is its admission number. -/
def nextParked (s : State) (p : Nat) : Option Nat :=
  let all := ((spur s p).ctxs.entries.filter (fun e => isLiteral e.2 e.1 && decide ((spur s p).current ≠ some e.1) && wordReady s p e.1)).map (fun e => e.1)
  let age : Nat → Nat := fun c => match entOf s (ctxOf s p c).desc.q (ctxOf s p c).desc.idx with
    | some e => e.order.getD 0
    | none => 0
  all.foldl (fun (b : Option Nat) (c : Nat) => match b with
    | none => some c
    | some d => if ctxRank s p c < ctxRank s p d ∨ (ctxRank s p c = ctxRank s p d ∧ age c < age d) then some c else some d) none

/-- Does a message wait for the mailbox routine (R313)? -/
def mailWaits (s : State) (p : Nat) : Bool :=
  let x := spur s p
  decide (x.mbox.inState = 1) && decide (x.svc = .inService) && !x.stopped && !ctxUsed s p 63

/-- R294: the rank of what resumes without a new pop: a parked context, or the mailbox routine, which ranks as class 1; 4 is nothing. -/
def resumeRank (s : State) (p : Nat) : Nat :=
  min (match nextParked s p with
    | some d => ctxRank s p d
    | none => 4) (if mailWaits s p then 1 else 4)

/-- R294: the rank of a new pop: the class R21 selects, while a context among 0 to 62 is free; 4 is nothing. -/
def popRank (s : State) (p : Nat) : Nat := if (List.range 63).any (fun k => !ctxUsed s p k) then (popClass s p).getD 4 else 4

/-- DESCRIPTOR_POP (R21, R294): an engine with a free context among 0 to 62 that runs no routine word by word pops a packet. At a word
with YIELD such a routine is set aside for a packet that ranks higher; a parked context that can go on resumes before a pop of its
class. -/
def execDescriptorPop (spurNo c : Nat) (s : State) : Host.Outcome State Fault Refusal :=
  gate s (
    let sp := spur s spurNo
    if (sp.svc = .inService ∨ sp.svc = .draining) ∧ sp.current = none ∧ ¬ sp.stopped ∧ ¬ railDown s ∧ (ridge s (spurNo / 4)).pstate = 0
        ∧ c < 63 ∧ ¬ ctxUsed s spurNo c ∧ popRank s spurNo < resumeRank s spurNo then popInto s spurNo c else s)

/-! ### Faults and their cure (R317 to R320) -/

/-- R320: a program an engine's fault cuts ends with a status. -/
def cutOp (l : Nat) (st : Status) (s : State) (b : Busy) : State :=
  match b with
  | .program _ _ _ => cutProgram (modLun s l (fun y => { y with busy := b })) l st
  | _ => s

/-- R320, R210: the erase a LUN runs or has suspended is cut: the planes the die has passed are erased, and an ERASE counts. -/
def cutErase (s : State) (l : Nat) : State :=
  match (lunOf s l).erases with
  | j :: _ =>
    if j.phase = .queued then s
    else
      let s := j.passed.foldl (fun s k => planeErased s l j k) s
      let s := if j.passed = [] then s else lockRetry s l
      match j.who with
      | .entry => eraseCounted (count s (0x2000 + j.desc.region) 0x16) j.desc.region l
      | .member => eraseCounted s j.desc.region l
      | .move => s
  | [] => s

/-- R320: a program that runs on a LUN of the spur ends with a status; its units stay as a failed program leaves them. -/
def cutLun (s : State) (st : Status) (l : Nat) : State :=
  let x := lunOf s l
  let s := modLun (cancelLoads (cutErase s l) l) l (fun y => { y with susp := none, suspended := none, ladder := none, erases := [] })
  let ops := x.busy :: (match x.suspended with
    | some b => [b]
    | none => [])
  let s := ops.foldl (cutOp l st) s
  modLun s l (fun y => { y with busy := .idle })

/-- The LUNs of a spur, as far as the state lists them. -/
def spurLuns (s : State) (p : Nat) : List Nat := s.luns.keys.filter (fun l => decide (lunSpur l = p))

/-- Packets of a spur's Scree queues go back to the hold store in arrival order, ahead of what arrived behind them (R320). -/
def screeBack (s : State) (p : Nat) : State :=
  let l := ((spur s p).classes.map (fun c => c.packets.map (fun k => k.2.2))).flatten
  l.foldl (fun s d => holdAs s d.no .unitNotReady d)
    (modSpur s p (fun x => { x with classes := x.classes.map (fun c => { c with w := c.p, c := c.p, unread := 0, packets := [] }) }))

/-- A mailbox message the routine had taken goes back to POSTED; the routine's context is gone (R313). -/
def mailBack (s : State) (p : Nat) : State :=
  modSpur s p (fun x => { x with mbox := if x.mbox.inState = 2 then { x.mbox with inState := 1 } else x.mbox,
                                  ctxs := x.ctxs.set {} 63 {}, current := if x.current = some 63 then none else x.current })

/-- R320, R32: a spur goes OUT with its work: running descriptors complete INTERNAL with a cause, packets return to the hold
store; the ridge's manifest LUN moves if it stood there (R360). -/
def spurOut (s : State) (p cause ready : Nat) : State :=
  let st : Status := ⟨0xF0, cause, 0⟩
  let was := (spur s p).svc
  let s := mailBack s p
  let cs := (spur s p).ctxs.keys
  let s := cs.foldl (fun s c => if ctxUsed s p c then failDesc s p c st else s) s
  let s := (spurLuns s p).foldl (fun s l => cutLun s st l) s
  let s := modRidge (screeBack s p) (p / 4) (fun r => { r with refugeWait := r.refugeWait.filter (fun x => decide (lunSpur x.1 ≠ p)) })
  let s := holdSpur (modSpur s p (fun x => { x with svc := .out, current := none, stopped := false, port0 := {}, port1 := {} })) p
  let s := moveManifest (setOd s (0x4100 + p) 0x01 0) p
  if was = .inService then readyChange s 1 p false ready else s

/-- R289: a phase that has been posted is issued even if the engine faults afterwards: one whose cycles it holds, a suspend command that can go
out, a transfer of a resident page. -/
def issueAway (p k : Nat) (s : State) (ph : Phase) : State :=
  match phaseAct s (port s p k) ph with
  | .transfer => startTransfer s p k ph
  | .go => if ph.cycles ≠ [] ∧ ph.kind ≠ .dataIn then literalIssued (bus s ph.lun ph.cycles) p k ph
           else if ph.kind = .suspend ∧ ph.cycles = [] then issueSuspend s ph.lun else s
  | _ => s

/-- The phases a spur's ports still hold go out. -/
def issuePosted (s : State) (p : Nat) : State :=
  let s := (port s p 0).waiting.foldl (issueAway p 0) s
  (port s p 1).waiting.foldl (issueAway p 1) s

/-- An engine fault is not cured (R320). -/
def uncured (s : State) (p : Nat) : State := spurOut (issuePosted s p) p 3 2

/-- FAULT_INFO (R324) for a fault of the context c of a spur at word pc. -/
def faultInfo (s : State) (p c pc cause : Nat) : Nat :=
  let x := ctxOf s p c
  cause % 256 * 2 ^ 56 + pc % 4096 * 2 ^ 44 + c % 64 * 2 ^ 38 + x.cls % 4 * 2 ^ 36 + x.desc.opcode % 256 * 2 ^ 28 + s.ao.timeUs % 2 ^ 28

/-- The contexts of a spur that run shipped routines. -/
def shippedCtxs (s : State) (p : Nat) : List Nat := ((spur s p).ctxs.entries.filter (fun e => !isLiteral e.2 e.1)).map (fun e => e.1)

/-- R317: the context and the word an engine faults at: those given with the cause, else those it runs word by word; while it runs
shipped routines, which of them faulted and at which word the manual leaves to the routine, so both are free. -/
def faultPlace (s : State) (p : Nat) (ctx word : Option Nat) : Nat × Nat :=
  let sp := spur s p
  let used := if shippedCtxs s p = [] then sp.ctxs.keys else shippedCtxs s p
  let shipped := if used.length = 0 then 0 else used.getD (Config.freePick s.free % used.length) 0
  (ctx.getD (sp.current.getD shipped), word.getD (sp.current.elim (Config.freePick (s.free + 1)) (fun c => (ctxOf s p c).pc)))
/-- R317: a fault is noted. -/
def faultNoted (s : State) (p c pc cause : Nat) : State :=
  let x := ctxOf s p c
  let info := faultInfo s p c pc cause
  let s := count (count (setOd s (0x4100 + p) 0x09 info) (0x4100 + p) 0x0A) 0x4000 0x0C
  cairn s 0x40 (cu 1 p) (if ctxUsed s p c ∧ c ≠ 63 then x.desc.region else 0xFFFF) cause 0 (bitsOf (dispatchOf s x.desc.opcode) 31 0) info 0
/-- R317: the engine of a spur faults, in a context and at a word where the cause gives them (the address of the memory error). A fault
of the spur's own engine is answered by the group's spare (R318), any other stays uncured (R320). -/
def engineFaultAt (s : State) (p cause : Nat) (ctx word : Option Nat) : State :=
  let at_ := faultPlace s p ctx word
  let s := faultNoted { s with free := s.free + 2 } p at_.1 at_.2 cause
  let g := p / 16
  if (spur s p).onSpare then uncured (modSpare s g (fun y => { y with state := 3, spur := 0xFF })) p
  else if od s 0x4000 0x0A = 1 ∧ (spare s g).state = 0 then
    modSpur (modSpare s g (fun y => { y with state := 1, spur := p, switched := false, faultUs := s.ao.timeUs })) p
      (fun y => { y with stopped := true, current := none, injected := false })
  else uncured (setOd (modSpur s p (fun y => { y with injected := false })) (0x4100 + p) 0x08 1) p
/-- R317 for a fault of the word the engine executes. -/
def engineFault (s : State) (p cause : Nat) : State := engineFaultAt s p cause none none

/-- R296: can the count of 512 cycles have been reached: in the context run word by word, which keeps it, or in a shipped routine? -/
def watchdogDue (s : State) (p : Nat) : Bool :=
  match (spur s p).current with
  | some c => decide ((ctxOf s p c).cycles ≥ 512)
  | none => decide (shippedCtxs s p ≠ [])

/-- WATCHDOG_EXPIRY (R296): the engine has spent 512 cycles in one context. -/
def execWatchdogExpiry (spurNo : Nat) (s : State) : Host.Outcome State Fault Refusal :=
  gate s (if watchdogDue s spurNo ∧ ¬ (spur s spurNo).stopped then engineFault s spurNo 1 else s)

/-! ### What a word does -/

/-- Append to a port's phase builder. -/
def addCyc (x : Ctx) (k : Nat) (b : BusCyc) : Ctx := if k = 0 then { x with b0 := x.b0 ++ [b] } else { x with b1 := x.b1 ++ [b] }

/-- A line of a Ledge unit as FEED hands it on under the routine's cipher setting (R293, R278, R194): 2 KEY and 3 TWEAK encipher a line that
holds data, 5 GCM_SEAL seals its sector, any other passes it. -/
def feedLine (s : State) (x : Ctx) (d : Led) (plane i : Nat) : BitVec 528 :=
  let at_ := fun j => d.lines.get 0 ((plane - fPlane d.phys) * 256 + j)
  match x.desc.key.bind (laneKey s (fRidge d.phys)) with
  | none => at_ i
  | some m =>
    if x.codec = 2 ∨ x.codec = 3 then
      (if lValid (at_ i) ∧ ¬ lPoison (at_ i) then withData (at_ i) (xtsEnc m (literalDu x plane i) (lData (at_ i))) else at_ i)
    else if x.codec = 5 then sealedLine m (literalDu x plane (i / 64 * 64)) ((List.range 64).map (fun j => at_ (i / 64 * 64 + j))) (i % 64)
    else at_ i

/-- The length of a unit of a page in bytes (R151). -/
def unitLen (P u : Nat) : Nat := if u < 256 then 70 else if u < 511 then 66 else headerLen P

/-- DIN from FEED (R293): units of the page a Ledge unit makes at an address, from a unit index on. The header area is composed under HEADER;
without it the manual gives it no bytes. -/
def feedCycles (s : State) (x : Ctx) (handle : BitVec 32) (f : W64) (u n : Nat) : List BusCyc :=
  let d := unit s (unitKey handle)
  let P := lunPhys s (fBlun f)
  let h := unitHeader s d handle f (fPlane f - fPlane d.phys) (seqOf (lunRidge (fBlun f)) (od s (0x2110 + lunRidge (fBlun f)) 0x01))
  let page := pageBytes P (fun k => literalSeed s x f k) h (feedLine s x d (fPlane f))
  (List.range n).map (fun i =>
    if u + i = 511 ∧ ¬ x.hdrFeed then .din 1 else .data ((page.drop (unitOffset P (u + i))).take (unitLen P (u + i))))

/-- R289, R293: a port operation of a word. DESIGN CHOICE (log entry 20): CE discards what the builder already held: the spec says only that
it opens a phase. -/
def busOp (p c k : Nat) (w : Microword) (s : State) : State :=
  let x := ctxOf s p c
  let v := reg x (wBusReg w)
  let opened := if k = 0 then x.at0 else x.at1
  let put := fun (s : State) (b : BusCyc) => modCtx s p c (fun x => addCyc x k b)
  match wPort w k with
  | 1 => modCtx s p c (fun x => addCyc (if k = 0 then { x with b0 := [], at0 := v, pull0 := [] } else { x with b1 := [], at1 := v, pull1 := [] }) k (.ce v))
  | 2 => put s (.cmd (wBusImm w))
  | 3 => modCtx s p c (fun x => addCyc (if k = 0 then { x with col0 := v.toNat % 512 } else { x with col1 := v.toNat % 512 }) k
      (.col (unitOffset (lunPhys s (fBlun opened)) (v.toNat % 512))))
  | 4 => modCtx s p c (fun x => addCyc (if k = 0 then { x with at0 := v } else { x with at1 := v }) k (.row v))
  | 5 =>
    let u0 := if k = 0 then x.col0 else x.col1
    let l := (List.range (wMoveLen w + 1)).map (fun i => ({ ctx := c, fpa := fSetLine opened 0, unit := u0 + i, soft := wMove w } : Pull))
    modCtx s p c (fun x => addCyc (if k = 0 then { x with pull0 := x.pull0 ++ l } else { x with pull1 := x.pull1 ++ l }) k (.dout (wMoveLen w + 1)))
  | 6 =>
    if wMove w = 5 then
      let u0 := if k = 0 then x.col0 else x.col1
      (feedCycles s x ((reg x (wMoveReg w)).setWidth 32) opened u0 (wMoveLen w + 1)).foldl put s
    else put s (.din (wMoveLen w + 1))
  | 7 => put s (.delay (wBusImm w * 5))
  | 8 => put (modCtx s p c (fun x => { x with statLun := fBlun v })) (.stat v)
  | 9 => put s (.param (v.setWidth 32))
  | 10 =>
    let kind := if wBusImm w % 4 = 1 then PhaseKind.suspend else if wBusImm w % 4 = 2 then PhaseKind.poll else PhaseKind.other
    let ph : Phase := { ctx := c, cls := x.cls, kind := kind, lun := fBlun opened, plane := fPlane opened, fpa := opened,
                        cycles := if k = 0 then x.b0 else x.b1, pulls := if k = 0 then x.pull0 else x.pull1,
                        commit := wCommit w, commitAt := x.pc }
    postPhase (modCtx s p c (fun x =>
        if k = 0 then { x with b0 := [], pull0 := [], issued := true, hdrFeed := false } else { x with b1 := [], pull1 := [], issued := true, hdrFeed := false }))
      p k ph
  | 11 => modCtx s p c (fun x => if k = 0 then { x with b0 := [], pull0 := [] } else { x with b1 := [], pull1 := [] })
  | _ => s

/-- R293 KEY: the descriptor's slot and generation. The Gate binds none for an integrator opcode (R264), so the routine's first KEY binds
its entry to the live generation of the region's slot, a user of it until its status is final (DEDUCED, log entry 20). -/
def bindLive (s : State) (p c : Nat) : State :=
  let d := (ctxOf s p c).desc
  match d.key, liveKey s d.region with
  | none, some kg =>
    if c = 63 ∨ ¬ (entOf s d.q d.idx).any (fun x => decide (x.key = none)) then s
    else addUser (modEnt (modCtx s p c (fun y => { y with desc := { y.desc with key := some kg } })) d.q d.idx (fun x => { x with key := some kg })) kg.1 kg.2
  | _, _ => s

/-- R293: the codec and cipher setting of a word. -/
def codecOp (p c : Nat) (w : Microword) (s : State) : State :=
  let x := ctxOf s p c
  match wCodec w with
  | 1 => modCtx s p c (fun y => { y with seedSys := false, seedFpa := some (reg x (wMoveReg w)) })
  | 2 => modCtx (let t := bindLive s p c; askKey t (p / 4) (ctxOf t p c).desc.key) p c (fun y => { y with codec := 2, tweak := tweakForm s x.desc.region x.desc.named })
  | 3 => modCtx s p c (fun y => { y with codec := 3, tweak := reg x (wA w) })
  | 4 => modCtx s p c (fun x => { x with codec := 4 })
  | 5 => modCtx s p c (fun x => { x with codec := 5 })
  | 6 => modCtx s p c (fun x => { x with codec := 6 })
  | 7 => modCtx s p c (fun x => { x with hdrFeed := true })
  | 8 => modCtx s p c (fun x => { x with seedSys := true })
  | _ => s

/-- R293: a stand-alone move of a word; DELIVER, STAGE, FEED and RAW act with the DOUT or DIN they ride on. A move of staged
lines takes the oldest MOVE_LEN + 1, a move out of a unit takes its first. -/
def moveOp (p c : Nat) (w : Microword) (s : State) : State :=
  let x := ctxOf s p c
  let n := wMoveLen w + 1
  let v := reg x (wMoveReg w)
  let u := unitKey (v.setWidth 32)
  match wMove w with
  | 3 => literalOuter s p c v
  | 4 => (List.range n).foldl (fun s i =>
      let d := unit s u
      let y := ctxOf s p c
      let f := fSetLine (fSetPlane d.phys (fPlane d.phys + i / 256)) (i % 256)
      writeLine s p c (literalWant y (f.toNat / 4096)) (linePlain (.line (d.lines.get 0 i) 0 false) (i % 256) (fun z => z))) s
  | 6 =>
    let ls := x.lines.take n
    ls.foldl (fun s y =>
      let o := ((x.outcomes.find? (fun z => z.1 = y.1)).map (fun z => z.2)).getD (0, false)
      literalDeliver s p c y.1 o.1 o.2 y.2) (modCtx s p c (fun y => { y with lines := y.lines.drop n }))
  | 7 =>
    let ls := x.lines.take n
    let s := modCtx s p c (fun y => { y with lines := y.lines.drop n })
    modUnit s u (fun d => { d with lines := ls.foldl (fun m y =>
      m.set 0 ((fPlane (keyFpa y.1) - fPlane d.phys) * 256 + y.1 % 256) y.2) d.lines })
  | _ => s

/-- The second operand of the ALU (R291). Which descriptor value a selector names the manual does not say: it is free. -/
def aluB (s : State) (x : Ctx) (w : Microword) : W64 :=
  match wBsel w with
  | 0 => reg x (wB w)
  | 1 => BitVec.ofNat 64 (wImm w)
  | 2 => Config.freeAlu (s.free + wImm w % 16)
  | _ => x.die.setWidth 64

/-- R293: result and carry of an arithmetic operation of the ALU; where the manual gives none they are free. MOV copies the
second operand (DEDUCED: the immediate reaches a register no other way). -/
def aluResult (s : State) (x : Ctx) (w : Microword) : W64 × Bool :=
  let a := reg x (wA w)
  let b := aluB s x w
  let fc := Config.freeFlag s.free
  let lo := wImm w % 64
  let n := wImm w / 256 % 64
  match wAlu w with
  | 1 => (b, fc)
  | 2 => (a + b, decide (a.toNat + b.toNat ≥ 2 ^ 64))
  | 3 => (a - b, fc)
  | 4 => (a &&& b, fc)
  | 5 => (a ||| b, fc)
  | 6 => (a ^^^ b, fc)
  | 7 => (if b.toNat < 64 then a <<< b.toNat else Config.freeAlu s.free, fc)
  | 8 => (if b.toNat < 64 then a >>> b.toNat else Config.freeAlu s.free, fc)
  | 9 => (if lo + n ≤ 64 then (a >>> lo) &&& BitVec.ofNat 64 (2 ^ n - 1) else Config.freeAlu s.free, fc)
  | _ => (a - b, fc)

/-- R116, R293 LOOKUP: poison map, Ledge, Cornice for an address. -/
def lookup (s : State) (p c : Nat) (f : W64) : State :=
  let r := (ctxOf s p c).desc.region
  modCtx s p c (fun x => { x with lkPois := (poisonMask s r f).getLsbD (fLine f), lkUnit := (sourceUnit s r f).isSome || sourceFill s r f,
                                  lkHit := resident s f, lkLoad := pageLoading s f })

/-- R293 LEDGER, R356: a charge is requested, or all are returned. -/
def ledgerReq (s : State) (p c code : Nat) : State :=
  if code = 0 then modCtx s p c (fun x => { x with charge := [], granted := true })
  else
    let k : ChargeKind := if code = 1 then .refuge else .program (code - 2)
    if code ≤ 4 ∧ covers s (kindCost s k) then
      peakDemand (modCtx (spend s (kindCost s k)) p c (fun x => { x with charge := x.charge ++ [(k, 1)], granted := true }))
    else modCtx (deny s) p c (fun x => { x with granted := false })

/-- R293: the ALU operation of a word. -/
def aluOp (p c : Nat) (w : Microword) (s : State) : State :=
  let x := ctxOf s p c
  let op := wAlu w
  if op = 0 then s
  else if op ≤ 10 then
    let r := aluResult s x w
    modCtx { s with free := s.free + 16 } p c (fun x =>
      let x := if op = 10 then x else setReg x (wDst w) r.1
      { x with zero := decide (r.1 = 0), neg := r.1.getLsbD 63, carry := r.2 })
  else if op = 11 then lookup s p c (reg x (wA w))
  else if op = 12 then
    let f := reg x (wA w)
    modCtx s p c (fun x => setReg x (wDst w) (BitVec.ofNat 64 (s.talus.get 0 (talusKey s (fBlun f) (fBlock f)))))
  else if op = 13 then
    let f := reg x (wA w)
    talusWrite s (fBlun f) (fBlock f) ((aluB s x w).toNat % 64)
  else if op = 14 then ledgerReq s p c (wImm w % 16)
  else s

/-- R303, R305: NEXT loads the next body item, DROP leaves the rest. -/
def screeOp (p c : Nat) (w : Microword) (s : State) : State :=
  let x := ctxOf s p c
  match wScree w with
  | 1 =>
    if x.bodies = 0 then s
    else
      let n := x.desc.items - x.bodies
      modCtx (readBodies s p x.cls 1) p c (fun x =>
        { x with regs := x.regs.take 8 ++ itemRegs (bodyItem x.desc n) ++ x.regs.drop 12, bodies := x.bodies - 1 })
  | 2 => modCtx (count (readBodies s p x.cls x.bodies) (0x4100 + p) 0x0C) p c (fun x => { x with bodies := 0 })
  | _ => s

/-- R314, R313, R315: the mailbox operation of a word of a context that began the cycle as x. -/
def mboxOp (p c : Nat) (x : Ctx) (w : Microword) (s : State) : State :=
  let i := wImm w % 8
  let m := (spur s p).mbox
  match wMbox w with
  | 1 => modCtx s p c (fun x => setReg x (wDst w) (m.inData.getD i 0))
  | 2 =>
    if m.inState = 2 then
      modSpur s p (fun y => { y with mbox := { m with inState := 3, inAck := wImm w % 256, inData := setAt (m.inData ++ List.replicate (8 - m.inData.length) 0) 0 (reg x (wA w)) } })
    else s
  | 3 => modSpur s p (fun y => { y with mbox := { m with outData := setAt (m.outData ++ List.replicate (8 - m.outData.length) 0) i (reg x (wA w)) } })
  | 4 => modSpur s p (fun y => { y with mbox := { m with outState := 1, outCode := wImm w % 65536 } })
  | _ => s

/-- R291: timer and status operations, and a commit point of a word that posts nothing (R297). -/
def restOps (p c : Nat) (w : Microword) (s : State) : State :=
  let x := ctxOf s p c
  let s := match wTimer w with
    | 1 => modCtx s p c (fun x => { x with timer := 1 })
    | 2 => modCtx s p c (fun x => { x with timer := 0 })
    | _ => s
  let st := x.acc.explicit.getD Status.ok
  let s := match wStatus w with
    | 1 => modCtx s p c (fun y => { y with acc := { y.acc with explicit := some { st with code := wImm w % 65536, detail := (reg x (wA w)).toNat % 65536 } } })
    | 2 => modCtx s p c (fun y => { y with acc := { y.acc with extraSet := some ((reg x (wA w)).toNat % 2 ^ 32) } })
    | _ => s
  if wCommit w = 0 ∨ wPort w 0 = 10 ∨ wPort w 1 = 10 then s
  else modCtx s p c (fun y => { y with commit := wCommit w, commitAt := x.pc, commitRegs := (y.regs.drop 1).take 6, issued := false })

/-- Everything a word does in its cycle besides its next address. Its fields act together (R291): each reads the registers as the
cycle found them, and what the ALU, NEXT and IN_READ write comes last. -/
def wordActs (p c : Nat) (w : Microword) (s : State) : State :=
  mboxOp p c (ctxOf s p c) w (screeOp p c w (aluOp p c w (restOps p c w (moveOp p c w (busOp p c 1 w (busOp p c 0 w (codecOp p c w s)))))))

/-- R290, R294: END: what a routine did not read is dropped, its status reported, its context freed. Context 63 has no
descriptor. -/
def endRoutine (s : State) (p c : Nat) : State :=
  let x := ctxOf s p c
  if c = 63 then modSpur s p (fun y => { y with ctxs := y.ctxs.set {} 63 {}, current := none })
  else
    let s := if x.bodies > 0 then count s (0x4100 + p) 0x0C else s
    let st := x.acc.status x.desc.slot
    reportDesc (freeCtx s p c) x.desc st

/-- R294: after a word with YIELD a runnable context is set aside for one that ranks higher: a parked context whose condition holds,
else, by a switch to none, the mailbox routine or the packet that MAILBOX_TAKEN or DESCRIPTOR_POP takes next. Ranks go by class over
both, parked contexts first within a class (DEDUCED, log 25). -/
def rearbitrate (s : State) (p c : Nat) : State :=
  let a := match nextParked s p with
    | some d => ctxRank s p d
    | none => 4
  let b := min (if mailWaits s p then 1 else 4) (popRank s p)
  if min a b < ctxRank s p c then
    modSpur (count s (0x4100 + p) 0x0B) p (fun y => { y with current := if a ≤ b then nextParked s p else none })
  else s

/-- R292: the next address of a context after a word; a call stack that overflows or underflows faults. -/
def wordNext (s : State) (p c : Nat) (w : Microword) (taken : Bool) : State :=
  let x := ctxOf s p c
  let goTo := fun n : Nat => modCtx s p c (fun x => { x with pc := n % 4096 })
  match wSeq w with
  | 1 => goTo (wTarget w)
  | 2 => goTo (if taken then wTarget w else x.pc + 1)
  | 3 => goTo (if taken then x.pc + 1 else wTarget w)
  | 4 => if x.stack.length ≥ 8 then engineFault s p 4 else modCtx s p c (fun y => { y with pc := wTarget w, stack := (x.pc + 1) % 4096 :: y.stack })
  | 5 => match x.stack with
    | a :: rest => modCtx s p c (fun y => { y with pc := a, stack := rest })
    | [] => engineFault s p 4
  | 7 => endRoutine s p c
  | _ => goTo (x.pc + 1)

/-- Count a cycle spent in a context (R296). -/
def spendCycle (s : State) (p c : Nat) : State :=
  let s := modCtx s p c (fun x => { x with cycles := x.cycles + 1 })
  if (ctxOf s p c).cycles ≥ 512 then engineFault s p 1 else s

/-- One RCK cycle of an engine in a context: a stalled POST, a WAIT, or a word executed. DESIGN CHOICE (log entry 20): COND is tested on the
flags as they stood before the word's own ALU operation; R291 does not say. -/
def runWord (s : State) (p c : Nat) : State :=
  let x := ctxOf s p c
  let w := wordAt s x.pc
  let posts := fun k => decide (wPort w k = 10) && (port s p k).waiting.any (fun ph => decide (ph.ctx = c))
  if ¬ wordReady s p c then
    if wYield w ∨ wMbox w = 4 then modSpur (modCtx s p c (fun x => { x with parked := true, cycles := 0 })) p (fun y => { y with current := none })
    else spendCycle s p c
  -- the other fields of a WAIT act, and stall, only once its condition holds (R292)
  else if posts 0 || posts 1 then spendCycle s p c
  else
    let taken := condHolds s p c (wCond w)
    let s := wordActs p c w s
    let s := wordNext s p c w taken
    if ¬ ctxUsed s p c ∨ (spur s p).stopped ∨ (spur s p).svc = .out then s
    else if wYield w then rearbitrate (modCtx s p c (fun x => { x with cycles := 0, replayed := false, parked := false })) p c
    else spendCycle s p c

/-- MICROWORD_EXECUTE (R291): the engine of a spur executes a word. An injected fault strikes at it (R422). With no context
chosen the engine first takes the parked one that R294 names, unless a packet that ranks higher waits for its pop. -/
def execMicrowordExecute (spurNo : Nat) (s : State) : Host.Outcome State Fault Refusal :=
  gate s (
    let sp := spur s spurNo
    if sp.stopped ∨ (sp.svc ≠ .inService ∧ sp.svc ≠ .draining) then s
    else if (if sp.onSpare then (spare s (spurNo / 16)).injected else sp.injected) then
      engineFault (modSpare s (spurNo / 16) (fun y => if sp.onSpare then { y with injected := false } else y)) spurNo 5
    else if ¬ (if sp.onSpare then (spare s (spurNo / 16)).csGood else sp.csGood) then engineFault s spurNo 2
    else match sp.current with
      | some c => if ctxUsed s spurNo c then runWord s spurNo c else s
      | none => match (if popRank s spurNo < resumeRank s spurNo then none else nextParked s spurNo) with
        | some c => runWord (modSpur s spurNo (fun y => { y with current := some c })) spurNo c
        | none => s)

/-- CONTEXT_TIMER_EXPIRY (R292): a running context timer expires. -/
def execContextTimerExpiry (spurNo c : Nat) (s : State) : Host.Outcome State Fault Refusal :=
  gate s (if ctxUsed s spurNo c ∧ (ctxOf s spurNo c).timer = 1 then modCtx s spurNo c (fun x => { x with timer := 2 }) else s)

/-! ### Takeover (R318, R299) -/

/-- R318 step 1: has the spur nothing left to issue or to run: no phase its ports can issue, no transfer under way, no outer decode or GCM
job? -/
def spurSettled (s : State) (p : Nat) : Bool :=
  let r := ridge s (p / 4)
  let idle := fun y : Port => (choosePosted s y).isNone && decide (y.infl = [])
  let gcm := fun j : GcmJob => !j.sealing && decide (j.spur = p)
  idle (port s p 0) && idle (port s p 1) && !r.staged.any (fun t => decide (t.spur = p))
    && !((List.range 4).any (fun d => (dec s d).jobs.entries.any (fun e => e.2.any (fun t => decide (t.spur = p)))))
    && !(r.gcm0.toList ++ r.gcm1.toList ++ r.gcmWait).any gcm

/-- SPARE_CLOCK_SWITCHED (R20, R318 steps 1 and 2): with what was posted or submitted at its end, the spare stands on the spur's clock and
has checked its control store. -/
def execSpareClockSwitched (g : Nat) (s : State) : Host.Outcome State Fault Refusal :=
  gate s (
    let x := spare s g
    if x.state ≠ 1 ∨ x.switched ∨ ¬ spurSettled s x.spur then s
    else if ¬ x.csGood then
      uncured (setOd (modSpare s g (fun y => { y with state := 3, spur := 0xFF })) (0x4100 + x.spur) 0x08 1) x.spur
    else modSpare s g (fun y => { y with switched := true }))

/-- R299: has a GET form of DIE_FEATURE gone out and not reported yet? It starts again. -/
def getOut (s : State) (l : Nat) (e : Nat × Ctx) : Bool :=
  decide (e.2.desc.op = 0x30) && decide (bitsOf e.2.desc.body 7 0 % 2 = 0) && (decide (e.2.stage = 6) || decide ((lunOf s l).busy = .feature e.1))

/-- R299: a context of a shipped routine starts again from its commit store entry: lines not yet delivered are wanted again
at rung 0. What a die operation of its own does goes on by polling. -/
def replayCtx (p : Nat) (s : State) (c : Nat) : State :=
  let x := ctxOf s p c
  if isLiteral x c then
    let free := (List.range 11).map (fun i => Config.freeAlu (s.free + i))
    let r := 0 :: ((if x.commit = 0 then free.take 6 else x.commitRegs) ++ free.drop 6) ++ itemRegs (headItem s x.desc)
    modCtx { s with free := s.free + 11 } p c (fun y =>
      { y with pc := if x.commit = 0 then dEntry (dispatchOf s x.desc.op) else (x.commitAt + 1) % 4096, regs := r, stack := [], timer := 0,
               replayed := true, parked := true, cycles := 0, b0 := [], b1 := [], pull0 := [], pull1 := [], bodies := x.desc.items - 1 })
  else if x.desc.op = 0x30 then modCtx s p c (fun y => { y with stage := if getOut s y.lun (c, y) then 3 else y.stage })
  else if x.stage = 0 ∨ x.stage = 4 then
    let due := owedKeys s p c
    let s := dropPhases s p c
    let s := modRidge s (p / 4) (fun r => { r with staging := r.staging.filter (fun t => !(decide (t.spur = p) && decide (t.ctx = c))),
                                                    stageWait := r.stageWait.filter (fun t => !(decide (t.1 = p) && decide (t.2.1 = c))) })
    let s := modCtx s p c (fun y => { y with failed := [], erasedWait := [], fails := [], issued := false })
    postAgain (postHeaders s p c) p c (ctxOf s p c).wants due
  else s

/-- R299: what a LUN starts again from its beginning: the ladder there, its moved thresholds restored to step 0, once an array read of its
own has ended, and the data-in of a program before its confirm. -/
def ladderAgain (s : State) (l : Nat) : State :=
  match (lunOf s l).ladder with
  | some y =>
    let y := { y with ctx := 64, joined := [] }
    if y.phase = 1 ∧ (lunOf s l).busy ≠ .idle then modLun s l (fun x => { x with ladder := some y }) else ladderEnd s l y
  | none => s
def programAgain (s : State) (l : Nat) (reset : Bool) : State := if dataInOpen s l then dataInAgain s l reset else s

/-- What a LUN that has answered ready ran for a GET form or for a routine is over. -/
def replayReady (s : State) (l : Nat) : State :=
  modLun s l (fun x => { x with busy := match x.busy with
    | .routine _ _ _ _ => .idle
    | .feature c => if getOut s l (c, ctxOf s (lunSpur l) c) then .idle else .feature c
    | b => b })

/-- R318 step 4: the status of the LUN of every context, a program's among them, is read, and one that is ready, on which a context has issued
phases since its commit point, is reset; not one that holds a suspended operation, which R299 goes on with (DEDUCED, log entry 25). R299:
moved thresholds are restored to step 0 and ladders start again; a program before its confirm starts its data-in again. -/
def replayLun (ready : Nat) (p : Nat) (s : State) (l : Nat) : State :=
  let mine := (spur s p).ctxs.entries.filter (fun e => decide (e.1 < 63) && decide (e.2.lun = l))
  let used := mine.any (fun e => e.2.issued || getOut s l e) && decide ((lunOf s l).susp = none) && !dataInBegun s l
  let on := ready.testBit (l % 32)
  let s := if mine = [] ∧ (lunOf s l).busy = .idle ∧ (lunOf s l).suspended = none then s else bus s l (pollCycles s l)
  let s := if on then replayReady s l else s
  let s := ladderAgain s l
  programAgain (if used ∧ on then bus s l (resetLun s l) else s) l on

/-- SPARE_TAKEOVER (R318): steps 3 to 5; the operand says which LUNs of the spur answered ready. -/
def execSpareTakeover (spurNo ready : Nat) (s : State) : Host.Outcome State Fault Refusal :=
  gate s (
    let g := spurNo / 16
    let x := spare s g
    if x.state ≠ 1 ∨ x.spur ≠ spurNo ∨ ¬ x.switched then s
    else
      let us := s.ao.timeUs - x.faultUs
      let s := (spurLuns s spurNo).foldl invalidateLun s
      let s := (spurLuns s spurNo).foldl (replayLun ready spurNo) s
      let s := (spur s spurNo).ctxs.keys.foldl (fun s c => if c = 63 then s else replayCtx spurNo s c) (mailBack s spurNo)
      let s := modSpare s g (fun y => { y with state := 2 })
      let s := modSpur s spurNo (fun y => { y with onSpare := true, stopped := false })
      let s := count (setOd s (0x4100 + spurNo) 0x08 1) 0x4000 0x0B
      let d := spurNo * 256 + g
      cairn (blockNotice s 0x31 d (sat (2 ^ 32 - 1) us)) 0x41 (cu 1 spurNo) 0xFFFF d 0 (sat (2 ^ 32 - 1) us) 0 0)

/-- R320: a write of 1 to REARM: a FAULTED spare reruns its control store check. -/
def rearmSpare (s : State) (g : Nat) : State :=
  if (spare s g).state = 3 ∧ (spare s g).csGood then modSpare s g (fun y => { y with state := 0, spur := 0xFF, switched := false }) else s

/-! ### Mailboxes -/

/-- The last die status byte of a LUN of a spur (R313, LUN_STATUS). -/
def lunStatusOf (s : State) (p n : Nat) : Nat := (lunOf s (p * 32 + n % 32)).dieStatus

/-- R313: the mask of the contexts in use; context 63 runs the routine that answers. -/
def ctxMask (s : State) (p : Nat) : W64 := (spur s p).ctxs.keys.foldl (fun a c => a ||| place 64 c 1) (place 64 63 1)

/-- MAILBOX_TAKEN (R313): context 63 starts on the message. The shipped routine answers its own codes at once; codes from
0x8000 go to the integrator's microcode at MBOX_ENTRY. -/
def execMailboxTaken (sp : Nat) (s : State) : Host.Outcome State Fault Refusal :=
  gate s (
    let x := spur s sp
    let m := x.mbox
    let d0 := m.inData.getD 0 0
    let answer := fun (a : Nat) (v : W64) =>
      modSpur s sp (fun y => { y with mbox := { m with inState := 3, inAck := a, inData := setAt (m.inData ++ List.replicate (8 - m.inData.length) 0) 0 v } })
    if ¬ mailWaits s sp ∨ x.current ≠ none then s
    else if m.inCode = 1 then answer 1 d0
    else if m.inCode = 2 then answer 1 (ctxMask s sp)
    else if m.inCode = 3 then answer 1 (BitVec.ofNat 64 (lunStatusOf s sp (d0.toNat % 32)))
    else if m.inCode < 0x8000 then answer 3 d0
    else
      let c : Ctx := { cls := 1, pc := s.image.mboxEntry, regs := (0 :: (List.range 15).map (fun i => Config.freeAlu (s.free + i))), parked := true }
      modSpur { s with free := s.free + 15 } sp (fun y => { y with mbox := { m with inState := 2 }, ctxs := y.ctxs.set {} 63 c }))

/-- OUT_TIMEOUT (R315): no ack has come in 100 µs: the message is withdrawn. -/
def execOutTimeout (sp : Nat) (s : State) : Host.Outcome State Fault Refusal :=
  gate s (modSpur s sp (fun y => if y.mbox.outState = 1 then { y with mbox := { y.mbox with outState := 0, outTimeout := true } } else y))

end Sys2Proof.Machine
end

