-- ==== Sys2Proof/Machine/Service.lean ====
section
/-! DEFINITION. Service of spurs and ridges (R29 to R32, R321 to R323), what a ridge does with its Ledge units before it
leaves (R206). -/

namespace Sys2Proof.Machine

/-! ### Checks of a return (R322) -/

/-- Does the engine a spur would use pass its control store check: its own, or the group's spare while ENGINE_FAULTED is 1? -/
def engineGood (s : State) (p : Nat) : Bool :=
  if od s (0x4100 + p) 0x08 = 1 then (spare s (p / 16)).csGood else (spur s p).csGood

/-- R322 for a spur, but for its ridge; 0 when it passes. -/
def spurOwnRefusal (s : State) (p : Nat) : Nat :=
  if s.image.state ≠ 2 then 0x11
  else if od s (0x4100 + p) 0x08 = 1 ∧ (spare s (p / 16)).state ≠ 0 then 0x12
  else if ¬ engineGood s p then 0x13
  else 0

/-- R322 for a spur. -/
def spurRefusal (s : State) (p : Nat) : Nat :=
  let c := spurOwnRefusal s p
  if c ≠ 0 then c else if (ridge s (p / 4)).svc ≠ .inService then 0x14 else 0

/-- A spur begins to return: its Cornice entries are invalidated (R120), new descriptors are held; channels that need it are brought up, one
whose bring-up an earlier return has not come to included (R341), with write protect low from its first step on (R342). -/
def startSpur (s : State) (p : Nat) : State :=
  let need := fun c : Chan => !(spur s p).firstDone || decide (c.state = 0) || decide (c.state = 2) || c.again || c.rediscover
  let s := (spurLuns s p).foldl invalidateLun s
  let s := modSpur (setOd s (0x4100 + p) 0x01 1) p (fun x => { x with svc := .returning, refusal := 0 })
  let f := fun c : Chan => { c with rediscover := need c, again := false, wp := c.wp && !need c }
  modChan (modChan s (2 * p) f) (2 * p + 1) f

/-- A ridge begins to return: its Cornice entries are invalidated (R120). In its first return after block reset its spurs come with it (R371). -/
def startRidge (s : State) (r : Nat) : State :=
  let first := !(ridge s r).firstDone
  let s := (s.luns.keys.filter (fun l => decide (lunRidge l = r))).foldl invalidateLun s
  let s := modRidge (setOd s (0x4010 + r) 0x01 1) r (fun x => { x with svc := .returning, refusal := 0, returnUs := s.ao.timeUs })
  if first then
    (List.range 4).foldl (fun s i =>
      let p := 4 * r + i
      if (spur s p).svc = .out ∧ od s (0x4100 + p) 0x01 = 1 ∧ spurOwnRefusal s p = 0 then startSpur s p else s) s
  else s

/-- R321, R309: every unit that is OUT with ENABLE 1 and passes its checks begins to return. -/
def svcKick (s : State) : State :=
  if s.image.state ≠ 2 then s
  else
    let s := (List.range 16).foldl (fun s r => if (ridge s r).svc = .out ∧ od s (0x4010 + r) 0x01 = 1 then startRidge s r else s) s
    (List.range 64).foldl (fun s p =>
      if (spur s p).svc = .out ∧ od s (0x4100 + p) 0x01 = 1 ∧ spurRefusal s p = 0 then startSpur s p else s) s

/-- A write of 1 to a spur's ENABLE. -/
def enableSpur (s : State) (p : Nat) : State :=
  let s := modSpur s p (fun x => { x with chosenOut := x.chosenOut && decide (x.svc = .draining) })
  match (spur s p).svc with
  | .draining => modSpur s p (fun x => { x with early := true, refusal := 0x10 })
  | .out =>
    let c := spurRefusal s p
    if c = 0 then startSpur s p else modSpur (setOd s (0x4100 + p) 0x01 0) p (fun x => { x with refusal := c })
  | .returning | .inService => setOd s (0x4100 + p) 0x01 1

/-- A spur IN starts to drain (R321); what waits for room in its classes waits for the spur from now on (R16). One that returns
turns back: no work has come to it since, and it drains with its ridge (R31). -/
def drainSpur (s : State) (p cause : Nat) : State :=
  match (spur s p).svc with
  | .inService => readyChange (holdSpur (modSpur s p (fun x => { x with svc := .draining })) p) 1 p false cause
  | .returning => modSpur s p (fun x => { x with svc := .draining })
  | _ => s

/-- A write of 0 to a spur's ENABLE: a spur IN drains. The spec gives no row for one that returns: it goes on to IN, its ENABLE 0
(log entry 22). -/
def disableSpur (s : State) (p : Nat) : State :=
  let s := modSpur (setOd s (0x4100 + p) 0x01 0) p (fun x => { x with chosenOut := true })
  if (spur s p).svc = .inService then drainSpur s p 1 else s

/-- A write of 1 to a ridge's ENABLE. -/
def enableRidge (s : State) (r : Nat) : State :=
  let s := modRidge s r (fun x => { x with chosenOut := x.chosenOut && decide (x.svc = .draining) })
  match (ridge s r).svc with
  | .draining => modRidge s r (fun x => { x with early := true, refusal := 0x10 })
  | .out =>
    if s.image.state ≠ 2 then modRidge (setOd s (0x4010 + r) 0x01 0) r (fun x => { x with refusal := 0x11 }) else startRidge s r
  | .returning | .inService => setOd s (0x4010 + r) 0x01 1

/-! ### A ridge leaves (R31, R206) -/

/-- A FAILED unit of a leaving ridge is flushed; one whose lines a key erase took holds none. Where no plane of the ridge takes a refuge
page any more nothing is programmed, and the record says so. -/
def flushFailed (s : State) (u : Nat) : State :=
  let d := unit s u
  if d.state = .opened ∧ d.failed ∧ ¬ d.keyLost ∧ ¬ d.reserved then
    toDone (flushOut (closedRecord s u (if refugePairs s (u / 232) = [] then 3 else 2)) (u / 232) [u]) u
  else s

/-- R206: the FAILED units of a ridge that drains are flushed. -/
def flushDraining (s : State) (r : Nat) : State :=
  if (ridge s r).svc = .draining then ((unitsOf s r).map (fun e => e.1)).foldl flushFailed s else s

/-- R206: the OPEN units of a ridge are committed as they stand, FAILED ones are flushed, groups are filled at once. -/
def closeRidge (s : State) (r : Nat) : State :=
  let us := (unitsOf s r).map (fun e => e.1)
  let s := us.foldl flushFailed s
  let s := us.foldl closeUnit s
  (((unitsOf s r).filter (fun e => decide (e.2.state = .committed))).map (fun e => e.1)).foldl fillGroup s

/-- A ridge IN starts to drain, its spurs with it. -/
def drainRidge (s : State) (r cause : Nat) : State :=
  if (ridge s r).svc = .inService then
    let s := closeRidge (readyChange (modRidge s r (fun x => { x with svc := .draining })) 2 r false cause) r
    (List.range 4).foldl (fun s i => drainSpur s (4 * r + i) cause) s
  else s

/-- A write of 0 to a ridge's ENABLE. -/
def disableRidge (s : State) (r : Nat) : State :=
  drainRidge (modRidge (setOd s (0x4010 + r) 0x01 0) r (fun x => { x with chosenOut := true })) r 1

/-! ### Drained (R321) -/

/-- R31, R206: does a unit of a ridge that drains still wait for its program on a spur, or for what it needs before its commit, or a refuge
program for its LUN? -/
def spurOwes (s : State) (p : Nat) : Bool :=
  (ridge s (p / 4)).refugeWait.any (fun x => decide (lunSpur x.1 = p))
    || decide ((ridge s (p / 4)).svc = .draining) && (unitsOf s (p / 4)).any (fun e => decide (lunSpur (fBlun e.2.phys) = p)
    && (decide (e.2.state = .committed) || decide (e.2.state = .programming)
      || (decide (e.2.state = .opened) && (e.2.reserved || e.2.commitDue || decide (e.2.loading ≠ 0)) && decide (e.2.pending = none))))

/-- Is nothing of a spur in use: Scree queues, contexts, die operations? -/
def spurIdle (s : State) (p : Nat) : Bool :=
  (spur s p).classes.all (fun c => decide (c.packets = [])) && decide ((spur s p).ctxs.keys = [])
    && (spurLuns s p).all (fun l => decide ((lunOf s l).busy = .idle) && decide ((lunOf s l).erases = []) && decide ((lunOf s l).suspended = none))

/-- A drained spur is OUT. -/
def spurDrained (s : State) (p : Nat) : State :=
  let s := moveManifest (modSpur s p (fun x => { x with svc := .out })) p
  svcKick (talusRefresh s (fun l => decide (lunSpur l = p)))

/-- A drained ridge is OUT, its Ledge bank with it (R31). -/
def ridgeDrained (s : State) (r : Nat) : State :=
  let was := (ridge s r).ledgeReady
  let s := modRidge s r (fun x => { x with svc := .out, ledgeReady := false })
  let s := if was then readyChange s 4 r false 1 else s
  svcKick (talusRefresh s (fun l => decide (lunRidge l = r)))

/-- DRAIN_COMPLETE (R321): a DRAINING spur has empty Scree queues and no context in use, and of a ridge that drains with it no
unit to program (R31); a DRAINING ridge has its spurs OUT
and every unit FREE. A unit whose program has failed since the draining began is flushed first, while its spur can still program (R206). -/
def execDrainComplete (isRidge : Bool) (n : Nat) (s : State) : Host.Outcome State Fault Refusal :=
  gate s (
    if isRidge then
      let s := flushDraining s n
      (if (ridge s n).svc = .draining ∧ (List.range 4).all (fun i => decide ((spur s (4 * n + i)).svc = .out)) ∧ unitsOf s n = [] then ridgeDrained s n else s)
    else if (spur s n).svc = .draining ∧ spurIdle s n then
      let s := flushDraining s (n / 4)
      (if spurOwes s n then s else spurDrained s n)
    else s)

/-! ### Rejoin (R323) -/

/-- Are the channels of a spur brought up as far as this return asks (R341)? -/
def spurBrought (s : State) (p : Nat) : Bool := !(chan s (2 * p)).rediscover && !(chan s (2 * p + 1)).rediscover

/-- The engine a returning spur takes: its own, which sets the spare it used before free, or the group's spare. -/
def takeEngine (s : State) (p : Nat) : State :=
  let g := p / 16
  if od s (0x4100 + p) 0x08 = 1 then
    modSpur (modSpare s g (fun x => { x with state := 2, spur := p, switched := true })) p (fun x => { x with onSpare := true, stopped := false })
  else
    let s := if (spur s p).onSpare ∧ (spare s g).state = 2 ∧ (spare s g).spur = p then modSpare s g (fun x => { x with state := 0, spur := 0xFF, switched := false }) else s
    modSpur s p (fun x => { x with onSpare := false, stopped := false })

/-- R323: a spur is IN. -/
def spurIn (s : State) (p : Nat) : State :=
  let s := takeEngine (talusLoad s (fun l => decide (lunSpur l = p))) p
  readyChange (modSpur s p (fun x => { x with svc := .inService, firstDone := true })) 1 p true 0

/-- A unit has become ready: descriptors held for it go on in arrival order (R30). -/
def releaseUnits (s : State) : State := releaseHeld s (fun c => decide (c = .unitNotReady))

/-- The Ledge bank of a ridge IN is ready once its memory has passed its self-test (R376). -/
def ledgeIn (s : State) (r : Nat) : State :=
  if (ridge s r).ledgeTested ∧ ¬ (ridge s r).ledgeReady then readyChange (modRidge s r (fun x => { x with ledgeReady := true })) 4 r true 0 else s

/-- R323: a ridge is IN again. -/
def ridgeIn (s : State) (r : Nat) : State :=
  let s := talusLoad s (fun l => decide (lunRidge l = r))
  ledgeIn (readyChange (modRidge s r (fun x => { x with svc := .inService })) 2 r true 0) r

/-- REJOIN_DONE (R323): the steps of a return are complete. A spur joins once its ridge is IN and its channels are up; the
first return of a ridge ends at RECOVERY_BARRIER instead (R371). -/
def execRejoinDone (isRidge : Bool) (n : Nat) (s : State) : Host.Outcome State Fault Refusal :=
  gate s (
    if isRidge then
      (if (ridge s n).svc = .returning ∧ (ridge s n).firstDone then releaseUnits (svcKick (ridgeIn s n)) else s)
    else if (spur s n).svc = .returning ∧ (ridge s (n / 4)).svc = .inService ∧ spurBrought s n ∧ ¬ (spur s n).storesBad then
      (if engineGood s n then releaseUnits (spurIn s n)
       else modSpur (setOd s (0x4100 + n) 0x01 0) n (fun x => { x with svc := .out, refusal := 0x13 }))
    else s)

/-- R321: a write to a spur's ENGINE_FAULTED: 0 lets its next return use its own engine. -/
def writeEngineFaulted (s : State) (p v : Nat) : State :=
  if v = 0 then svcKick (setOd s (0x4100 + p) 0x08 0) else s

end Sys2Proof.Machine
end

