-- ==== Sys2Proof/Machine/Image.lean ====
section
/-! DEFINITION. Loading the control store image (R300, R301, R308, R309), and data the block reads on the fabric port: write
data and fragment tables of entries (R95, R97), the image. -/

namespace Sys2Proof.Machine

/-! ### The image (R308) -/

/-- The bytes read, as one number, the first lowest. -/
def imgNat (l : List W512) : Nat := l.foldr (fun x a => x.toNat + 2 ^ 512 * a) 0

/-- n bytes of it from byte o. -/
def imgField (v o n : Nat) : Nat := v / 256 ^ o % 256 ^ n

/-- WORDS of a header. -/
def imgWords (h : W512) : Nat := bitsOf h 111 96

/-- R309 results 0x0002 to 0x0004 for the header, in the order of their codes; 0 when it passes. -/
def headerFault (s : State) (h : W512) : Nat :=
  if od s 0x4000 0x02 ≠ 2128 + 20 * imgWords h then 2
  else if bitsOf h 31 0 ≠ 0x1D157A7C ∨ bitsOf h 127 124 ≠ 1 ∨ bitsOf h 63 32 ≠ 0x128 ∨ bitsOf h 87 72 ≠ 0x0201 then 3
  else if imgWords h = 0 ∨ imgWords h > 4096 ∨ bitsOf h 123 112 ≥ imgWords h then 4
  else 0

/-- R301: is a dispatch entry as the manual asks for its opcode? -/
def dispatchGood (s : State) (n op : Nat) (d : W64) : Bool :=
  let fits := dValid d && decide (dEntry d < n)
  if op < 0x40 ∧ (opInfo s op).isSome then
    match opInfo s op with
    | some i => fits && decide (dClass d = i.cls) && (dLedger d == i.ledger)
        && (dFabric d == (decide (op = 0x01) || decide (op = 0x02) || decide (op = 0x03) || decide (op = 0x04) || decide (op = 0x08) || decide (op = 0x0B)))
    | none => false
  else if 0x40 ≤ op ∧ op ≤ 0x47 then fits
  else if op ≥ 0x80 then !dValid d || decide (dEntry d < n)
  else !dValid d

/-- The load has failed: every control store is cleared (R309). -/
def imageFail (s : State) (result cause : Nat) : State := { s with image := { state := 3, result := result, cause := cause } }

/-- Bytes read so far, and all there are to read. -/
def imageRead (s : State) : Nat := 64 * s.image.buf.length
/-- The image in whole 64-byte blocks (R426). -/
def imageSpan (s : State) : Nat := (od s 0x4000 0x02 + 63) / 64 * 64

/-- Ask for the next part of the image. -/
def imageAsk (s : State) (n : Nat) : State :=
  let a := od s 0x4000 0x01 + imageRead s
  fabIssue s false a (min n (4096 - a % 4096)) [] .image

/-- R309: a write of 1 to IMAGE_CMD. -/
def imageStart (s : State) : State :=
  if s.image.state = 1 then s
  else if s.image.state = 2 ∧ ¬ ((List.range 64).all (fun p => decide ((spur s p).svc = .out))) then
    { s with image := { s.image with result := 1, cause := 0 } }
  else if od s 0x4000 0x01 % 64 ≠ 0 then imageFail s 2 0
  else imageAsk { s with image := { state := 1 } } 64

/-- CRC-32C of the 4,096 control store words, unused ones zero (R309). -/
def storeCrc (ws : List Microword) : BitVec 32 :=
  crc32c ((ws ++ List.replicate (4096 - ws.length) 0).flatMap (fun w => bytesOf 20 w))

/-- The whole image is in: its words and dispatch table are checked, and the key port computes the tag (R309, steps 2 and
3). -/
def imageWhole (s : State) : State :=
  let v := imgNat s.image.buf
  let h := s.image.buf.headD 0
  let n := imgWords h
  let ws : List Microword := (List.range n).map (fun i => BitVec.ofNat 160 (imgField v (64 + 20 * i) 20))
  let ds : List W64 := (List.range 256).map (fun i => BitVec.ofNat 64 (imgField v (64 + 20 * n + 8 * i) 8))
  if ¬ ws.all (fun w => wordLegal w && decide (wTarget w < n)) then imageFail s 5 0
  else if ¬ ds.zipIdx.all (fun d => dispatchGood s n d.2 d.1) then imageFail s 6 0
  else if ¬ s.keyReady then imageFail s 8 2
  else
    let s := { s with image := { s.image with words := ws, dispatch := ds, nwords := n, build := bitsOf h 191 128, mboxEntry := bitsOf h 123 112,
                                              tag := BitVec.ofNat 128 (imgField v (2112 + 20 * n) 16), buf := [] } }
    keyStart s (keyJobOf .image 0 (od s 0x4000 0x03) 0 (leBytes (2112 + 20 * n) v))

/-- Part of the image has arrived. -/
def imageData (s : State) (err : Bool) (data : List W512) : State :=
  if s.image.state ≠ 1 then s
  else if err then imageFail s 7 0
  else
    let first := decide (s.image.buf = [])
    let s := { s with image := { s.image with buf := s.image.buf ++ data } }
    let c := if first then headerFault s (s.image.buf.headD 0) else 0
    if c ≠ 0 then imageFail s c 0
    else if imageRead s < imageSpan s then imageAsk s (imageSpan s - imageRead s)
    else imageWhole s

/-- IMAGE_LOAD_COMPLETE (R309, step 4): the key port has answered; the tag is compared. With it spurs begin to return. -/
def execImageLoadComplete (s : State) : Host.Outcome State Fault Refusal :=
  gate s (match s.image.answer with
    | none => s
    | some (c, bytes) =>
      if s.image.state ≠ 1 then s
      else if c ≠ 0 then imageFail s 8 c
      else if bytes ≠ bytesOf 16 s.image.tag then imageFail s 9 0
      else
        let s := { s with image := { s.image with state := 2, result := 0, cause := 0, answer := none, crc := storeCrc s.image.words },
                          spurs := s.spurs.mapVals {} (fun x => { x with csGood := true }),
                          spares := s.spares.mapVals {} (fun x => { x with csGood := true }) }
        svcKick s)

/-! ### READ_DATA (R97, R95) -/

/-- A data read of an entry has ended in an error: what it was to fill goes (R97). -/
def writeDataFail (s : State) (q i addr : Nat) : State :=
  let s := dataFail s q i addr
  match entOf s q i with
  | none => s
  | some x =>
    if eOpcode x.raw = 0x08 then
      let u := unitKey (eUnit x.raw)
      let d := unit s u
      let s := dropWriter s u q i
      let s := if d.writers.contains (q, i) then refundGranule s u (writePlane x.raw d) else s
      settle (modEnt s q i (fun e => { e with left := 0 })) q i
    else
      match s.units.entries.find? (fun e => decide (e.2.commit = some (q, i))) with
      | some (u, _) => pageLoaded (modUnit s u (fun d => { d with loading := 0 })) u
      | none => s

/-- Write data of an entry has arrived. -/
def writeData (s : State) (q i addr : Nat) (err : Bool) (data : List W512) : State :=
  let s := modEnt s q i (fun e => { e with io := e.io - 1 })
  if err then writeDataFail s q i addr
  else
    let s := modEnt s q i (fun e => if e.fin = none then { e with data := e.data ++ data } else e)
    match entOf s q i with
    | none => s
    | some x =>
      if x.fin ≠ none then s
      else if 64 * x.data.length < xferLen x.raw then askData s q x
      else if eOpcode x.raw = 0x0B then
        (match s.units.entries.find? (fun e => decide (e.2.commit = some (q, i))) with
          | some (u, _) => pageLoaded s u
          | none => s)
      else s

/-- A fragment table, or part of it, has arrived (R95, R112): the Gate goes on with the entry. -/
def fragData (s : State) (q i : Nat) (err : Bool) (data : List W512) : State :=
  let n := (queue s q).ents.length
  if err then refuseLoop (refuseEntry s q i (badEntry 0x0B 16) 0) q n
  else
    let s := modEnt s q i (fun e => { e with data := e.data ++ data })
    match entOf s q i with
    | none => s
    | some x =>
      let span := ((eAddr x.raw + 16 * eFrag x.raw + 63) / 64 - eAddr x.raw / 64) * 64
      if 64 * x.data.length < span then askFrags s q x
      else match fragCheck x.raw x.data with
        | .error st => refuseLoop (refuseEntry s q i st 0) q n
        | .ok l => refuseLoop (modEnt s q i (fun e => { e with frags := some l, data := [] })) q n

/-- READ_DATA (R97): a response to a read of write data, of a fragment table or of the image. -/
def execReadData (tag : Nat) (err : Bool) (data : List W512) (s : State) : Host.Outcome State Fault Refusal :=
  gate s (match reqOf s tag with
    | none => lateTag s
    | some r => match r.purpose with
      | .wdata q i => writeData (fabTake s r err) q i r.addr err data
      | .frag q i => fragData (fabTake s r err) q i err data
      | .image => imageData (fabTake s r err) err data
      | .stale => fabTake s r err
      | _ => s)

end Sys2Proof.Machine
end

