-- ==== Sys2Proof/Machine/Bringup.lean ====
section
/-! DEFINITION. Die bring-up and training of the channels (R325 to R327, R335, R341 to R347, R352). -/

namespace Sys2Proof.Machine

/-! ### Acceptance (R335, R343) -/

/-- R335: the profile of a die, if any matches. -/
def profileOf (s : State) (id : W64) : Option Nat :=
  (List.range 8).find? (fun i =>
    let m := BitVec.ofNat 64 (od s (0x4320 + i) 0x03)
    decide (od s (0x4320 + i) 0x01 = 1) && decide (id &&& m = BitVec.ofNat 64 (od s (0x4320 + i) 0x02) &&& m))

/-- R325: does an interface allow a bin? -/
def ifaceBin (i b : Nat) : Bool :=
  if i = 1 then decide (b ≤ 2) else if i = 2 then decide (2 ≤ b) && decide (b ≤ 7) else decide (i = 3) && decide (b ≤ 7)

/-- EXCLUDE of a channel. -/
def excluded (s : State) (c lun : Nat) : Bool := (od s (0x4400 + c) 0x04).testBit lun
/-- Are both LUNs of the CE excluded, so that it is not even reset? -/
def ceExcluded (s : State) (c lun : Nat) : Bool := excluded s c (lun / 2 * 2) && excluded s c (lun / 2 * 2 + 1)

/-- R343: the first reason that refuses a die, but for training; 0 when none does. One that did not answer counts only as excluded. chif is the channel's interface, 0 while
it is still to be chosen. -/
def dieReason (s : State) (c chif : Nat) (d : DieReport) : Nat :=
  if ceExcluded s c d.lun ∨ ¬ d.answered then 0x08
  else if ¬ d.paramOk then 0x01
  else if ¬ (List.range 8).any (fun b => d.bins.testBit b && ifaceBin d.iface b) then 0x02
  else if chif ≠ 0 ∧ d.iface ≠ chif then 0x03
  else if d.physPage < 18248 ∨ d.physPage > 24576 then 0x04
  else if d.planes = 0 ∨ d.blocks < 64 ∨ d.blocks > 32768 ∨ d.pages > 16384 ∨ d.pages % d.bits ≠ 0 ∨ ¬ (d.bits = 1 ∨ d.bits = 3 ∨ d.bits = 4) then 0x05
  else if ¬ d.required then 0x06
  else if d.bits ≥ 3 ∧ (profileOf s d.id).all (fun i => decide (od s (0x4320 + i) 0x04 % 256 = 0)) then 0x07
  else if excluded s c d.lun then 0x08
  else if d.lun % 2 = 1 ∧ ¬ (d.enhanced ∧ d.resets) then 0x0A
  else 0

/-- R352: the geometry word of a die with a reason: what a refused one declared, the planes used of an accepted one. -/
def geometryOf (s : State) (d : DieReport) (reason : Nat) : W64 :=
  let prof := profileOf s d.id
  let fields := if d.paramOk then
      place 64 53 (((if reason = 0 then min d.planes 6 else d.planes) - 1) % 8) ||| place 64 52 (if prof.isSome then 1 else 0) ||| place 64 49 (prof.getD 0 % 8)
        ||| place 64 34 ((d.blocks - 1) % 32768) ||| place 64 20 ((d.pages - 1) % 16384) ||| place 64 17 (d.bits % 8)
        ||| place 64 16 (if d.lunFeatures then 1 else 0) ||| place 64 0 (d.physPage % 65536)
    else 0
  place 64 63 (if reason = 0 then 1 else 0) ||| place 64 62 (if reason = 0 then 0 else 1) ||| place 64 56 (reason % 64) ||| fields

/-- R352: the times of a die; those of suspension come from its profile. -/
def times0Of (d : DieReport) : W64 :=
  place 64 48 (d.tBers % 65536) ||| place 64 32 (d.tProg % 65536) ||| place 64 16 (d.tR % 65536) ||| place 64 0 (d.tCcs % 65536)
/-- An entry of the profile a die takes; 0 without one. -/
def profileEntry (s : State) (d : DieReport) (sub : Nat) : Nat := (profileOf s d.id).elim 0 (fun i => od s (0x4320 + i) sub)

/-- LUN_TIMES1: the suspend time of erases (0) or programs (1) shows 0 where the profile lacks one of the pair's bytes (R336). -/
def times1Of (s : State) (d : DieReport) : W64 :=
  let c := profileEntry s d 0x04
  let time := fun (k : Nat) =>
    if c / 256 ^ (2 + 2 * k) % 256 = 0 ∨ c / 256 ^ (3 + 2 * k) % 256 = 0 then 0 else profileEntry s d 0x05 / 65536 ^ k % 65536
  place 64 32 (d.tFeat % 65536) ||| place 64 16 (time 1) ||| place 64 0 (time 0)

/-! ### Bins and training (R327, R345) -/

/-- Did a CE pass full training at a bin: 22 taps on every bit and a verification that matches? -/
def trains (eyes : List EyeReport) (ce b : Nat) : Bool :=
  eyes.any (fun e => decide (e.ce = ce) && decide (e.bin = b) && decide (e.eye ≥ 22) && e.verified)

/-- The bins a channel may use, highest first. -/
def eligibleBins (s : State) (i top : Nat) (dies : List DieReport) : List Nat :=
  [7, 6, 5, 4, 3, 2, 1, 0].filter (fun b => decide (b ≤ top) && decide (b ≤ od s 0x4300 0x01) && ifaceBin i b && dies.all (fun d => d.bins.testBit b))

/-- The CEs of some dies. -/
def cesOf (dies : List DieReport) : List Nat := (dies.map (fun d => d.lun / 2)).eraseDups

/-- The narrowest eye over some CEs at a bin. -/
def eyeMin (eyes : List EyeReport) (ces : List Nat) (b : Nat) : Nat :=
  ((eyes.filter (fun e => decide (e.bin = b) && ces.contains e.ce)).map (fun e => e.eye)).foldl min 65535

/-! ### BRINGUP_DONE (R342) -/

/-- Record a LUN that answered, accepted or refused. -/
def noteLun (c : Nat) (s : State) (x : DieReport × Nat) : State :=
  let d := x.1
  let l := c * 16 + d.lun
  let g := geometryOf s d x.2
  let s := modLun s l (fun y =>
    { y with geom := g, times0 := times0Of d, times1 := times1Of s d, id := d.id, dieOptions := d.dieOptions,
             multiRead := d.multiRead, multiProgram := d.multiProgram, multiErase := d.multiErase, readDq := d.readDq, writeDq := d.writeDq, zq := d.zq, dutyCycle := d.dutyCycle, enhanced := d.enhanced, resets := d.resets, bins := d.bins,
             row := d.row, barred := d.barred, anyBlocks := d.anyBlocks,
             commands := profileEntry s d 0x04, offsets := profileEntry s d 0x06 })
  cairn s 0x48 (cu 12 l) 0xFFFF x.2 (mkFpaB false l 0 0 0 0) 0 g.toNat 0

/-- R453: training to a bin has set the channel's driver impedance and terminations. Which of the values it settles on the spec leaves
to training, and which values a die declares is the die's: both are free. What is asked of the dies is off at bins 0 and 1. -/
def setAnalog (s : State) (c b : Nat) : State :=
  modChan { s with free := s.free + 3 } c (fun x =>
    { x with driver := [25, 35, 50].getD (Config.freePick s.free % 3) 25
             term := [50, 75, 100, 150, 0].getD (Config.freePick (s.free + 1) % 5) 0
             dieTerm := if b ≤ 1 then 0 else Config.freePick (s.free + 2) })

/-- R345: the cycles of the full training of a CE, from what its dies declare (R330): duty-cycle, read and write training, and the read-back
of the pattern. What they carry beside their command byte the spec does not give. Without READ DQ TRAINING the read timing is trained
on READ ID data. PRESUMED (log entry 24): duty-cycle training is ONFI's, by feature address 20h, with a value t that is free. DESIGN CHOICE
(log entry 24): the READ ID is that of address 00h, and the pattern is read back by the command that trains. -/
def trainCycles (c ce t : Nat) (zq duty readDq writeDq : Bool) : List BusCyc :=
  let l := c * 16 + 2 * ce
  let reads : List BusCyc := if readDq then [.cmd 0x62] else [.cmd 0x90, .addr 0x00]
  [.ce (mkFpaB false l 0 0 0 0)] ++ (if zq then [.cmd 0xF9] else []) ++ (if duty then setFeature l true 0x20 t else [])
    ++ reads ++ (if writeDq then [.cmd 0x63, .cmd 0x64] else [])
    ++ (if writeDq then [.cmd 0x64] else reads)

/-- R345: full training of a channel's CEs stores one set of delays for each, by which they have not moved yet; the next tracking pass
counts from here (R346). Where the taps settle is free. -/
def noteTrained (s : State) (c : Nat) (ces : List Nat) : State :=
  let t := signed 16 (od s (0x7210 + c / 8) 0x01)
  modChan { s with free := s.free + 64 * ces.length } c (fun x =>
    { x with trained := ces.zipIdx.map (fun y => (y.1, s.free + 64 * y.2)), delays := { entries := [] }, untrained := false,
             trackUs := ces.foldl (fun m ce => m.set 0 ce s.ao.timeUs) { entries := [] },
             trackTemps := ces.foldl (fun m ce => m.set 0 ce t) { entries := [] } })

/-- R342: the cycles of a bring-up: steps 1 to 3 on every CE that EXCLUDE leaves, steps 5 and 6 on those with an accepted LUN. The timing
mode SET FEATURES writes is at feature address 01h (PRESUMED: ONFI's); its value, by interface and bin, the spec does not give: t. DEDUCED
(log entry 24): the polls of step 1 are READ STATUS, 70h, since no die has declared READ STATUS ENHANCED yet. -/
def bringUpCycles (s : State) (c : Nat) (dies ok : List DieReport) (t u : Nat) : List BusCyc :=
  let ces := (List.range 8).filter (fun ce => !ceExcluded s c (2 * ce))
  let sel := fun ce : Nat => BusCyc.ce (mkFpaB false (c * 16 + 2 * ce) 0 0 0 0)
  let there := fun ce : Nat => dies.any (fun d => decide (d.lun / 2 = ce) && d.answered)
  let of := fun (ce : Nat) (g : DieReport → Bool) => ok.any (fun d => decide (d.lun / 2 = ce) && g d)
  ces.flatMap (fun ce => [sel ce, .cmd 0xFF, .cmd 0x70, .stat (mkFpaB false (c * 16 + 2 * ce) 0 0 0 0)])
    ++ ces.flatMap (fun ce => [sel ce, .cmd 0x90, .addr 0x20, .cmd 0x90, .addr 0x40])
    ++ (ces.filter there).flatMap (fun ce =>
        [sel ce, .cmd 0x90, .addr 0x00, .cmd 0xEC, .addr (if dies.any (fun d => decide (d.lun / 2 = ce) && decide (d.iface = 3)) then 0x40 else 0x00)])
    ++ (cesOf ok).flatMap (fun ce => sel ce :: setFeature (c * 16 + 2 * ce) true 0x01 t)
    ++ (cesOf ok).flatMap (fun ce => trainCycles c ce u (of ce (fun d => d.zq)) (of ce (fun d => d.dutyCycle)) (of ce (fun d => d.readDq)) (of ce (fun d => d.writeDq)))

/-- BRINGUP_DONE (R342): a channel's bring-up ends with what its dies declared and how training went. DESIGN CHOICE (log entry 24): of
several refused LUNs the last one, for LAST_REASON, is the last in the order of the reports, excluded LUNs that report nothing after
them; and a bring-up that refuses none leaves LAST_REASON as it was. The spec settles neither. -/
def bringUp (s : State) (c : Nat) (dies : List DieReport) (eyes : List EyeReport) : State :=
  let found := dies.filter (fun d => d.answered || excluded s c d.lun)
  let hidden := (List.range 16).filter (fun k => excluded s c k && !found.any (fun d => decide (d.lun = k)))
  let seen := found ++ hidden.map (fun k => ({ lun := k } : DieReport))
  let firstPass := seen.filter (fun d => decide (dieReason s c 0 d = 0))
  let chif := (firstPass.foldl (fun (b : Option DieReport) d => match b with
    | none => some d
    | some e => if d.lun / 2 < e.lun / 2 then some d else b) none).elim 0 (fun d => d.iface)
  let judged := seen.map (fun d => (d, dieReason s c chif d))
  let ok := (judged.filter (fun x => decide (x.2 = 0))).map (fun x => x.1)
  let bins := eligibleBins s chif 7 ok
  let dead := (cesOf ok).filter (fun ce => !bins.any (fun b => trains eyes ce b))
  let live := ok.filter (fun d => !dead.contains (d.lun / 2))
  let bin := if live = [] then none else (eligibleBins s chif 7 live).find? (fun b => (cesOf live).all (fun ce => trains eyes ce b))
  -- LUN 1 of a CE that trains at no bin is refused for that before RESET LUN counts (R343)
  let judged := judged.map (fun x =>
    if (x.2 = 0 ∧ (dead.contains (x.1.lun / 2) ∨ bin.isNone)) ∨ (x.2 = 0x0A ∧ (dead.contains (x.1.lun / 2) ∨ (bin.isNone ∧ (cesOf ok).contains (x.1.lun / 2))))
    then (x.1, 0x09) else x)
  let bits := fun (p : Nat → Bool) => (judged.filter (fun x => p x.2)).foldl (fun a x => a + 2 ^ x.1.lun) 0
  let st := if ok = [] then 3 else if live = [] ∨ bin.isNone then 2 else 1
  let s := (List.range 16).foldl (fun s i => modLun s (c * 16 + i) (fun y =>
    { y with geom := 0, times0 := 0, times1 := 0, id := 0, dieOptions := 0, multiRead := false, multiProgram := false, multiErase := false, readDq := false,
             writeDq := false, zq := false, dutyCycle := false, enhanced := false, resets := false, bins := 0, row := {}, commands := 0, offsets := 0 })) s
  let s := judged.foldl (noteLun c) s
  let b := bin.getD 0
  let s := modChan s c (fun x =>
    { x with state := st, bin := b, iface := chif, found := bits (fun r => decide (r = 0)), refused := bits (fun r => decide (r ≠ 0)),
             lastReason := ((judged.filter (fun x => decide (x.2 ≠ 0))).getLast?).elim x.lastReason (fun x => x.2), rediscover := false, wp := decide (st = 1),
             delays := { entries := [] }, trained := [], untrained := false, lost := false })
  let s := bus { s with free := s.free + 2 } (c * 16) (bringUpCycles s c seen ok (Config.freePick s.free) (Config.freePick (s.free + 1)))
  let s := if st = 1 then noteTrained (setAnalog s c b) c (cesOf live) else s
  if ok = [] then s
  else
    let e := eyeMin eyes (cesOf live) b
    let s := count (setOd s (0x4400 + c) 0x06 (if st = 1 then e else 0)) (0x4400 + c) 0x07
    cairn s 0x49 (cu 8 c) 0xFFFF (b * 16 + (if st = 1 then 0 else 2)) 0 (if st = 1 then e else 0) 0 0

/-- BRINGUP_DONE (R342): only a returning spur's channel that asks for it is brought up. -/
def execBringupDone (c : Nat) (dies : List DieReport) (eyes : List EyeReport) (s : State) : Host.Outcome State Fault Refusal :=
  gate s (if (spur s (c / 2)).svc = .returning ∧ (chan s c).rediscover then bringUp s c dies eyes else s)

/-- A write of 1 to REDISCOVER (R341): full bring-up at the spur's next return. -/
def rediscoverChan (s : State) (c : Nat) : State := modChan s c (fun x => { x with again := true })

/-! ### Tracking and loss (R346, R347) -/

/-- R347: training is lost on a channel: its phases stop, its Cornice entries are invalid. -/
def trainingLost (s : State) (c : Nat) : State :=
  let s := invalidateLuns s ((List.range 16).map (fun i => c * 16 + i))
  modChan (count s (0x4400 + c) 0x08) c (fun x => { x with lost := true })

/-- A pass is three bursts: at most three moves of a bit count. -/
def passMoves (bursts : List TrackBurst) : List TrackBurst :=
  (bursts.zipIdx.filter (fun x => decide (((bursts.take x.2).filter (fun b => decide (b.bit % 64 = x.1.bit % 64))).length < 3))).map (fun x => x.1)

/-- One bit's move toward the better side. -/
def trackBit (ce : Nat) (x : Chan) (b : TrackBurst) : Chan :=
  let k := ce * 64 + b.bit % 64
  let v := x.delays.get 0 k
  { x with delays := x.delays.set 0 k (if b.toward = 1 then v + 1 else if b.toward = 2 then v - 1 else v) }

/-- R346: is a CE tracked now: dies are found behind it, which do READ DQ TRAINING (R330), no data goes to or from it, its PHY is not off? -/
def tracked (s : State) (c ce : Nat) : Bool :=
  let y := port s (c / 2) (c % 2)
  let l := c * 16 + 2 * ce
  let datain := match y.seg with
    | some (u, .dataIn, _) => y.waiting.any (fun ph => decide (ph.kind = .dataIn) && decide (ph.ctx = u) && decide (ph.lun / 2 = l / 2))
    | _ => false
  let found := (foundLuns s).filter (fun k => decide (k / 2 = l / 2))
  decide (found ≠ []) && found.all (fun k => (lunOf s k).readDq) && !ceBusy y l && !datain
    && decide ((ridge s (c / 8)).pstate ≤ 1)

/-- R346: has TRACK_MS passed, or the junction temperature moved by TRACK_TEMP, since a CE's last pass? -/
def trackDue (s : State) (c ce : Nat) : Bool :=
  let x := chan s c
  decide (x.trackUs.get 0 ce + 1000 * od s 0x4300 0x03 ≤ s.ao.timeUs)
    || decide ((signed 16 (od s (0x7210 + c / 8) 0x01) - x.trackTemps.get 0 ce).natAbs ≥ od s 0x4300 0x04)

/-- The three bursts of a pass on the bus, each a phase of class 3 (R346). -/
def trackBus (s : State) (c ce : Nat) : State :=
  let l := c * 16 + 2 * ce
  let burst := fun s : State => bus (tookTurn s l 3) l [.ce (mkFpaB false l 0 0 0 0), .cmd 0x62]
  burst (burst (burst s))

/-- TRACKING_PASS (R346): a pass that is due, on a CE with no data transfer in progress, takes its turn on the port and moves the CE's
delays by at most one tap a burst; a centre burst that fails, or a bit moved too far, loses the training (R347). -/
def execTrackingPass (c ce : Nat) (bursts : List TrackBurst) (s : State) : Host.Outcome State Fault Refusal :=
  gate s (
    let l := c * 16 + 2 * (ce % 8)
    if (chan s c).state ≠ 1 ∨ ¬ tracked s c (ce % 8) ∨ ¬ trackDue s c (ce % 8) ∨ ¬ portTurn s l 3 (s.turns + 1) then s
    else
      let t := signed 16 (od s (0x7210 + c / 8) 0x01)
      let noted := fun x : Chan => { x with trackUs := x.trackUs.set 0 (ce % 8) s.ao.timeUs, trackTemps := x.trackTemps.set 0 (ce % 8) t }
      let s := modChan (trackBus s c (ce % 8)) c (fun x => noted ((passMoves bursts).foldl (trackBit (ce % 8)) x))
      let far := (chan s c).delays.entries.any (fun d => decide (d.1 / 64 = ce % 8) && decide (d.2.natAbs > od s 0x4300 0x0A))
      if far ∨ bursts.any (fun b => !b.centre) then trainingLost s c else s)

/-- The dies of a channel as training sees them: the CEs with a LUN found. -/
def foundCes (s : State) (c : Nat) : List Nat := (((foundLuns s).filter (fun l => decide (l / 16 = c))).map (fun l => l % 16 / 2)).eraseDups

/-- R347: work of a channel starts again: ladders from the start, with step 0 restored (R299), reads by an array read, data-in from the
start after RESET LUN. -/
def channelRestart (s : State) (c : Nat) : State :=
  let p := c / 2
  let s := ((List.range 16).map (fun i => c * 16 + i)).foldl (fun s l => programAgain (ladderAgain s l) l true) s
  let mine := (spur s p).ctxs.entries.filter (fun e => decide (e.1 ≠ 63) && !isLiteral e.2 e.1 && decide (e.2.lun / 16 = c))
  mine.foldl (fun s e => replayCtx p s e.1) s

/-- R347: the committed units of a channel whose programs have not begun end DIE_FAIL with cause 3; their groups' fills go. -/
def failWaiting (s : State) (c : Nat) (st : Status) : State :=
  let r := c / 8
  let us := ((unitsOf s r).filter (fun e => decide (e.2.state = .committed) && decide (fBlun e.2.phys / 16 = c))).map (fun e => e.1)
  let s := modRidge s r (fun x => { x with fills := x.fills.filter (fun d => !(decide (d.state = .committed) && decide (fBlun d.phys / 16 = c))) })
  us.foldl (unitProgrammed ((List.range 6).map (fun k => (k, 0))) (some st)) s

/-- R347: no bin passes: the channel is FAILED, its work ends DIE_FAIL with cause 3, its spur drains (R32). -/
def channelFailed (s : State) (c : Nat) : State :=
  let p := c / 2
  let st : Status := ⟨0x33, c % 2 * 256 + 3, 0⟩
  let s := modChan s c (fun x => { x with state := 2, lastReason := 0x09, lost := false, untrained := false, trained := [], found := 0, wp := false })
  let s := ((foundLuns s).filter (fun l => decide (l / 16 = c))).foldl (fun s l =>
    if (lunOf s l).busy = .idle ∧ (lunOf s l).suspended = none then s else dieFail s l 3) s
  let cs := ((spur s p).ctxs.entries.filter (fun e => decide (e.1 ≠ 63) && decide (e.2.lun / 16 = c))).map (fun e => e.1)
  let s := cs.foldl (fun s k => if ctxUsed s p k then failDesc s p k st else s) s
  let left := ((spur s p).classes.map (fun k => k.packets.filter (fun x => decide (fChan x.2.2.phys = c)))).flatten
  let s := modSpur s p (fun x => { x with classes := x.classes.map (fun k =>
    let keep := k.packets.filter (fun y => decide (fChan y.2.2.phys ≠ c))
    let n := keep.foldl (fun a y => a + y.1) 0
    { k with packets := keep, w := (k.p + k.unread + n) % 512, c := (k.p + k.unread + n) % 512 }) })
  let s := left.foldl (fun s x => reportDesc s x.2.2 st) s
  let s := failWaiting s c st
  let s := ((foundLuns s).filter (fun l => decide (l / 16 = c))).foldl (fun s l =>
    modLun s l (fun x => { x with geom := x.geom &&& ~~~ (place 64 63 1), erases := [], ladder := none })) s
  drainSpur (setOd s (0x4100 + p) 0x01 0) p 3

/-- R327: the bins a channel may go down to: at or below its own, allowed, and declared by every LUN in use. -/
def lowerBins (s : State) (c : Nat) : List Nat :=
  let x := chan s c
  [7, 6, 5, 4, 3, 2, 1, 0].filter (fun b => decide (b ≤ x.bin) && decide (b ≤ od s 0x4300 0x01) && ifaceBin x.iface b
    && ((foundLuns s).filter (fun l => decide (l / 16 = c))).all (fun l => (lunOf s l).bins.testBit b))

/-- The cycles of the full training of every CE of a channel (R345). -/
def trainBus (s : State) (c : Nat) : State :=
  bus { s with free := s.free + 1 } (c * 16) ((foundCes s c).flatMap (fun ce =>
    let l := c * 16 + 2 * ce
    let has := fun g : Lun → Bool => g (lunOf s l) || g (lunOf s (l + 1))
    trainCycles c ce (Config.freePick s.free) (has (fun x => x.zq)) (has (fun x => x.dutyCycle)) (has (fun x => x.readDq)) (has (fun x => x.writeDq))))

/-- FULL_TRAINING_DONE (R345, R347): full training of a channel has run, after a loss or on a ridge's way out of Dormant: the
highest bin from the current one down at which every CE passes, or none. -/
def execFullTrainingDone (c : Nat) (eyes : List EyeReport) (s : State) : Host.Outcome State Fault Refusal :=
  gate s (
    let x := chan s c
    if x.state ≠ 1 ∨ ¬ (x.lost ∨ (x.untrained ∧ ((ridge s (c / 8)).waking ∨ (ridge s (c / 8)).pstate ≠ 3))) then s
    else
      let was := x.lost
      let s := trainBus s c
      let s := if !was && !(foundCes s c).all (fun ce => trains eyes ce x.bin) then trainingLost s c else s
      let kind := if (chan s c).lost then 1 else 0
      match (lowerBins s c).find? (fun b => (foundCes s c).all (fun ce => trains eyes ce b)) with
      | some b =>
        let e := eyeMin eyes (foundCes s c) b
        let s := count (setOd s (0x4400 + c) 0x06 e) (0x4400 + c) 0x07
        let s := noteTrained (setAnalog (modChan s c (fun x => { x with bin := b, lost := false })) c b) c (foundCes s c)
        let s := cairn s 0x49 (cu 8 c) 0xFFFF (b * 16 + kind) 0 e 0 0
        if kind = 1 then channelRestart s c else s
      | none => cairn (count (setOd (channelFailed s c) (0x4400 + c) 0x06 0) (0x4400 + c) 0x07) 0x49 (cu 8 c) 0xFFFF 2 0 0 0 0)

end Sys2Proof.Machine
end

