-- ==== Sys2Proof/Machine/Refuge.lean ====
section
/-! DEFINITION. The refuge: its record pages (R360 to R364), what a closing ridge writes (R365, R369). -/

namespace Sys2Proof.Machine

/-! ### Record pages (R362) -/

/-- Does a page carry a good refuge record: a valid header, a KIND and a good CHECK (R362)? -/
def recordGood (x : RefugePage) : Bool :=
  (decodeHeader x.header).isSome && decide (0x21 ≤ bitsOf x.record 7 0) && decide (bitsOf x.record 7 0 ≤ 0x26) && decide (recordCheck x.record x.payload = bitsOf x.record 511 480)

/-- The entries of a record page, as numbers of n bytes. -/
def recordEntries (x : RefugePage) : List Nat :=
  let n := entryBytes (bitsOf x.record 7 0)
  let l := lineBytesOf x.payload
  (List.range (bitsOf x.record 95 80)).map (fun i => natOfBytes ((l.drop (n * i)).take n))

/-! ### Entries -/

/-- A TRAVERSE entry. -/
def traverseEntry (word : W64) (l reg first last : Nat) : Nat :=
  word.toNat + l % 65536 * 2 ^ 64 + reg % 256 * 2 ^ 80 + first % 65536 * 2 ^ 88 + last % 65536 * 2 ^ 104

/-- TRAVERSE entries (R51): the state of the ridge's LUNs in every region with Traverse on; a running move's state is that
before the move. -/
def traverseEntries (s : State) (r : Nat) : List Nat :=
  (s.tv.entries.filter (fun e => decide (e.1 % 2048 / 128 = r) && traverseOn s (e.1 / 2048) && !e.2.unset)).map (fun e =>
    traverseEntry (BitVec.ofNat 64 (({ e.2 with moving := false } : Tv).word)) (e.1 % 2048) (e.1 / 2048) (rOd s (e.1 / 2048) 0x03) (rOd s (e.1 / 2048) 0x04))

/-- R175: ENTRY of a poison map entry. -/
def poisonWord (e : Pois) : Nat := (if e.used then (fSetLine e.fpa 0).toNat / 4096 * 4096 + e.source % 8 * 2 + 1 else 0)

/-- POISON entries: the ridge's poison map. -/
def poisonEntries (s : State) (r : Nat) : List Nat :=
  ((ridge s r).poison.entries.filter (fun e => e.2.used)).map (fun e => poisonWord e.2 + e.2.mask.toNat * 2 ^ 64)

/-- R363: the UNITS entry of a flushed unit. -/
def unitsEntry (s : State) (u : Nat) : BitVec 256 :=
  let d := unit s u
  let kcv := match d.key.bind (material s) with
    | some m => keyKcv m
    | none => 0
  place 256 0 (handleOf s u).toNat ||| place 256 32 (fSetLine d.target 0).toNat
    ||| place 256 96 (d.base.elim 0 (fun b => b.toNat)) ||| (if d.key.isSome then place 256 160 (kcv % 2 ^ 32) ||| place 256 192 ((d.key.getD (0, 0)).1 % 1024) else 0)
    ||| place 256 208 d.state.code ||| place 256 216 (if d.failed then 1 else 0)
    ||| place 256 217 (if d.kind = .host then 0 else 1)
    ||| place 256 218 (if d.key.isSome then 1 else 0) ||| place 256 219 (if d.base.isSome then 1 else 0)
    ||| place 256 224 (d.planesM1 % 256) ||| place 256 232 (d.region % 256) ||| place 256 240 (linesWritten d % 65536)

/-- The units a closing flushes: OPEN, FAILED ones included and KEY_LOST ones excepted, and COMMITTED (R204, R365). -/
def flushUnits (s : State) (r : Nat) : List Nat :=
  ((unitsOf s r).filter (fun e => (decide (e.2.state = .opened) && !e.2.keyLost && !e.2.reserved) || decide (e.2.state = .committed))).map (fun e => e.1)

/-- R364, R365 steps 5 and 6: granules are flushed, then the TRAVERSE, POISON, UNITS and CLOSING records; write protect goes
low on the ridge's channels, but in an orderly shutdown, which has only step 5 (R328, R369). -/
def closeRefuge (s : State) (r : Nat) (clean orderly : Bool) : State :=
  let us := flushUnits s r
  let n := us.foldl (fun a u => a + (unit s u).planesM1 + 1) 0
  let es := us.map (fun u => unitsEntry s u)
  let s := flushOut (modRidge s r (fun x => { x with flushed := n })) r us
  let s := writeRecords r 0x23 false false 64 s (traverseEntries s r)
  let s := writeRecords r 0x24 false false 8 s (poisonEntries s r)
  let s := writeRecords r 0x25 false false 8 s (es.map (fun e => e.toNat))
  let s := writeRecords r 0x26 clean orderly 1 s []
  let s := if clean then s else (List.range 8).foldl (fun s i => modChan s (8 * r + i) (fun c => { c with wp := false })) s
  modRidge s r (fun x => { x with closed := true, step := 6 })

/-- R367: a ridge whose spurs are all OUT cannot flush: a record names each unit it loses. -/
def loseUnits (s : State) (r : Nat) : State :=
  modRidge ((flushUnits s r).foldl (fun s u => closedRecord s u 3) s) r (fun x => { x with closed := true })

end Sys2Proof.Machine
end

