-- ==== Sys2Proof/Machine/Rail.lean ====
section
/-! DEFINITION. The rail watch and its states (R353, R354), the power-fail sequence and the orderly shutdown (R365 to R369),
the grants of the ledger (R26, R357, R358), and the power states of ridges (R19, R377 to R379). -/

namespace Sys2Proof.Machine

/-! ### Samples -/

/-- The counter of a ridge's power state (R383). -/
def countIdle (s : State) (r : Nat) : State :=
  match (ridge s r).pstate with
  | 1 => count s (0x7140 + r) 0x06
  | 2 => count s (0x7140 + r) 0x07
  | 3 => count s (0x7140 + r) 0x08
  | _ => s

/-- The counter of the time a sensor has throttled (R460). -/
def countHot (s : State) (n : Nat) : State := if (s.sensors.get {} n).level ≥ 1 then count s (0x7210 + n) 0x04 else s

/-- One microsecond of the counters that measure time: power states and throttling. -/
def countTime (s : State) : State := (List.range 17).foldl countHot ((List.range 16).foldl countIdle s)

/-- The runs of good and of low filtered samples (R354); with fewer than three samples there is no filtered rail. A run of
1,000 good samples stops counting. -/
def railRuns (s : State) : State :=
  if s.ao.samples.length < 3 then s
  else
    let v := railMv s
    let s := if v < od s 0x7000 0x02 then setOd s 0x7000 0x02 v else s
    modAo s (fun a => { a with
      goodRun := if v ≥ od s 0x7000 0x03 then (if a.goodRun ≥ 1000 then a.goodRun else a.goodRun + 1) else 0
      warnRun := if v < od s 0x7000 0x04 then a.warnRun + 1 else 0 })

/-- R354: a filtered rail above code 4,000 raises event 8 at most once per millisecond. -/
def railAbove (s : State) : State :=
  if railMv s > 20000 ∧ (s.ao.overRange.all (fun t => decide (t + 1000 ≤ s.ao.timeUs))) then
    modAo (railNotice s 8 (demand s)) (fun a => { a with overRange := some a.timeUs })
  else s

/-- Tags a timeout set aside come free as their time passes (R428). -/
def tagsFreed (s : State) : State :=
  let gone := s.fab.quarantine.filter (fun e => decide (e.2 ≤ s.ao.timeUs))
  if gone = [] then s
  else
    gone.foldl (fun s _ => fabDrain s)
      { s with fab := { s.fab with quarantine := s.fab.quarantine.filter (fun e => decide (s.ao.timeUs < e.2)) } }

/-- R391: every Crestline request received before the last microsecond began has been answered. -/
def answersSent (s : State) : State := { s with crest := { s.crest with askedOld := s.crest.asked, asked := 0 } }

/-- RAIL_SAMPLE (R353): the rail is sampled; a microsecond of block time has passed. In always-on reset nothing happens. -/
def execRailSample (code : Nat) (s : State) : Host.Outcome State Fault Refusal :=
  .next (if s.ao.inAoReset then s
    else
      let s := modAo s (fun a => { a with timeUs := a.timeUs + 1, samples := ((code % 4096) :: a.samples).take 3 })
      railAbove (railRuns (if s.ao.inBlkReset then s else answersSent (tagsFreed (countTime s)))))

/-- RAIL_ARMED (R354). -/
def execRailArmed (s : State) : Host.Outcome State Fault Refusal :=
  gate s (if s.ao.pf = .unarmed ∧ s.ao.goodRun ≥ 1000 then
    let s := modAo s (fun a => { a with pf := .armed })
    railNotice s 1 (demand s)
  else s)

/-! ### Power states of ridges -/

/-- Packets waiting in a ridge's Scree queues. -/
def ridgePackets (s : State) (r : Nat) : Nat :=
  (List.range 4).foldl (fun a i => (spur s (4 * r + i)).classes.foldl (fun b c => b + c.packets.length) a) 0

/-- A ridge's PHYs go off or on again: write protect is low on all its channels while they are off, and high again on those that are UP,
whose CEs are to be trained first (R328, R345, R439). -/
def ridgeProtect (s : State) (r : Nat) (high : Bool) : State :=
  (List.range 8).foldl (fun s i => modChan s (8 * r + i) (fun c =>
    if c.state = 1 then { c with wp := high, untrained := c.untrained || !high } else { c with wp := false })) s

/-- A ridge is Active again (R379). -/
def wakeRidge (s : State) (r : Nat) : State :=
  if (ridge s r).pstate = 0 then s
  else
    let n := ridgePackets s r
    let s := if (ridge s r).pstate = 3 then ridgeProtect s r true else s
    countBy (count (modRidge s r (fun x => { x with pstate := 0, waking := false })) (0x7140 + r) 0x05) (0x7140 + r) 0x09 n

/-- The condition of Doze (R377): no packet in the ridge's Scree queues and no context runnable. -/
def dozeOpen (s : State) (r : Nat) : Bool :=
  decide (ridgePackets s r = 0)
    && (List.range 4).all (fun i =>
      let p := 4 * r + i
      decide ((spur s p).current = none)
        && (spur s p).ctxs.keys.all (fun c => !(isLiteral (ctxOf s p c) c && (ctxOf s p c).parked && wordReady s p c)))

/-- The condition of Nap: as Doze, and no phase posted or in progress. -/
def napOpen (s : State) (r : Nat) : Bool :=
  dozeOpen s r && (List.range 8).all (fun i =>
    let y := port s (4 * r + i / 2) (i % 2)
    decide (y.waiting = []) && decide (y.infl = []) && decide (y.seg = none))

/-- The condition of Dormant: as Nap, no LUN busy, no hold window, no unit in PROGRAMMING, no ladder, no suspension. -/
def dormantOpen (s : State) (r : Nat) : Bool :=
  napOpen s r
    && (s.luns.entries.all (fun e => decide (lunRidge e.1 ≠ r)
      || (decide (e.2.busy = .idle) && decide (e.2.ladder = none) && decide (e.2.susp = none) && decide (e.2.suspended = none))))
    && (s.cornice.entries.all (fun e => decide (e.1 / 768 ≠ r) || !e.2.held))
    && decide (unitsIn s r .programming = 0)

/-- R378: the deepest state that is allowed, whose condition holds, and whose wake and break-even fit before the next known
event in t nanoseconds. -/
def chooseState (s : State) (r t : Nat) : Nat :=
  let allowed := if (ridge s r).hintUntil ≠ none then 3 else od s (0x7140 + r) 0x02
  if allowed ≥ 3 ∧ 340000 ≤ t ∧ dormantOpen s r then 3
  else if allowed ≥ 2 ∧ 14000 ≤ t ∧ napOpen s r then 2
  else if allowed ≥ 1 ∧ 450 ≤ t ∧ dozeOpen s r then 1
  else 0

/-- IDLE_ENTRY (R378, R379): a ridge idle for IDLE_ENTRY_NS, with its next known event in t nanoseconds, goes to the state it
chooses, if that is deeper than its own. Dormant invalidates its Cornice entries and drives its write protects low. -/
def execIdleEntry (r t : Nat) (s : State) : Host.Outcome State Fault Refusal :=
  gate s (
    let n := chooseState s r t
    if n ≤ (ridge s r).pstate ∨ (ridge s r).waking ∨ railDown s then s
    else
      let s := modRidge s r (fun x => { x with pstate := n })
      if n = 3 then ridgeProtect (invalidateLuns s ((List.range 128).map (fun i => 128 * r + i))) r false else s)

/-- WAKE (R379): a push, a mailbox post or a known event starts the wake of a ridge; out of Dormant its PHYs go on first (R328, R345). -/
def execWake (r : Nat) (s : State) : Host.Outcome State Fault Refusal :=
  gate s (if (ridge s r).pstate = 0 then s
    else modRidge (if (ridge s r).pstate = 3 then ridgeProtect s r true else s) r (fun x => { x with waking := true }))

/-- WAKE_COMPLETE (R19): the wake latency ends, out of Dormant with every channel that is UP trained (R345); the ridge issues phases
again. -/
def execWakeComplete (r : Nat) (s : State) : Host.Outcome State Fault Refusal :=
  gate s (if (ridge s r).waking ∧ (List.range 8).all (fun i => decide ((chan s (8 * r + i)).state ≠ 1) || !(chan s (8 * r + i)).untrained) then
    wakeRidge s r else s)

/-- R378: a write to IDLE_HINT_US starts a hint, or ends it. -/
def idleHint (s : State) (r v : Nat) : State :=
  modRidge s r (fun x => { x with hintUntil := if v = 0 then none else some (s.ao.timeUs + v) })

/-- IDLE_HINT_EXPIRY (R378): a running hint ends. -/
def execIdleHintExpiry (r : Nat) (s : State) : Host.Outcome State Fault Refusal :=
  gate s (if (ridge s r).hintUntil.any (fun t => decide (t ≤ s.ao.timeUs)) then modRidge s r (fun x => { x with hintUntil := none }) else s)

/-! ### Sequence and shutdown -/

/-- Does a ridge take part in a closing (R367)? Not while OUT, and not before its first START of this power-on is written. -/
def takesPart (s : State) (r : Nat) : Bool := decide ((ridge s r).svc ≠ .out) && (ridge s r).firstDone

/-- Are the spurs of a ridge all OUT (R367)? -/
def spursOut (s : State) (r : Nat) : Bool := (List.range 4).all (fun i => decide ((spur s (4 * r + i)).svc = .out))

/-- R365 step 2: a running erase is suspended where the die's profile gives the command; no window opens for reads. -/
def sequenceSuspend (s : State) (l : Nat) : State :=
  match (lunOf s l).busy with
  | .erase _ _ =>
    if (lunOf s l).susp = none ∧ suspendable s l false then
      modLun (issueSuspend s l) l (fun x => { x with susp := x.susp.map (fun u => { u with windowOpen := false, reads := [] }) })
    else s
  | _ => s

/-- RAIL_WARNING (R354, R365): the filtered rail has been below V_WARN_MV for WARN_SAMPLES samples. From ARMED or SHUTDOWN the
power-fail sequence begins: fetching and admission stop, ridges wake, erases are suspended, gap moves stop (R51), the OPENING records are written. -/
def execRailWarning (s : State) : Host.Outcome State Fault Refusal :=
  gate s (if s.ao.warnRun ≥ od s 0x7000 0x06 ∧ (s.ao.pf = .armed ∨ s.ao.pf = .shutdown) then
    let s := if s.ao.pf = .armed then railNotice s 2 (demand s) else s
    let s := modAo s (fun a => { a with pf := .sequence, seqStart := a.timeUs })
    -- thermal levels count no more (R458)
    let s := (List.range 16).foldl refugeGo ((List.range 16).foldl wakeRidge s)
    let s := abandonMoves (s.luns.keys.foldl sequenceSuspend s)
    ((List.range 16).filter (fun r => takesPart s r && !spursOut s r && !(ridge s r).closed)).foldl (fun s r =>
      writeOpening (modRidge s r (fun x => { x with opening := some (openingEntries s r) })) r) s
  else s)

/-- RAIL_RECOVERED (R354): while HALTED the rail has been good for 1,000 samples: event 4 and nothing else. -/
def execRailRecovered (s : State) : Host.Outcome State Fault Refusal :=
  gate s (if s.ao.pf = .halted ∧ s.ao.goodRun = 1000 then
    modAo (railNotice s 4 (demand s)) (fun a => { a with goodRun := 1001 })
  else s)

/-- Every die operation of a ridge has ended, a suspended erase apart (R365 steps 2 and 4). -/
def dieWorkDone (s : State) (r : Nat) : Bool :=
  s.luns.entries.all (fun e => decide (lunRidge e.1 ≠ r) || (decide (e.2.busy = .idle) && (decide (e.2.suspended = none) || eraseSuspended e.2)))

/-- R369: every admitted entry has its final status. -/
def admittedDone (s : State) : Bool :=
  s.queues.entries.all (fun q => q.2.ents.all (fun e => decide (e.order = none) || decide (e.fin ≠ none)))

/-- R369: the work of a ridge has run to its end: spurs idle, gap moves committed, committed units programmed. -/
def ridgeQuiet (s : State) (r : Nat) : Bool :=
  (List.range 4).all (fun i => spurIdle s (4 * r + i)) && s.moves.all (fun m => decide (lunRidge m.lun ≠ r))
    && decide (unitsIn s r .committed = 0) && decide (unitsIn s r .programming = 0)

/-- RIDGE_CLOSING_DONE (R365, R369): a ridge has flushed its units and written its CLOSING record, once no program is in
flight and no hold window defers its programs (R123), and for a shutdown once its work is done and thermal level 3 no longer withholds its programs (R458). A ridge whose spurs are all OUT loses its units (R367). -/
def execRidgeClosingDone (r : Nat) (s : State) : Host.Outcome State Fault Refusal :=
  gate s (
    let ready : Bool := match s.ao.pf with
      | .sequence => dieWorkDone s r && decide (unitsIn s r .programming = 0)
      | .shutdown => admittedDone s && ridgeQuiet s r && decide (thermalLevel s r < 3)
      | _ => false
    let deferred := decide ((ridge s r).refugeWait ≠ []) || holdDefers s (ridge s r).manifest || (refugePairs s r).any (fun x => holdDefers s x.1)
    if ready ∧ takesPart s r ∧ ¬ (ridge s r).closed ∧ (spursOut s r ∨ ¬ deferred) then
      let s := if spursOut s r then loseUnits s r else closeRefuge (if s.ao.pf = .sequence then writeOpening s r else s) r (decide (s.ao.pf = .shutdown)) s.ao.orderly
      if s.ao.pf = .sequence then
        cairn s 0x51 (cu 2 r) 0xFFFF (ridge s r).step 0 (s.ao.timeUs - s.ao.seqStart) 0 0
      else s
    else s)

/-- Has every ridge closed, or does it take no part? -/
def allClosed (s : State) : Bool := (List.range 16).all (fun r => (ridge s r).closed || !takesPart s r)

/-- SEQUENCE_COMPLETE (R365): every ridge has completed step 6 or takes no part: HALTED. -/
def execSequenceComplete (s : State) : Host.Outcome State Fault Refusal :=
  gate s (if s.ao.pf = .sequence ∧ allClosed s then
    let us := s.ao.timeUs - s.ao.seqStart
    let s := railNotice (cairn s 0x51 0 0xFFFF 6 0 us 0 0) 3 us
    emit (modAo s (fun a => { a with pf := .halted, goodRun := 0 })) (.halted true)
  else s)

/-- R369: a write of 1 to SHUTDOWN: fetching stops, wordline groups are filled at once. -/
def startShutdown (s : State) : State :=
  if s.ao.pf = .unarmed ∨ s.ao.pf = .armed then
    fillGroups (modAo s (fun a => { a with pf := .shutdown, orderly := true })) (fun _ => true)
  else s

/-- SHUTDOWN_COMPLETE (R369): every ridge has written its CLOSING record: HALTED with HALT_CLEAN. -/
def execShutdownComplete (s : State) : Host.Outcome State Fault Refusal :=
  gate s (if s.ao.pf = .shutdown ∧ allClosed s ∧ admittedDone s then
      emit (modAo s (fun a => { a with pf := .halted, haltClean := true, goodRun := 0 })) (.halted true)
    else s)

/-! ### The ledger -/

/-- R27: a queue stalled at a refused write stays stalled until a grant covers it; that grant admits it. -/
def stallEnds (s : State) (q : Nat) : State :=
  if (queue s q).stalledLedger ∧ ¬ (frontEnt (queue s q)).any (fun x => decide (verdict s x = .short)) then
    admitRow (fun _ => true) q (modQueue s q (fun x => { x with stalledLedger := false }))
  else s

/-- What waits for energy asks again after a grant (R27, R46, R217): held work, queues stalled at a write, gap moves, erases
that wait for a marker. -/
def energyAsks (s : State) : State :=
  let s := releaseHeld s (fun c => decide (c = .ledger) || decide (c = .ledgerStalls))
  let s := s.queues.keys.foldl stallEnds s
  let s := (List.range 16).foldl moveRetry s
  s.luns.keys.foldl (fun s l => eraseGo s l) s

/-- R357: after a grant whatever was refused may be denied again. -/
def askAgain (s : State) : State :=
  let s := (s.luns.keys.filter (fun l => (lunOf s l).erases.any (fun j => j.denied))).foldl (fun s l => modErase s l (fun j => { j with denied := false })) s
  { s with moves := s.moves.map (fun m => { m with denied := false }) }

/-- LEDGER_GRANT (R26, R357): the Gate's allowance becomes the limit minus D. -/
def execLedgerGrant (s : State) : Host.Outcome State Fault Refusal :=
  gate s (energyAsks (askAgain (modAo s (fun a => { a with allowance := ledgerLimit s - demand s }))))

/-- ADMISSION_RESUMED (R358): 1 ms without a denial after event 5. -/
def execAdmissionResumed (s : State) : Host.Outcome State Fault Refusal :=
  gate s (if s.ao.denying ∧ s.ao.lastDenial.all (fun t => decide (t + 1000 ≤ s.ao.timeUs)) then
    modAo (railNotice s 6 (demand s)) (fun a => { a with denying := false })
  else s)

/-- R381: any write to RAIL_MIN_MV sets it to RAIL_MV. -/
def writeRailMin (s : State) : State := setOd s 0x7000 0x02 (railMv s)

/-- R381: any write to DEMAND_PEAK sets it to D. -/
def writeDemandPeak (s : State) : State := setOd s 0x7000 0x11 (sat (2 ^ 32 - 1) (demand s))

end Sys2Proof.Machine
end

