-- ==== Sys2Proof/Machine/Recovery.lean ====
section
/-! DEFINITION. Start-up recovery: the class of the last shutdown (R370 to R372), what the barrier loads (R371, R373), and
the restoration of flushed units (R374). -/

namespace Sys2Proof.Machine

/-! ### System pages (R463) -/

/-- R463: does the ladder of a system page of a LUN come to a rung: rung 0, rung 1, or one of the die's own read-retry options, at
most RETRY_LIMIT of them? -/
def systemReads (s : State) (l rung : Nat) : Bool :=
  decide (rung ≤ 1) || (stepUsable s l 0 true rung && decide (rung ≤ 32 + od s 0x2100 0x02))

/-- What the ladders of a ridge's system pages give of the pages and markers recovery reads: one in a line that fails the whole ladder
is no record and no marker (R216, R362, R463). -/
def readable (s : State) (x : RidgeFound) : RidgeFound :=
  { x with pages := x.pages.filter (fun g => systemReads s g.lun g.rung), markers := x.markers.filter (fun m => systemReads s m.lun m.rung) }

/-! ### The class of the last shutdown -/

/-- KIND of a record page. -/
def pgKind (x : RefugePage) : Nat := bitsOf x.record 7 0
/-- Its EPOCH. -/
def pgEpoch (x : RefugePage) : Nat := bitsOf x.record 31 16
/-- Its SEQ. -/
def pgSeq (x : RefugePage) : Nat := bitsOf x.record 79 32

/-- The refuge records among the pages read. -/
def goodPages (x : RidgeFound) : List RefugePage := x.pages.filter recordGood

/-- The later of two STARTs, by EPOCH, then SEQ (R370). -/
def laterStart (a b : RefugePage) : RefugePage :=
  if pgEpoch a * 2 ^ 48 + pgSeq a < pgEpoch b * 2 ^ 48 + pgSeq b then b else a

/-- The newest START. -/
def newestStart (x : RidgeFound) : Option RefugePage :=
  match (goodPages x).filter (fun g => decide (pgKind g = 0x21)) with
  | [] => none
  | a :: l => some (l.foldl laterStart a)

/-- Does a record follow a START? On its LUN every record does, since page 0 is the START's; on another LUN the order of EPOCH and SEQ
says (DEDUCED from R372, log entry 45). -/
def followsStart (a g : RefugePage) : Bool :=
  decide (g.lun = a.lun) || decide (pgEpoch a * 2 ^ 48 + pgSeq a < pgEpoch g * 2 ^ 48 + pgSeq g)

/-- The records that follow the newest START in its set. -/
def activeRecords (x : RidgeFound) : List RefugePage :=
  match newestStart x with
  | none => []
  | some a => (goodPages x).filter (fun g => decide (g.block = a.block) && followsStart a g && decide (pgKind g ≠ 0x21))

/-- Those of one kind. -/
def recordsOf (x : RidgeFound) (kind : Nat) : List RefugePage := (activeRecords x).filter (fun g => decide (pgKind g = kind))

/-- R370: 0 FRESH, 1 CLEAN, 2 FLUSHED, 3 PARTIAL, 4 BLIND. -/
def shutdownKind (x : RidgeFound) : Nat :=
  if newestStart x = none then 0
  else if recordsOf x 0x26 ≠ [] then (if (recordsOf x 0x26).any (fun g => g.record.getLsbD 96) then 1 else 2)
  else if recordsOf x 0x22 ≠ [] then 3
  else 4

/-- R372: the ridge's SEQ. -/
def recoveredSeq (x : RidgeFound) : Nat :=
  let top := fun l : List RefugePage => l.foldl (fun a g => max a (pgSeq g)) 0
  match newestStart x with
  | none => 0
  | some a =>
    if recordsOf x 0x26 ≠ [] then top (recordsOf x 0x26) + 1
    else if recordsOf x 0x22 ≠ [] then top (recordsOf x 0x22) + 1
    else pgSeq a + 1

/-- The block of the active set: that of the newest START, block 3 for FRESH. -/
def activeBlock (x : RidgeFound) : Nat :=
  match newestStart x with
  | none => 3
  | some a => a.block

/-- R216: is a record found a marker: its page has a valid header, and its KIND and CHECK are good? -/
def markerStands (m : MarkerFound) : Bool := m.header && markerGood m.record

/-- The highest EPOCH of the records, markers and headers a ridge has read (R371 step 4). -/
def highestEpoch (x : RidgeFound) : Nat :=
  let a := (goodPages x).foldl (fun a g => max a (pgEpoch g)) x.headerEpoch
  (x.markers.filter markerStands).foldl (fun a m => max a (bitsOf m.record 63 48)) a

/-- The payload entries of the records of one kind. -/
def foundEntries (x : RidgeFound) (kind : Nat) : List Nat := (recordsOf x kind).flatMap recordEntries

/-! ### Flag blocks (R220) -/

/-- The block, planes and ERASE_SEQ of an INTENT or CARRY record. -/
def openMark (fb : Nat) (w : W512) : Marker := ⟨bitsOf w 30 16, bitsOf w 13 8, bitsOf w 111 64, bitsOf w 39 32, w, fb⟩

/-- The marks of a LUN's INTENT and CARRY records, each with its flag block, that no DONE resolves. -/
def unresolvedMarks (ms : List MarkerFound) : List Marker :=
  let ws := ms.map (fun m => m.record)
  let opens := (ms.filter (fun m => decide (bitsOf m.record 7 0 = 1) || decide (bitsOf m.record 7 0 = 3))).map (fun m => openMark m.block m.record)
  let done := ws.filter (fun w => decide (bitsOf w 7 0 = 2))
  done.foldl (fun l w => resolveMarks l (bitsOf w 30 16) (bitsOf w 13 8) (bitsOf w 47 40) (bitsOf w 111 64)) opens

/-- The flag block with the valid record of the highest ERASE_SEQ, and that number. -/
def newestMark (ms : List MarkerFound) : Option (Nat × Nat) :=
  ms.foldl (fun a m =>
    let q := bitsOf m.record 111 64
    if markerStands m ∧ (a.all (fun y => decide (y.2 < q))) then some (m.block, q) else a) none

/-- Flag state of one LUN from what recovery read: its current flag block, its next free page, ERASE_SEQ, and the unresolved
marks, which enter the half-erased table with cause 0. -/
def loadFlags (x : RidgeFound) (s : State) (l : Nat) : State :=
  let ms := x.markers.filter (fun m => decide (m.lun = l))
  match newestMark ms with
  | none => s
  | some (b, q) =>
    let open1 := unresolvedMarks (ms.filter markerStands)
    let s := modLun s l (fun y => { y with
      flagBlock := b, flagBad := false, switching := none, flagPage := (ms.filter (fun m => decide (m.block = b))).foldl (fun a m => max a (m.page + 1)) 0, eraseSeq := (q + 1) % 2 ^ 48, markers := open1 })
    open1.foldl (fun s m => halfInsert s l m.block m.planes 0) s

/-! ### Damage (R373), Traverse and poison records -/

/-- R373, R200: the pages an OPENING entry has scanned: in TLC and QLC, which its POSITION tells, every page of its wordline and of
the wordline before it in the block, on its planes; in SLC the page itself. -/
def scannedPages (s : State) (e : Nat) : List W64 :=
  let f : W64 := BitVec.ofNat 64 e
  let pos := e / 2 ^ 104 % 256
  let m := if pos = 0 then 0 else if pos ≤ 2 then 1 else 2
  let wl := (wordlineOf s (fBlun f) m (fPage f)).1
  let wls := if m = 0 ∨ wl = 0 then [wl] else [wl - 1, wl]
  (List.range (e / 2 ^ 96 % 256 + 1)).flatMap (fun k => wls.flatMap (fun w => (List.range (modeBits m)).map (fun i =>
    fSetPage (fSetPlane (fSetLine f 0) (fPlane f + k)) (pageOf s (fBlun f) m w i))))

/-- R373: what the reads of the pages to scan found, one result a page; a page of which nothing is reported read well. -/
def scanResults (s : State) (x : RidgeFound) : List ScanPage :=
  (((foundEntries x 0x22).flatMap (scannedPages s)).eraseDups).filterMap (fun f => x.scan.find? (fun p => decide (fSetLine p.fpa 0 = f)))

/-- One page of the damage scan: damaged when it has no valid header, or lines that fail the ladder (R200). DESIGN CHOICE (log entry 45): a
page that finds the damage list full is counted in DAMAGED_PAGES and DAMAGED_LINES like any other; "reported by its Cairn record alone"
is read as leaving out the list and its REPAIR_REQ. -/
def scanDamage (rg : Nat) (s : State) (p : ScanPage) : State :=
  if p.header ∧ p.failing = 0 then s
  else
    let s := countBy (count s (0x7110 + rg) 0x07) (0x7110 + rg) 0x08 p.failing
    let s := cairn s 0x54 (cu 12 (fBlun p.fpa)) 0xFFFF 0 p.fpa p.failing 0 0
    if (ridge s rg).damage.length < 256 then modRidge s rg (fun y => { y with damage := y.damage ++ [(fSetLine p.fpa 0, false)] }) else s

/-- A TRAVERSE entry becomes reloaded state of its region number (R51), in place of an older word of its LUN, and of older words of
another range. -/
def loadTraverse (l : List Reload) (e : Nat) : List Reload :=
  let n : Reload := ⟨e / 2 ^ 80 % 256, e / 2 ^ 88 % 65536, e / 2 ^ 104 % 65536, [(e / 2 ^ 64 % 65536, BitVec.ofNat 64 e)]⟩
  if l.any (fun x => decide (x.region = n.region) && decide (x.first = n.first) && decide (x.last = n.last)) then
    l.map (fun x => if x.region = n.region then { x with words := x.words.filter (fun y => y.1 ≠ e / 2 ^ 64 % 65536) ++ n.words } else x)
  else l.filter (fun x => x.region ≠ n.region) ++ [n]

/-- POISON entries go into the poison map with SOURCE 5 (R173), in order, from its first entry on. -/
def loadPoison (rg : Nat) (s : State) (x : Nat × Nat) : State :=
  let f := fSetLine (BitVec.ofNat 64 x.2) 0
  let s := modRidge s rg (fun y => { y with poison := y.poison.modify {} x.1 (fun _ =>
    { used := true, fpa := f, mask := BitVec.ofNat 256 (x.2 / 2 ^ 64), source := 5 }) })
  cairn s 0x20 (cu 12 (fBlun f)) 0xFFFF 10 f (popCount (BitVec.ofNat 256 (x.2 / 2 ^ 64))) 0 0

/-! ### Restoration (R374): notes -/

/-- A record that names a restoration, a pending unit or a loss. -/
def restoreRecord (s : State) (rg region detail : Nat) (target : W64) (h : BitVec 32) : State :=
  cairn s 0x53 (cu 2 rg) region detail target h.toNat 0 0

/-- A unit is lost. -/
def restoreLost (s : State) (rg region : Nat) (target : W64) (h : BitVec 32) : State :=
  restoreRecord (count s (0x7110 + rg) 0x06) rg region 3 target h

/-- Pending units of a ridge. -/
def pendingUnits (s : State) (rg : Nat) : Nat := ((unitsOf s rg).filter (fun e => decide (e.2.pending ≠ none))).length

/-- Does an entry still wait to be treated? One whose unit is pending has been. -/
def unitDue (s : State) (rg : Nat) (e : BitVec 256) : Bool :=
  decide (e ≠ 0) && decide ((unit s (rg * 232 + bitsOf e 27 16)).pending ≠ some e)

/-- R380 event 7, once every entry has been treated: recovery of the ridge is complete. -/
def announceRidge (s : State) (rg : Nat) : State :=
  if (ridge s rg).announced ∨ (ridge s rg).units.any (unitDue s rg) then s
  else
    let x := rg * 2 ^ 28 + od s (0x7110 + rg) 0x01 * 2 ^ 24 + od s (0x7110 + rg) 0x04 % 4096 * 2 ^ 12 + pendingUnits s rg % 4096
    let s := modRidge (railNotice s 7 x) rg (fun y => { y with announced := true })
    cairn s 0x52 (cu 2 rg) 0xFFFF (od s (0x7110 + rg) 0x01) 0 x 0 0

/-! ### The barrier (R371) -/

/-- May a ridge's recovery go on from what it has read: RETURNING for the first time, the channels of its spurs brought up? -/
def atBarrier (s : State) (rg : Nat) : Bool :=
  decide ((ridge s rg).svc = .returning) && !(ridge s rg).firstDone
    && (List.range 4).all (fun i => decide ((spur s (4 * rg + i)).svc ≠ .returning) || spurBrought s (4 * rg + i))

/-- Step 7: a START in the standby set, at page 0 of the manifest LUN. -/
def writeStart (s : State) (rg : Nat) : State :=
  match manifestOf s rg 64 with
  | none => s
  | some l =>
    addRecordPage (modRidge s rg (fun y => { y with manifest := l, refuge := [], granules := [] })) rg 0 0x21 0 false false []

/-- Steps 4 to 7 for one ridge, and its return to IN with its spurs. -/
def recoverRidge (s : State) (x : RidgeFound) : State :=
  let rg := x.ridge
  if ¬ atBarrier s rg then s
  else
    let kind := shutdownKind x
    let act := activeBlock x
    let i := 0x7110 + rg
    let s := setOd (setOd (setOd s i 0x01 kind) i 0x02 (if kind = 0 then 0 else act)) i 0x03 (5 - act)
    let s := setOd s (0x2110 + rg) 0x01 (recoveredSeq x % 2 ^ 44)
    let s := ((foundLuns s).filter (fun l => decide (lunRidge l = rg))).foldl (loadFlags x) s
    let s := if kind = 3 then (scanResults s x).foldl (scanDamage rg) s else s
    let s := { s with reloads := (foundEntries x 0x23).foldl loadTraverse s.reloads }
    let s := ((foundEntries x 0x24).zipIdx.map (fun y => (y.2, y.1))).foldl (loadPoison rg) s
    let s := modRidge s rg (fun y => { y with units := (foundEntries x 0x25).map (fun e => BitVec.ofNat 256 e), firstDone := true, closed := false, step := 0 })
    let s := x.badStandby.foldl (fun s b =>
      cairn (modLun s b.1 (fun y => { y with refugeBad := y.refugeBad ++ [b.2] })) 0x55 (cu 12 b.1) 0xFFFF b.2 0 (5 - act) 0 0) s
    let known := (ridge s rg).units.map (fun e => e.extractLsb' 0 32)
    let lost := if kind = 3 then (x.granules.filter (fun g => !known.contains g.1)) else []
    let s := (lost.map (fun g => g.1)).eraseDups.foldl (fun s h =>
      restoreLost s rg 0xFFFF (((lost.find? (fun g => g.1 = h)).map (fun g => fSetLine g.2 0)).getD 0) h) s
    let s := ridgeIn s rg
    let s := (List.range 4).foldl (fun s k =>
      let p := 4 * rg + k
      if (spur s p).svc = .returning ∧ ¬ (spur s p).storesBad then
        (if engineGood s p then spurIn s p else modSpur (setOd s (0x4100 + p) 0x01 0) p (fun y => { y with svc := .out, refusal := 0x13 }))
      else s) s
    let s := setOd (writeStart (eraseStandby s rg) rg) i 0x09 (sat (2 ^ 32 - 1) (s.ao.timeUs - (ridge s rg).returnUs))
    let s := if kind = 4 then cairn s 0x55 (cu 12 (ridge s rg).manifest) 0xFFFF 0xFF 0 act 0 0 else s
    let s := setOd s 0x7100 0x02 (max (od s 0x7100 0x02) kind)
    let s := if kind ≥ 2 then setOd s 0x2200 0x01 1 else s
    announceRidge ((List.range 256).foldl askRepairs s) rg

/-- R371 step 4: the highest EPOCH the ridges have read so far. -/
def epochTop (s : State) : Nat := (List.range 16).foldl (fun a r => max a (ridge s r).epochFound) 0

/-- RECOVERY_BARRIER (R371): every enabled ridge has reached step 4, or BRINGUP_TIMEOUT_MS has passed: EPOCH becomes 1 + the highest EPOCH
read so far, by the ridges of an earlier barrier too, and each ridge goes on with what it has read. -/
def execRecoveryBarrier (found : List RidgeFound) (s : State) : Host.Outcome State Fault Refusal :=
  gate s (
    let now := (found.filter (fun x => atBarrier s x.ridge)).map (readable s)
    if now = [] then s
    else
      let s := now.foldl (fun s x => modRidge s x.ridge (fun y => { y with epochFound := highestEpoch x })) s
      let s := setOd s 0x2100 0x06 ((epochTop s + 1) % 65536)
      svcKick (releaseUnits (now.foldl recoverRidge s)))

/-! ### Units (R374) -/

/-- The tweak base of an entry's unit: its own when fixed, else that of its target (R276). -/
def entryBase (s : State) (e : BitVec 256) : W64 :=
  if e.getLsbD 219 then e.extractLsb' 96 64 else tweakForm s (bitsOf e 239 232) (e.extractLsb' 32 64)

/-- One line of a granule page as the unit holds it: deciphered when the unit is bound, poisoned when it is lost, not held
when its VALID is clear, but for those of a sealed sector, which hold ciphertext and its tag. -/
def restoredLine (m : Option W512) (base : W64) (i : Nat) (x : RefugeLine) : Option (BitVec 528) :=
  if x.lost then some poisonedLine
  else if ¬ lValid x.data then (if lSealed x.data then some x.data else none)
  else match m with
    | some k => some (decipherLine k base i x.data)
    | none => some x.data

/-- The lines of one granule page, as lines of its unit; a page without a valid header loses them all. -/
def restoredPage (s : State) (m : Option W512) (base : W64) (ls : SMap (BitVec 528)) (g : RefugeGranule) : SMap (BitVec 528) :=
  (List.range 256).foldl (fun a i =>
    let x := g.lines.getD i ⟨0, true, 0⟩
    let x := { x with lost := x.lost || !g.header || !systemReads s g.lun x.rung }
    match restoredLine m (fSetPlane base (fPlane base + g.plane)) i x with
    | some l => a.set 0 (g.plane * 256 + i) l
    | none => a) ls

/-- The sectors of a restored unit that were already sealed: lines of theirs carry SEALED. -/
def restoredSeals (ls : SMap (BitVec 528)) (n : Nat) : List Nat :=
  (List.range n).filter (fun k => (List.range 64).any (fun i => lSealed (ls.get 0 (64 * k + i))))

/-- R374: a restored COMMITTED unit whose region runs is mapped, charged in its cell mode, and sealed; WL_FILL_MS counts from now. -/
def goUnit (s : State) (u : Nat) : State :=
  commitReady (setCharge (toCommitted s u) u (programKinds s (unit s u).region ((unit s u).planesM1 + 1))) u

/-- A unit restored from its entry: handle, state, target, FAILED, tweak base and lines, charged by R202. A COMMITTED unit of a region that runs goes
on at once. -/
def restoreUnit (s : State) (rg : Nat) (e : BitVec 256) (key : Option (Nat × Nat)) (pages : List RefugeGranule) : State :=
  let u := rg * 232 + bitsOf e 27 16
  let reg := bitsOf e 239 232
  let base := entryBase s e
  let ls := pages.foldl (restoredPage s (key.bind (material s)) base) { entries := [] }
  let planes := bitsOf e 231 224 + 1
  let committed := decide (bitsOf e 215 208 = 2)
  let target : W64 := e.extractLsb' 32 64
  let s := modUnit s u (fun _ =>
    { state := if committed then .committed else .opened
      gen := bitsOf e 15 0
      kind := if e.getLsbD 217 then .pageProgram else .host
      target := target, phys := physOf s reg target, region := reg, planesM1 := planes - 1, failed := e.getLsbD 216, key := key
      base := if e.getLsbD 219 then some base else none
      lines := ls, surplus := (ls.entries.filter (fun x => lValid x.2)).length - bitsOf e 255 240
      sealedSec := restoredSeals ls (4 * planes), restored := committed, since := s.ao.timeUs })
  let s := match key with
    | some (k, g) => addUser s k g
    | none => s
  let s := setCharge s u (if committed then programKinds s reg planes else [(.refuge, granulesHeld (unit s u))])
  let s := restoreRecord (count s (0x7110 + rg) 0x04) rg reg 1 target (e.extractLsb' 0 32)
  if committed ∧ (region s reg).state = 1 then goUnit s u else s

/-- A unit whose slot is not yet usable: its record number and granules are reserved. -/
def pendUnit (s : State) (rg : Nat) (e : BitVec 256) : State :=
  let s := modUnit s (rg * 232 + bitsOf e 27 16) (fun _ =>
    { state := .opened, gen := bitsOf e 15 0, target := e.extractLsb' 32 64, phys := e.extractLsb' 32 64, region := bitsOf e 239 232,
      planesM1 := bitsOf e 231 224, reserved := true, pending := some e })
  restoreRecord s rg (bitsOf e 239 232) 2 (e.extractLsb' 32 64) (e.extractLsb' 0 32)

/-- An entry has been dealt with for good. -/
def unitDealt (s : State) (rg i : Nat) : State := modRidge s rg (fun y => { y with units := setAt y.units i 0 })

/-- Treat one UNITS entry by the table of R374. -/
def treatUnit (s : State) (rg i : Nat) (e : BitVec 256) (pages : List RefugeGranule) : State :=
  let u := rg * 232 + bitsOf e 27 16
  let reg := bitsOf e 239 232
  let k := bitsOf e 201 192
  let x := keySlot s k
  let was := decide ((unit s u).pending = some e)
  let target : W64 := e.extractLsb' 32 64
  let h : BitVec 32 := e.extractLsb' 0 32
  let lose := fun s : State =>
    let s := restoreLost (unitDealt (if was then modUnit s u (fun d => { gen := d.gen }) else s) rg i) rg reg target h
    if was then moveRetry s rg else s
  if ¬ was ∧ ((unit s u).state ≠ .free ∨ granulesFree s rg < bitsOf e 231 224 + 1 ∨ bitsOf e 27 16 ≥ 232) then lose s
  else if ¬ e.getLsbD 218 then restoreUnit (unitDealt s rg i) rg e none pages
  else if ¬ slotUsable x.state then (if was then s else pendUnit s rg e)
  else if keyKcv x.live = bitsOf e 191 160 then restoreUnit (unitDealt s rg i) rg e (some (k, x.gen)) pages
  else lose s

/-- UNIT_RESTORE (R374): entry i of a ridge's UNITS records, with its granule pages as read; the ridge is IN and the block
ARMED. -/
def execUnitRestore (r i : Nat) (pages : List RefugeGranule) (s : State) : Host.Outcome State Fault Refusal :=
  gate s (
    let e := (ridge s r).units.getD i 0
    if e ≠ 0 ∧ (ridge s r).svc = .inService ∧ s.ao.pf = .armed then announceRidge (treatUnit s r i e pages) r else s)

/-- R374: one unit that waits as pending is discarded, and its record counted lost. -/
def dropUnit (s : State) (x : Nat × Led) : State :=
  match x.2.pending with
  | some e =>
    let rg := x.1 / 232
    let s := modRidge (modUnit s x.1 (fun d => { gen := d.gen })) rg (fun y => { y with units := y.units.map (fun z => if z = e then 0 else z) })
    moveRetry (restoreLost s rg (bitsOf e 239 232) (e.extractLsb' 32 64) (e.extractLsb' 0 32)) rg
  | none => s

/-- R374: a write to DROP_PENDING discards the pending units bound to a slot, or all with 0xFFFF. -/
def dropPendingUnits (s : State) (v : Nat) : State :=
  (s.units.entries.filter (fun x => x.2.pending.any (fun e => decide (v = 0xFFFF) || decide (bitsOf e 201 192 = v)))).foldl dropUnit s

end Sys2Proof.Machine
end

