-- ==== Sys2Proof/Machine/Faults.lean ====
section
/-! DEFINITION. Memory errors and their injection (R417 to R422), fabric timeouts and late responses (R428), temperature
sensors (R456 to R460), resets and self-tests (R444 to R447). -/

namespace Sys2Proof.Machine

/-! ### Memory errors -/

/-- The classes of R418 and R420. -/
def memClass (c : Nat) : Bool := [1, 2, 3, 4, 5, 6, 7, 8, 9, 10, 0x10, 0x11, 0x12, 0x13, 0x14, 0x15, 0x18, 0x19, 0x1A, 0x1B].contains c

/-- The memories with parity, which corrects nothing (R418). -/
def parityClass (c : Nat) : Bool := [1, 2, 5, 6, 10].contains c

/-- UNIT of a FAULT record. -/
def faultUnit (s : State) (c i addr : Nat) : Nat :=
  if c = 1 ∨ c = 2 then (if i < 64 then cu 1 i else cu 1 ((spare s (i - 64)).spur % 64))
  else if c = 3 ∨ c = 4 ∨ c = 5 then cu 1 i
  else if 6 ≤ c ∧ c ≤ 8 then cu 2 i
  else if c = 9 then cu 4 i
  else if c = 0x0A then cu 3 i
  else if c = 0x13 then cu 11 addr
  else if c = 0x19 then cu 6 (i % 2)
  else 0

/-- The FAULT record of an error: 1 corrected, 2 uncorrectable. -/
def faultRecord (s : State) (c i how addr : Nat) (f : W64) (loud : Bool) : State :=
  let u := faultUnit s c i addr
  if loud then cairnLoud s 0x58 u 0xFFFF (c * 256 + i % 256) f how addr 0 else cairn s 0x58 u 0xFFFF (c * 256 + i % 256) f how addr 0

/-- R418: an engine's memory has failed: the engine of a spur, or a spare; the spur that runs on it faults, at the word of the control store
(cause 2) or in the context (cause 3) of the address (R317). -/
def engineMemory (s : State) (i cause addr : Nat) : State :=
  let s := if cause = 2 then
      (if i < 64 then modSpur s i (fun x => { x with csGood := false }) else modSpare s (i - 64) (fun x => { x with csGood := false }))
    else s
  let p := if i < 64 then i else (spare s (i - 64)).spur
  let runs := if i < 64 then !(spur s p).onSpare else decide ((spare s (i - 64)).state = 2)
  if p < 64 ∧ runs ∧ ((spur s p).svc = .inService ∨ (spur s p).svc = .draining) ∧ ¬ (spur s p).stopped then
    engineFaultAt s p cause (if cause = 3 then some (addr % 64) else none) (if cause = 2 then some (addr % 4096) else none)
  else s

/-- A poison map entry goes (R418 class 0x07). -/
def poisonLost (s : State) (rg i : Nat) : State :=
  modRidge s rg (fun x => { x with poison := x.poison.set {} i {} })

/-- R418 class 0x08: every LUN of the ridge is locked; the table is to be rebuilt. -/
def halfLost (s : State) (rg : Nat) : State :=
  let s := modRidge s rg (fun x => { x with half := { entries := [] }, heRebuild := true })
  ((foundLuns s).filter (fun l => decide (lunRidge l = rg))).foldl (fun s l => modLun s l (fun x => { x with heLock := true })) s

/-- R418 class 0x09: a line of the bank is held with POISON. Address record × 2,048 + plane × 256 + line. -/
def lineLost (s : State) (rg addr : Nat) : State :=
  let u := rg * 232 + addr / 2048
  if holdsLine (unit s u) (addr % 2048) then
    modUnit s u (fun d => { d with lines := d.lines.modify 0 (addr % 2048) (fun l => l ||| place 528 518 1) })
  else s

/-- R418 class 0x0A: the job of a decoder runs again on another island; a second error within 1 s takes the island out. -/
def decoderLost (s : State) (d k : Nat) : State :=
  let x := dec s d
  let twice := x.lastErr.any (fun t => decide (s.ao.timeUs < t + 1000000))
  let back := (x.jobs.entries.filter (fun e => twice || decide (e.1 = k))).filterMap (fun e => e.2)
  let s := back.foldl (fun s t => modRidge s t.ridge (fun r => { r with staged := { t with lostOn := some d } :: r.staged })) s
  let s := modDec s d (fun x => { x with
    jobs := { entries := if twice then [] else x.jobs.entries.filter (fun e => decide (e.1 ≠ k)) }, lastErr := some s.ao.timeUs })
  if twice ∧ x.ready then readyChange (modDec s d (fun x => { x with ready := false })) 3 d false 4 else s

/-- R421: FATAL. -/
def goFatal (s : State) (c i addr : Nat) : State :=
  faultRecord (modAo s (fun a => { a with fatal := true })) c i 2 addr 0 true

/-- The entry in a place of the tracking pool. -/
def placeOf (s : State) (k : Nat) : Option (Nat × Nat) :=
  s.queues.entries.findSome? (fun q => (q.2.ents.find? (fun e => decide (e.place = k))).map (fun e => (q.1, e.idx)))

/-- R420 class 0x10: the entry of a tracking pool place completes INTERNAL: one that is admitted once its descriptors and data transfers
are over (R15, R97), one that is not when the Gate comes to it, one whose status is final while its status write has not gone out at
once; or the block goes FATAL when the queue cannot be read, which the manual leaves to the error. A FENCE never returns INTERNAL
(R114): it goes on. -/
def placeLost (s : State) (i k : Nat) : State :=
  let (c, s) := pick s
  if c % 2 = 1 then goFatal s 0x10 i k
  else
    let s := faultRecord s 0x10 i 2 k 0 false
    match placeOf s k with
    | some (q, j) =>
      match entOf s q j with
      | none => s
      | some e =>
        if e.arrived ∧ eOpcode e.raw = 0x20 then s
        else if e.fin ≠ none then modEnt s q j (fun e => if e.wr = 0 then { e with fin := some (⟨0xF0, 2, 0⟩, 0) } else e)
        else if e.order = none then refuseLoop (modEnt s q j (fun e => { e with lost := true })) q (queue s q).ents.length
        else settle (mergeStatus s q j ⟨0xF0, 2, 0⟩ 0 0) q j
    | none => s

/-- R420 class 0x11: the entry of a hold store slot completes INTERNAL. Work of the block's own has no entry: DESIGN CHOICE, a patrol
step goes on without the read, a gap move stalls, other work of its own is dropped (log entry 38). -/
def slotLost (s : State) (k : Nat) : State :=
  match s.hold.find? (fun h => h.id = k) with
  | none => s
  | some h =>
    let s := unhold s k
    let d := h.desc
    if d.q = 0xFFFF then
      (if d.op = 0x40 then scrubDone s d.region
       else match (if d.op = 0x41 then moveOf s d.region (fBlun d.phys) else none) with
         | some m => moveStall s m (fBlock d.phys)
         | none => s)
    else if d.source = 1 then finalise s d.q d.idx ⟨0xF0, 2, 0⟩ d.named
    else reportDesc s d ⟨0xF0, 2, 0⟩

/-- R420 class 0x19: a receive buffer asks for a replay (R245); a replay buffer fails both links, cause 5. Instances 0 and 1 are
the receive sides, 2 and 3 the replay buffers. -/
def colLost (s : State) (i : Nat) : State :=
  if i < 2 then (if (link s i).state = 2 then ackOn s i 0 0 0 true else s)
  else linkFail (linkFail s 0 5 0 0) 1 5 0 0

/-- What an uncorrectable error does (R418, R420). -/
def memoryLost (s : State) (c i addr : Nat) : State :=
  let s := count s 0xA000 0x04
  if c = 0x12 ∨ c = 0x14 ∨ c = 0x15 then goFatal s c i addr
  else if c = 0x10 then placeLost s i addr
  else if c = 0x1A then logFaulted s addr
  else if c = 0x1B then faultRecord (modAo s (fun a => { a with ledgerFault := true })) c i 2 addr 0 true
  else
    let f := if c = 0x07 then ((ridge s i).poison.get {} addr).fpa else 0
    let s := faultRecord s c i 2 addr f false
    if c = 0x01 then engineMemory s i 2 addr
    else if c = 0x02 then engineMemory s i 3 addr
    else if c = 0x03 ∨ c = 0x04 then (if (spur s i).svc = .out then s else spurOut s i 2 4)
    else if c = 0x05 then invalidateEntry s (i * 192 + addr)
    else if c = 0x06 then { s with talus := s.talus.set 0 (i * 8192 + addr) 0 }
    else if c = 0x07 then poisonLost s i addr
    else if c = 0x08 then halfLost s i
    else if c = 0x09 then lineLost s i addr
    else if c = 0x0A then decoderLost s i addr
    else if c = 0x11 then slotLost s addr
    else if c = 0x13 then eraseSlot s addr
    else if c = 0x18 then count { s with badStore := if s.badStore.contains addr then s.badStore else s.badStore ++ [addr] } 0x1020 0x03
    else colLost s i

/-- MEMORY_ERROR (R417): an access to a memory reports an error: one the access met, or one armed there by INJECT_MEM, which
then says of which kind it is. -/
def execMemoryError (cls inst addr : Nat) (bad : Bool) (s : State) : Host.Outcome State Fault Refusal :=
  gate s (
    let armed := s.inject.find? (fun e => decide (e.1 = cls) && decide (e.2.1 = inst))
    let bad := armed.elim bad (fun e => e.2.2)
    let s := match armed with
      | some e => { s with inject := s.inject.erase e }
      | none => s
    if ¬ memClass cls then s
    else if bad ∨ parityClass cls then memoryLost s cls inst addr
    else faultRecord (count s 0xA000 0x03) cls inst 1 addr 0 false)

/-- R422: engine e faults at its next word. -/
def injectEngine (s : State) (e : Nat) : State :=
  if e < 64 then modSpur s e (fun x => { x with injected := true })
  else if e < 68 then modSpare s (e - 64) (fun x => { x with injected := true })
  else s

/-- R422: the next access to a memory reports an error. -/
def injectMem (s : State) (v : Nat) : State :=
  { s with inject := s.inject ++ [(v / 256 % 256, v % 256, decide (v / 65536 % 2 = 1))] }

/-! ### Fabric -/

/-- FABRIC_TIMEOUT (R428): a request counts as answered with an error; its tag is set aside for 4 × FAB_TIMEOUT_US. -/
def execFabricTimeout (tag : Nat) (s : State) : Host.Outcome State Fault Refusal :=
  gate s (match reqOf s tag with
    | none => s
    | some q =>
      let r := { q with timedOut := true }
      let s := count s 0x1200 0x02
      let s := { s with fab := { s.fab with quarantine := s.fab.quarantine ++ [(tag, s.ao.timeUs + 4 * od s 0x1200 0x01)] } }
      match r.purpose with
      | .fetch q rd => fetchAnswer s r q rd true []
      | .frag q i => fragData (fabTake s r true) q i true []
      | .wdata q i => writeData (fabTake s r true) q i r.addr true []
      | .image => imageData (fabTake s r true) true []
      | .status q i => statusAnswer s r q i true
      | .done q => doneAnswer s r q true
      | .record n k => recordAnswer s r n k true
      | .tail n => tailAnswer s r n true
      | .msg n => messageAnswer s r n true
      | .head n => headAnswer s r n true 0
      | .rdata q i => rdataAnswer s r q i true
      | .stale => fabTake s r true)

/-- LATE_RESPONSE (R428): a response to a timed-out or unused tag is discarded. -/
def execLateResponse (tag : Nat) (s : State) : Host.Outcome State Fault Refusal :=
  gate s (match reqOf s tag with
    | none => lateTag s
    | some _ => s)

/-! ### Temperature -/

/-- Threshold of a level (R457). -/
def levelAt (s : State) (k : Nat) : Int :=
  if k = 1 then Int.ofNat (od s 0x7200 0x01) else if k = 2 then Int.ofNat (od s 0x7200 0x01) + 5 else Int.ofNat (od s 0x7200 0x02)

/-- R459: a THERMAL notice and its record. -/
def thermalNotice (s : State) (n event : Nat) (temp : Int) : State :=
  let d := event * 4096 + (s.sensors.get {} n).level * 256 + n
  let x := unsigned 16 temp
  cairn (blockNotice (count s 0x7200 0x06) 0x38 d x) 0x59 0 0xFFFF d 0 x 0 0

/-- Change a sensor. -/
def modSensor (s : State) (n : Nat) (f : Sensor → Sensor) : State := { s with sensors := s.sensors.modify {} n f }

/-- R457: the level moves one step per conversion. -/
def levelStep (s : State) (n : Nat) (temp : Int) : State :=
  let l := (s.sensors.get {} n).level
  if l < 3 ∧ levelAt s (l + 1) ≤ temp then thermalNotice (modSensor s n (fun x => { x with level := l + 1 })) n 1 temp
  else if l > 0 ∧ temp < levelAt s l - Int.ofNat (od s 0x7200 0x03) then
    -- work that level 3 withheld goes on
    let s := thermalNotice (modSensor s n (fun x => { x with level := l - 1 })) n 2 temp
    (List.range 16).foldl refugeGo (s.luns.keys.foldl (fun s l => eraseGo s l) s)
  else s

/-- R456: a sensor fault: level 2 is held until the sensor converts correctly again. -/
def sensorFails (s : State) (n : Nat) (temp : Int) : State :=
  if (s.sensors.get {} n).fault then s
  else thermalNotice (modSensor s n (fun _ => { level := 2, fault := true })) n 3 temp

/-- The last reading of a sensor. -/
def lastTemp (s : State) (n : Nat) : Int := signed 16 (od s (0x7210 + n) 0x01)

/-- SENSOR_CONVERSION (R456, R457): a reading in whole degrees. -/
def execSensorConversion (n : Nat) (temp : Int) (s : State) : Host.Outcome State Fault Refusal :=
  gate s (
    if temp < -55 ∨ 150 < temp then sensorFails s n temp
    else
      let s := setOd s (0x7210 + n) 0x01 (unsigned 16 temp)
      let s := if signed 16 (od s (0x7210 + n) 0x02) < temp then setOd s (0x7210 + n) 0x02 (unsigned 16 temp) else s
      let s := if (s.sensors.get {} n).fault then thermalNotice (modSensor s n (fun x => { x with fault := false })) n 4 temp else s
      levelStep s n temp)

/-- SENSOR_FAULT (R456): no conversion for 1 ms. -/
def execSensorFault (n : Nat) (s : State) : Host.Outcome State Fault Refusal := gate s (sensorFails s n (lastTemp s n))

/-! ### Resets -/

/-- Dictionary entries that block reset preserves (R446): INSTANCE_ID, RESET_CAUSE and BLOCK_RESETS, and index 0x9100 but for
the nonce and CLEAR_STATUS. -/
def keptEntry (k : Nat) : Bool :=
  decide (k = odKey 0x1000 0x03) || decide (k = odKey 0x1200 0x07) || decide (k = odKey 0x1200 0x08)
    || (decide (odKey 0x9100 0 ≤ k) && decide (k < odKey 0x9101 0) && decide (k ≠ odKey 0x9100 0x14) && decide (k ≠ odKey 0x9100 0x15)
      && decide (k ≠ odKey 0x9100 0x19))

/-- R446: the always-on island after block reset. The rail watch starts anew: RAIL_MV takes its default (R6). -/
def keptAo (a : Ao) : Ao :=
  { timeUs := a.timeUs, log := a.log, nextSeq := a.nextSeq, cairnIn := a.cairnIn, logFault := a.logFault,
    logTested := a.logTested, logTold := a.logTold, bypass := a.bypass, buckets := a.buckets, bucketUs := a.bucketUs, suppressed := a.suppressed,
    rates := a.rates, code0 := a.code0, code1 := a.code1, keyDesignated := a.keyDesignated, inAoReset := a.inAoReset }

/-- R432, R445: the ports as a reset leaves them: M_l_ENABLE falls with the link's ENABLE, P_HALTED with HALTED. -/
def portsFall (s : State) : List PortOut :=
  (if s.ao.pf = .halted then [.halted false] else [])
    ++ (([1, 0].filter (fun l => decide (od s (0x8010 + l) 0x01 = 1))).map (fun l => .linkEnable l false) ++ s.sent)

/-- Everything block reset clears is at its reset value; the record port starts at the oldest record (R408). Reloaded Traverse
state that no enable has adopted goes only after an orderly shutdown (R51). -/
def blockReset (s : State) : State :=
  let t : State := { ao := { keptAo s.ao with inBlkReset := true }, od := s.od.filterKeys keptEntry, free := s.free, sent := portsFall s,
                     pending := s.pending, reloads := if s.ao.haltClean then [] else s.reloads }
  setOd t 0x9200 0x02 (oldestSeq t)

/-- BLOCK_RESET (R444, R446): BLK_RST_N is asserted. With AO_RST_N released it counts as a block reset alone (R450). -/
def execBlockReset (s : State) : Host.Outcome State Fault Refusal :=
  .next (
    let s := blockReset s
    if s.ao.inAoReset then s else count (setOd s 0x1200 0x07 2) 0x1200 0x08)

/-- AO_RESET (R444): AO_RST_N is asserted; every island resets, the log is emptied. -/
def execAoReset (s : State) : Host.Outcome State Fault Refusal :=
  .next { ao := { inAoReset := true, inBlkReset := s.ao.inBlkReset }, free := s.free, sent := portsFall s, pending := s.pending }

/-- AO_RESET_RELEASE (R444). -/
def execAoResetRelease (s : State) : Host.Outcome State Fault Refusal := .next (modAo s (fun a => { a with inAoReset := false }))

/-- BLOCK_RESET_RELEASE (R444, R447): with AO_RST_N released the islands begin their self-tests. -/
def execBlockResetRelease (s : State) : Host.Outcome State Fault Refusal := .next (modAo s (fun a => { a with inBlkReset := false }))

/-! ### Self-tests (R447) -/

/-- A unit whose self-test fails stays not ready: a UNIT_READY notice and a FAULT record, cause 6. -/
def testFailed (s : State) (kind n cls : Nat) : State := faultRecord (readyChange s kind n false 6) cls n 2 0 0 false

/-- The end of one self-test. A FAULT record of the ports or the key port has no memory class of R418 or R420: DESIGN CHOICE, class 0 (log
entry 38). -/
def selfTested (s : State) (what : SelfTest) (pass : Bool) : State :=
  match what with
  | .ports =>
    -- the block reads the key store engine's STATUS first of all (R376)
    if ¬ pass then (if s.ao.portsUp then s else faultRecord s 0 0 2 0 0 false)
    else if s.ao.portsUp then s
    else emit { modAo s (fun a => { a with portsUp := true }) with keyFirst := true } (.key false 0x18 0 (keyClient s))
  | .decoder d =>
    if ¬ pass then testFailed s 3 d 0x0A
    else if (dec s d).ready then s else readyChange (modDec s d (fun x => { x with ready := true })) 3 d true 0
  | .ledge r =>
    if ¬ pass then testFailed s 4 r 0x09
    else
      let s := modRidge s r (fun x => { x with ledgeTested := true })
      if (ridge s r).svc = .inService then releaseUnits (ledgeIn s r) else s
  | .spurStores p => if pass then s else testFailed (modSpur s p (fun x => { x with storesBad := true })) 1 p 0x03
  | .dictionary => if pass then s else faultRecord s 0x18 0 2 0 0 false
  -- the key port becomes ready by its first STATUS read (R376)
  | .keyPort => if pass then s else testFailed { s with keyBad := true, keyReady := false } 5 0 0
  | .log =>
    if s.ao.logTested then s
    else if pass then modAo s (fun a => { a with logTested := true, log := a.log ++ a.bypass.map (fun b => b.word), bypass := [] })
    else
      let keep := decide (od s 0x9200 0x01 = 1)
      let s := countBy (modAo s (fun a => { a with logTested := true, bypass := if keep then a.bypass.map (fun b => { b with port := true }) else [] }))
        0x9100 0x11 s.ao.bypass.length
      logFaulted s 0

/-- SELF_TEST_DONE (R447): a self-test ends. Tests of the block's islands run once both resets are released, that of the log
once AO_RST_N is. -/
def execSelfTestDone (what : SelfTest) (pass : Bool) (s : State) : Host.Outcome State Fault Refusal :=
  .next (
    if s.ao.inAoReset then s
    else match what with
      | .log => selfTested s .log pass
      | w => if s.ao.inBlkReset then s else selfTested s w pass)

end Sys2Proof.Machine
end

