-- ==== Sys2Proof/Machine/Regions.lean ====
section
/-! DEFINITION. Enabling and disabling regions (R40, R41), adopting Traverse state (R51), writes of TV_STATE (R44). -/

namespace Sys2Proof.Machine

/-! ### Checks of an enable (R40) -/

/-- Regions that are RUNNING or DRAINING, other than one. -/
def otherRegions (s : State) (r : Nat) : List Nat :=
  (s.regions.entries.filter (fun e => decide (e.1 ≠ r) && decide (e.2.state ≠ 0))).map (fun e => e.1)

/-- Do the ranges of two regions overlap? -/
def rangesOverlap (s : State) (a b : Nat) : Bool := decide (rOd s a 0x03 ≤ rOd s b 0x04) && decide (rOd s b 0x03 ≤ rOd s a 0x04)

/-- Is LAST below the blocks per plane of every LUN found, and is there one? -/
def lastFits (s : State) (r : Nat) : Bool :=
  decide (foundLuns s ≠ []) && (foundLuns s).all (fun l => decide (rOd s r 0x04 < lunBlocks s l))

/-- Reloaded Traverse state of a region number (R51). -/
def reloadOf (s : State) (r : Nat) : Option Reload := s.reloads.find? (fun x => x.region = r)

/-- Is the reloaded state of another range? -/
def reloadOther (s : State) (r : Nat) : Bool :=
  (reloadOf s r).any (fun x => decide (x.first ≠ rOd s r 0x03) || decide (x.last ≠ rOd s r 0x04))

/-- Has some LUN found no state of its own, and none reloaded? -/
def tvMissing (s : State) (r : Nat) : Bool :=
  (foundLuns s).any (fun l => (tvOf s r l).unset && !((reloadOf s r).any (fun x => x.words.any (fun w => decide (w.1 = l)))))

/-- CELL_MODE is defined and some LUN found does not support it (R343). -/
def modeUnfit (s : State) (r : Nat) : Bool :=
  decide (rOd s r 0x06 ≤ 2) && (foundLuns s).any (fun l => !lunMode s l (rOd s r 0x06))

/-- MIRROR_MODE, CHAIN_POS and CHAIN_LEN against each other. -/
def chainUnfit (s : State) (r : Nat) : Bool :=
  let m := rOd s r 0x0C
  let pos := rOd s r 0x0D
  let len := rOd s r 0x0E
  decide (m > 2) || (decide (m = 1) && decide (pos ≠ 0)) || (decide (m = 2) && (decide (pos < 1) || decide (pos > len)))
    || decide (len < 1) || decide (len > 4)

/-- Regions other than one that run or drain with Traverse on. -/
def traverseRegions (s : State) (r : Nat) : Nat := ((otherRegions s r).filter (fun q => traverseOn s q)).length

/-- The code of the first check that fails, 0 when all pass; 0x0D comes before 0x0C. -/
def regionRefusal (s : State) (r : Nat) : Nat :=
  let first := rOd s r 0x03
  let last := rOd s r 0x04
  let on := traverseOn s r
  if last < first then 0x01
  else if first < 4 then 0x02
  else if ¬ lastFits s r then 0x03
  else if (otherRegions s r).any (fun q => rangesOverlap s r q) then 0x04
  else if rOd s r 0x05 = 1 ∧ (rOd s r 0x06 = 1 ∨ rOd s r 0x06 = 2) then 0x05
  else if modeUnfit s r then 0x06
  else if rOd s r 0x07 ≤ 7 ∧ od s (0x2140 + rOd s r 0x07) 0x01 = 0 then 0x07
  else if rOd s r 0x0A > 3 ∨ (rOd s r 0x0A ≠ 0 ∧ rOd s r 0x0B > 1023) then 0x08
  else if chainUnfit s r then 0x09
  else if on ∧ traverseRegions s r ≥ 8 then 0x0A
  else if on ∧ (last - first < 1 ∨ rOd s r 0x10 = 0) then 0x0B
  else if on ∧ reloadOther s r then 0x0D
  else if on ∧ rOd s r 0x13 = 0 ∧ tvMissing s r then 0x0C
  else if rOd s r 0x11 > 2 ∨ (rOd s r 0x11 ≠ 0 ∧ (rOd s r 0x12 < 1 ∨ rOd s r 0x12 > 15)) then 0x0E
  else if rOd s r 0x05 > 1 ∨ rOd s r 0x06 > 2 ∨ rOd s r 0x07 > 7 then 0x0F
  else 0

/-! ### Traverse state at an enable (R51) -/

/-- The state a TV_STATE word spells; MOVING is never taken from a word. -/
def tvOfWord (w : W64) : Tv :=
  { moving := false, stalled := w.getLsbD 62, unset := false, count := bitsOf w 47 32, start := bitsOf w 31 16, gap := bitsOf w 15 0 }

/-- One LUN with UNSET takes its reloaded word, or a fresh window. -/
def tvAdopt (r : Nat) (s : State) (l : Nat) : State :=
  if ¬ (tvOf s r l).unset then s
  else
    let w := (reloadOf s r).bind (fun x => (x.words.find? (fun y => y.1 = l)).map (fun y => y.2))
    modTv s r l (fun _ => w.elim { unset := false, gap := winL s r } tvOfWord)

/-- Adopt or initialise the state: with TRAVERSE_INIT 1 of every LUN, else of every LUN found and every one that was reloaded. -/
def adoptTraverse (s : State) (r : Nat) : State :=
  if ¬ traverseOn s r then s
  else
    let more := (reloadOf s r).elim [] (fun x => x.words.map (fun w => w.1))
    let s := (if rOd s r 0x13 = 1 then List.range 2048 else foundLuns s ++ more).foldl (tvAdopt r) s
    { s with reloads := s.reloads.filter (fun x => x.region ≠ r) }

/-! ### Enable and disable -/

/-- MIRROR_STATE at an enable: an ORIGIN starts DEGRADED (R252); a MEMBER is ATTACHED while its UP_LINK is UP (R254). -/
def mirrorAtEnable (s : State) (r : Nat) : Nat :=
  if rOd s r 0x0C = 1 then 0 else if rOd s r 0x0C = 2 then (if (link s (upLink s r)).state = 2 then 4 else 5) else 7

/-- R374: the restored COMMITTED units of a region that has come to run. -/
def goRestored (s : State) (r : Nat) : State :=
  (s.units.entries.filter (fun e => e.2.restored && decide (e.2.region = r) && decide (e.2.state = .committed))).foldl (fun s e => goUnit s e.1) s

/-- A write of 1 to a region's ENABLE (R40). -/
def enableRegion (s : State) (r : Nat) : State :=
  if (region s r).state = 2 then modRegion s r (fun g => { g with refusal := 0x10 })
  else if (region s r).state = 1 then s
  else
    let c := regionRefusal s r
    if c ≠ 0 then modRegion (setOd s (0x2000 + r) 0x01 0) r (fun g => { g with refusal := c })
    else
      let s := adoptTraverse (setOd s (0x2000 + r) 0x01 1) r
      let m := mirrorAtEnable s r
      let s := modRegion s r (fun g => { g with
        state := 1, refusal := 0, block := rOd s r 0x03, page := 0, scrubOut := 0, scrubLate := false, refresh := [], mirror := m })
      askRepairs (goRestored s r) r

/-- A write of 0 to a region's ENABLE (R41): a RUNNING region drains; its OPEN units are committed, wordline groups filled. -/
def disableRegion (s : State) (r : Nat) : State :=
  let s := setOd s (0x2000 + r) 0x01 0
  if (region s r).state ≠ 1 then s
  else
    let s := modRegion s r (fun g => { g with state := 2 })
    fillGroups (closeUnits s (fun d => decide (d.region = r))) (fun d => decide (d.region = r))

/-- R44: a write of TV_STATE: the response code of R386 (0 OK, 3 UNIT_RUNNING, 4 OUT_OF_RANGE) and the state. While STOPPED the
word is stored; otherwise only STALLED can be cleared. -/
def writeTv (s : State) (r l v : Nat) : Nat × State :=
  let w : W64 := BitVec.ofNat 64 v
  if (region s r).state = 0 then
    (if bitsOf w 31 16 ≥ winL s r ∨ bitsOf w 15 0 > winL s r then (4, s) else (0, modTv s r l (fun _ => tvOfWord w)))
  else if w.getLsbD 62 then (3, s)
  else (0, maybeMove (modTv s r l (fun t => { t with stalled := false })) r l)

end Sys2Proof.Machine
end

