-- ==== Sys2Proof/Machine/OdView.lean ====
section
/-! DEFINITION. What a read of the dictionary shows (R385, R389): entries that other state gives (ready bits, pool levels,
states, selected records) are computed here; every other entry is its stored value. -/

namespace Sys2Proof.Machine

/-- A requester: a control-port master (1 to 15), or a node of the ring. -/
structure Req where
  crest : Bool
  who : Nat
deriving DecidableEq, Repr

/-- Its selector context (R389). -/
def reqCtx (q : Req) : Nat := if q.crest then 0 else q.who

/-- Is an entry a selector (R389)? -/
def isSel (i sub : Nat) : Bool :=
  (decide (0x2000 ≤ i) && decide (i < 0x2100) && decide (sub = 0x18))
    || [(0x2180, 0x01), (0x21C0, 0x01), (0x21C0, 0x02), (0x2200, 0x04), (0x2200, 0x05), (0x4000, 0x08), (0x4000, 0x0D), (0x4300, 0x05),
        (0x5000, 0x02), (0x5800, 0x0B), (0x6000, 0x0D), (0x9100, 0x04), (0x9100, 0x0D)].contains (i, sub)

/-- A word with bit n set where a test holds, for n below a limit. -/
def bitMap (n : Nat) (f : Nat → Bool) : Nat := (List.range n).foldl (fun a i => if f i then a + 2 ^ i else a) 0

/-- Word n of a number, 64 bits a word. -/
def wordPart (v n : Nat) : Nat := v / 2 ^ (64 * n) % 2 ^ 64

/-! ### Ready bits (R393) -/

/-- Spur p is ready. -/
def readySpur (s : State) (p : Nat) : Bool := decide ((spur s p).svc = .inService)
/-- Ridge r is ready. -/
def readyRidge (s : State) (r : Nat) : Bool := decide ((ridge s r).svc = .inService)
/-- Col link l is ready. -/
def readyLink (s : State) (l : Nat) : Bool := decide ((link s l).state = 2)
/-- Crestline is ready. -/
def readyCrest (s : State) : Bool := decide (s.crest.state = 2)

/-- Has firmware taken a spur out, or its ridge? -/
def spurChosen (s : State) (p : Nat) : Bool := (spur s p).chosenOut || (ridge s (p / 4)).chosenOut

/-- ALL_READY: every unit that is not out of service by firmware's choice is ready. -/
def allReady (s : State) : Bool :=
  (List.range 64).all (fun p => readySpur s p || spurChosen s p)
    && (List.range 16).all (fun r => (readyRidge s r && (ridge s r).ledgeReady) || (ridge s r).chosenOut)
    && (List.range 4).all (fun d => (dec s d).ready) && s.keyReady
    && (List.range 2).all (fun l => readyLink s l || decide (od s (0x8010 + l) 0x01 = 0))
    && (readyCrest s || decide (od s 0x9000 0x01 = 0))

/-- Index 0x1010. -/
def viewReady (s : State) (sub : Nat) : Option Nat :=
  match sub with
  | 1 => some (bitMap 64 (readySpur s))
  | 2 => some (bitMap 16 (readyRidge s))
  | 3 => some (bitMap 16 (fun r => (ridge s r).ledgeReady))
  | 4 => some (bitMap 4 (fun d => (dec s d).ready) + (if s.keyReady then 16 else 0) + (if readyLink s 0 then 32 else 0)
      + (if readyLink s 1 then 64 else 0) + (if readyCrest s then 128 else 0))
  | 5 => some (if allReady s then 1 else 0)
  | _ => none

/-! ### Gate, rings, regions, queues -/

/-- Index 0x1100 (R68). -/
def viewGate (s : State) (sub : Nat) : Option Nat :=
  match sub with
  | 1 => some (poolUsed s)
  | 3 => some (holdUsed s)
  | 4 => some (fencesWaiting s)
  | _ => none

/-- Ring n (R80). -/
def viewRing (s : State) (n sub : Nat) : Option Nat :=
  let r := ring s n
  match sub with
  | 1 => some (if r.enabled then 1 else 0)
  | 2 => some ((if ringFull s n then 4 else 0) + (if r.fault then 2 else 0) + (if r.enabled ∧ ¬ r.fault then 1 else 0))
  | 10 => some (r.tail % 65536)
  | 11 => some (r.head % 65536)
  | 12 => some (backlogUsed r)
  | _ => none

/-- Region r (R38, R42): STATUS, LOGICAL_BLOCKS, TV_LUN's state, SCRUB_CURSOR. -/
def viewRegion (s : State) (r ctx sub : Nat) : Option Nat :=
  let g := region s r
  match sub with
  | 2 =>
    let pending : Bool := match reloadOf s r with
      | some _ => true
      | none => false
    some (g.refusal * 256 + (if pending then 4 else 0) + g.state)
  | 0x17 => some (if g.state = 1 ∧ traverseOn s r then winL s r else 0)
  | 0x19 => some (tvOf s r (selOf s ctx (0x2000 + r) 0x18)).word
  | 0x1B => some (g.block * 65536 + g.page)
  | _ => none

/-- Queue q (R60, R61). -/
def viewQueue (s : State) (q sub : Nat) : Option Nat :=
  let x := queue s q
  match sub with
  | 1 => some (if x.state = .running ∨ x.state = .halted then 1 else 0)
  | 2 => some (x.refusal * 256 + x.cause * 4 + x.state.code)
  | 13 => some x.doorbell
  | 14 => some x.fetch
  | 15 => some x.done
  | 16 => some (qBacklog s q)
  | _ => none

/-! ### Ridges, Talus, poison, half-erased blocks, units -/

/-- Index 0x2110 + r (R177). -/
def viewRead (s : State) (r sub : Nat) : Option Nat :=
  match sub with
  | 1 => some (od s (0x2110 + r) 0x01 + r * 2 ^ 44)
  | 13 => some (poisonUsed s r)
  | _ => none

/-- The 384-bit history of a LUN in the dictionary copy (R168, R170). -/
def talusBits (s : State) (l : Nat) : Nat :=
  (s.talusCopy.entries.filter (fun e => decide (e.1 / 64 = l))).foldl (fun a e => a + e.2 % 64 * 2 ^ (6 * (e.1 % 64))) 0

/-- Index 0x2180. -/
def viewTalus (s : State) (ctx sub : Nat) : Option Nat :=
  let l := selOf s ctx 0x2180 0x01
  if 2 ≤ sub ∧ sub ≤ 7 then some (wordPart (talusBits s l) (sub - 2))
  else if sub = 8 then some (lunShift s l)
  else none

/-- The poison map entry a requester has selected. -/
def poisonSel (s : State) (ctx : Nat) : Pois :=
  (ridge s (selOf s ctx 0x21C0 0x01)).poison.get {} (selOf s ctx 0x21C0 0x02)

/-- Index 0x21C0 (R175). -/
def viewPoison (s : State) (ctx sub : Nat) : Option Nat :=
  if sub = 3 then some (poisonWord (poisonSel s ctx))
  else if 4 ≤ sub ∧ sub ≤ 7 then some (wordPart (poisonSel s ctx).mask.toNat (sub - 4))
  else none

/-- HE_ENTRY (R235). -/
def halfWord (e : HalfE) : Nat :=
  if e.used then (mkFpaB false e.lun 0 e.block 0 0).toNat + e.planes % 64 * 64 + e.cause % 2 * 32 + 1 else 0

/-- Index 0x2200. -/
def viewHalf (s : State) (ctx sub : Nat) : Option Nat :=
  match sub with
  | 6 => some (halfWord ((ridge s (selOf s ctx 0x2200 0x04)).half.get {} (selOf s ctx 0x2200 0x05)))
  | 10 => some (s.luns.entries.filter (fun e => e.2.heLock)).length
  | _ => none


/-- UNIT_INFO (R207). A record reserved for a pending unit, or for a UNIT_OPEN in check 3, shows no state. -/
def unitInfo (d : Led) : Nat :=
  (if d.unopened then 0 else d.state.code) * 2 ^ 61 + (if d.failed then 2 ^ 60 else 0) + (if d.keyLost then 2 ^ 59 else 0)
    + (if d.mirror ≠ [] then 2 ^ 58 else 0) + (if ¬ d.unopened ∧ d.kind ≠ .host then 2 ^ 57 else 0)
    + d.planesM1 % 8 * 2 ^ 54 + ((d.key.getD (0, 0)).1 % 1024) * 2 ^ 44 + sat 255 d.readers * 2 ^ 32 + d.gen % 65536 * 2 ^ 16
    + linesWritten d % 65536

/-- The unit a requester has selected. -/
def unitSel (s : State) (ctx : Nat) : Nat :=
  let v := selOf s ctx 0x5000 0x02
  v / 2 ^ 28 % 16 * 232 + v / 2 ^ 16 % 4096

/-- Index 0x5000. -/
def viewUnits (s : State) (ctx sub : Nat) : Option Nat :=
  let d := unit s (unitSel s ctx)
  match sub with
  | 3 => some (unitInfo d)
  | 4 => some (if d.unopened then 0 else (fSetLine d.target 0).toNat)
  | _ => none

/-- Units of a ridge in a state as software sees it: records FREE to it are left out (R180, R207). -/
def shownUnits (s : State) (r : Nat) (x : UState) : Nat := unitsIn s r x

/-- Index 0x5010 + r. -/
def viewBank (s : State) (r sub : Nat) : Option Nat :=
  match sub with
  | 1 => some (granulesFree s r)
  | 2 => some (shownUnits s r .opened)
  | 3 => some (shownUnits s r .committed)
  | 4 => some (shownUnits s r .programming)
  | 5 => some (shownUnits s r .done)
  | _ => none

/-! ### Engines, mailboxes, channels -/

/-- The control store word a requester has selected; the 68 stores hold the loaded image. -/
def csWord (s : State) (ctx : Nat) : Nat :=
  let v := selOf s ctx 0x4000 0x0D
  if s.image.state = 2 then (s.image.words.getD (v % 4096) 0).toNat else 0

/-- Index 0x4000 (R324). -/
def viewEngines (s : State) (ctx sub : Nat) : Option Nat :=
  match sub with
  | 5 => some (s.image.result * 65536 + s.image.cause * 256 + s.image.state)
  | 6 => some (if s.image.state = 2 then s.image.build else 0)
  | 7 => some (if s.image.state = 2 then s.image.nwords else 0)
  | 9 => some (dispatchOf s (selOf s ctx 0x4000 0x08)).toNat
  | 14 => some (wordPart (csWord s ctx) 0)
  | 15 => some (wordPart (csWord s ctx) 1)
  | 16 => some (wordPart (csWord s ctx) 2)
  | _ => none

/-- Spur p (R324). -/
def viewSpur (s : State) (p sub : Nat) : Option Nat :=
  let x := spur s p
  if sub = 2 then some (x.refusal * 256 + (if x.onSpare then 32 else 0) + (if x.early then 16 else 0) + x.svc.code)
  else if 3 ≤ sub ∧ sub ≤ 6 then some (screeOf s p (sub - 3)).depth
  else if sub = 7 then some x.ctxs.entries.length
  else none

/-- Ridge r. -/
def viewRidge (s : State) (r sub : Nat) : Option Nat :=
  let x := ridge s r
  if sub = 2 then some (x.refusal * 256 + (if x.early then 16 else 0) + x.svc.code) else none

/-- Spare g. -/
def viewSpare (s : State) (g sub : Nat) : Option Nat :=
  match sub with
  | 1 => some (spare s g).state
  | 2 => some (spare s g).spur
  | _ => none

/-- The mailbox pair of a spur (R311 to R315). -/
def viewMbox (s : State) (p sub : Nat) : Option Nat :=
  let m := (spur s p).mbox
  if sub = 1 then some m.owner
  else if 2 ≤ sub ∧ sub ≤ 9 then some (m.inData.getD (sub - 2) 0).toNat
  else if sub = 11 then some (m.inAck * 2 ^ 24 + m.inCode * 256 + (if m.inRefused then 8 else 0) + m.inState)
  else if 12 ≤ sub ∧ sub ≤ 19 then some (m.outData.getD (sub - 12) 0).toNat
  else if sub = 20 then some (m.outAck * 2 ^ 24 + m.outCode * 256 + (if m.outLate then 16 else 0) + (if m.outTimeout then 8 else 0) + m.outState)
  else none

/-- Index 0x4300: the selected LUN (R352). -/
def viewLun (s : State) (ctx sub : Nat) : Option Nat :=
  let x := lunOf s (selOf s ctx 0x4300 0x05)
  match sub with
  | 6 => some x.geom.toNat
  | 7 => some x.times0.toNat
  | 8 => some x.times1.toNat
  | 9 => some x.id.toNat
  | _ => none

/-- Channel c. -/
def viewChan (s : State) (c sub : Nat) : Option Nat :=
  let x := chan s c
  match sub with
  | 1 => some (x.lastReason * 256 + x.bin * 16 + x.iface * 4 + x.state)
  | 2 => some x.found
  | 3 => some x.refused
  | _ => none

/-! ### Cornice, key slots -/

/-- The layout of R118. -/
def cornWord (s : State) (e : Nat) : Nat :=
  let c := corn s e
  (if c.valid then 2 ^ 63 else 0) + (if c.held then 2 ^ 62 else 0) + (if c.loading then 2 ^ 61 else 0) + c.step % 64 * 2 ^ 55
    + c.block % 32768 * 2 ^ 34 + c.page % 16384 * 2 ^ 20 + sat 255 (pendingOf s e) * 4096

/-- SLOT_INFO (R285). -/
def slotInfo (k : KeySlot) : Nat :=
  k.state.code * 2 ^ 61 + (if k.derived then 2 ^ 60 else 0) + k.gen % 65536 * 2 ^ 32 + sat 65535 k.oldUsers * 2 ^ 16 + sat 65535 k.users

/-! ### Power, temperature, Col, Crestline, log, diagnostics -/

/-- Index 0x7000 (R381). -/
def viewRail (s : State) (sub : Nat) : Option Nat :=
  match sub with
  | 1 => some (railMv s)
  | 14 => some (sat (2 ^ 32 - 1) (eAvail s))
  | 15 => some (sat (2 ^ 32 - 1) (ledgerLimit s))
  | 16 => some (sat (2 ^ 32 - 1) (demand s))
  | 19 => some s.ao.pf.code
  | _ => none

/-- Index 0x7100 (R382). -/
def viewStart (s : State) (sub : Nat) : Option Nat :=
  match sub with
  | 4 => some (if s.ao.haltClean then 1 else 0)
  | 5 => some ((List.range 16).foldl (fun a r => a + pendingUnits s r) 0)
  | _ => none

/-- Index 0x7140 + r (R383): the power state, and what is left of an idle hint. -/
def viewPower (s : State) (r sub : Nat) : Option Nat :=
  match sub with
  | 1 => some (ridge s r).pstate
  | 3 => some ((ridge s r).hintUntil.elim 0 (fun t => t - s.ao.timeUs))
  | _ => none

/-- Index 0x9100 (R407, R416). -/
def viewLog (s : State) (ctx sub : Nat) : Option Nat :=
  if sub = 1 then some ((if s.ao.logFault then 1 else 0) + (if s.ao.clear.isSome then 2 else 0))
  else if sub = 2 then some (oldestSeq s)
  else if sub = 3 then some s.ao.nextSeq
  else if 5 ≤ sub ∧ sub ≤ 12 then
    some (if s.ao.logFault then 0
      else wordPart ((s.ao.log.find? (fun w => decide (recSeq w = selOf s ctx 0x9100 0x04))).elim 0 (fun w => w.toNat)) (sub - 5))
  else if sub = 14 then some (rateOf s (selOf s ctx 0x9100 0x0D))
  else none

/-- One-entry views. -/
def viewFew (s : State) (i ctx sub : Nat) : Option Nat :=
  match i, sub with
  | 0x1000, 4 => some (s.ao.timeUs % 2 ^ 64)
  | 0x5800, 12 => some (cornWord s (selOf s ctx 0x5800 0x0B))
  | 0x6000, 14 => some (slotInfo (keySlot s (selOf s ctx 0x6000 0x0D)))
  | 0x7200, 5 => some (s.sensors.entries.foldl (fun a e => max a e.2.level) 0)
  | 0x8000, 6 => some s.col.table.length
  | 0x9000, 7 => some s.crest.state
  | 0xA000, 5 => some (if s.ao.fatal then 1 else 0)
  | 0xA000, 6 => some (if s.ao.ledgerFault then 1 else 0)
  | _, _ => none

/-- What other state gives an entry, if it does. -/
def computed (s : State) (ctx i sub : Nat) : Option Nat :=
  if i = 0x1010 then viewReady s sub
  else if i = 0x1100 then viewGate s sub
  else if 0x1110 ≤ i ∧ i < 0x1120 then viewRing s (i - 0x1110) sub
  else if 0x2000 ≤ i ∧ i < 0x2100 then viewRegion s (i - 0x2000) ctx sub
  else if 0x2110 ≤ i ∧ i < 0x2120 then viewRead s (i - 0x2110) sub
  else if i = 0x2180 then viewTalus s ctx sub
  else if i = 0x21C0 then viewPoison s ctx sub
  else if i = 0x2200 then viewHalf s ctx sub
  else if 0x2210 ≤ i ∧ i < 0x2220 then (if sub = 5 then some ((ridge s (i - 0x2210)).half.entries.filter (fun e => e.2.used)).length else none)
  else if 0x3000 ≤ i ∧ i < 0x4000 then viewQueue s (i - 0x3000) sub
  else if i = 0x4000 then viewEngines s ctx sub
  else if 0x4010 ≤ i ∧ i < 0x4020 then viewRidge s (i - 0x4010) sub
  else if 0x4100 ≤ i ∧ i < 0x4140 then viewSpur s (i - 0x4100) sub
  else if 0x4180 ≤ i ∧ i < 0x4184 then viewSpare s (i - 0x4180) sub
  else if 0x4200 ≤ i ∧ i < 0x4240 then viewMbox s (i - 0x4200) sub
  else if i = 0x4300 then viewLun s ctx sub
  else if 0x4400 ≤ i ∧ i < 0x4480 then viewChan s (i - 0x4400) sub
  else if i = 0x5000 then viewUnits s ctx sub
  else if 0x5010 ≤ i ∧ i < 0x5020 then viewBank s (i - 0x5010) sub
  else if i = 0x7000 then viewRail s sub
  else if i = 0x7100 then viewStart s sub
  else if 0x7110 ≤ i ∧ i < 0x7120 then (if sub = 5 then some (pendingUnits s (i - 0x7110)) else none)
  else if 0x7140 ≤ i ∧ i < 0x7150 then viewPower s (i - 0x7140) sub
  else if 0x7210 ≤ i ∧ i < 0x7221 then (if sub = 3 then some (s.sensors.get {} (i - 0x7210)).level else none)
  else if 0x8010 ≤ i ∧ i < 0x8012 then (if sub = 2 then
    some ((link s (i - 0x8010)).cause * 256 + (if (link s (i - 0x8010)).early then 16 else 0) + (link s (i - 0x8010)).state) else none)
  else if 0x8100 ≤ i ∧ i < 0x8200 then (if sub = 4 then some (region s (i - 0x8100)).mirror else none)
  else if i = 0x9100 then viewLog s ctx sub
  else viewFew s i ctx sub

/-- R385, R389: the value a read shows. WO entries read 0. -/
def odView (s : State) (ctx i sub : Nat) : Nat :=
  match odRow i sub with
  | none => 0
  | some r =>
    if r.acc = .wo then 0
    else if isSel i sub then selOf s ctx i sub
    else (computed s ctx i sub).getD (od s i sub)

end Sys2Proof.Machine
end

