-- ==== Sys2Proof/Machine/OdWrite.lean ====
section
/-! DEFINITION. Requests to the dictionary: the codes of R386 in their order, what each accepted write does, refusals
(R387, R395). -/

namespace Sys2Proof.Machine

/-! ### The codes of R386 -/

/-- Can the entry be reached on the requester's path (R311, R399, R423)? -/
def pathOk (s : State) (q : Req) (write : Bool) (i sub : Nat) : Bool :=
  if q.crest then
    !(decide (0x4200 ≤ i) && decide (i < 0x4240)) && decide (i ≠ 0xA000)
      && (!write || (decide (od s 0x9000 0x05 = 1) && !(decide (i = 0x9000) && decide (sub = 0x05))))
  else decide (q.who ≠ 0)

/-- R384: does a value fit its type? -/
def tyFits (t : OdTy) (v : Nat) : Bool :=
  match t with
  | .u8 => decide (v < 2 ^ 8)
  | .u16 => decide (v < 2 ^ 16)
  | .u32 => decide (v < 2 ^ 32)
  | .u64 => decide (v < 2 ^ 64)
  | .octets => decide (v < 2 ^ 64)
  | .bool => decide (v ≤ 1)

/-- Entries any write of which is answered OK, whatever value it carries: POOL_PEAK (R68), MIRROR_CTRL (R253). -/
def anyValue (i sub : Nat) : Bool :=
  (decide (i = 0x1100) && decide (sub = 0x05)) || (decide (0x8100 ≤ i) && decide (i < 0x8200) && decide (sub = 0x05))

/-- Is the unit of an RWS entry, or of an entry its chapter makes writable only while it is off, stopped? TV_STATE has a rule
of its own (R44). -/
def unitStopped (s : State) (ctx i sub : Nat) : Bool :=
  if 0x1110 ≤ i ∧ i < 0x1120 then !(ring s (i - 0x1110)).enabled
  else if 0x2000 ≤ i ∧ i < 0x2100 then decide ((region s (i - 0x2000)).state = 0) || decide (sub = 0x19)
  else if 0x2110 ≤ i ∧ i < 0x2120 then decide ((ridge s (i - 0x2110)).svc = .out)
  else if 0x2140 ≤ i ∧ i < 0x2148 then
    s.regions.entries.all (fun e => decide (e.2.state = 0) || decide (rOd s e.1 0x07 ≠ i - 0x2140))
  else if i = 0x2180 then decide ((ridge s (lunRidge (selOf s ctx 0x2180 0x01))).svc = .out)
  else if 0x3000 ≤ i ∧ i < 0x4000 then decide ((queue s (i - 0x3000)).state = .off)
  else if 0x4400 ≤ i ∧ i < 0x4480 then decide ((spur s ((i - 0x4400) / 2)).svc = .out)
  else if 0x8100 ≤ i ∧ i < 0x8200 then decide ((region s (i - 0x8100)).state = 0)
  else if i = 0x9000 then decide (od s 0x9000 0x01 = 0)
  else if i = 0x9200 then decide (od s 0x9200 0x01 = 0)
  else true

/-- Entries held to unitStopped: those marked RWS, NODE_ID (R402) and PORT_SEQ (R416). -/
def needsStop (r : OdRow) (i sub : Nat) : Bool :=
  decide (r.acc = .rws) || (decide (i = 0x9000) && decide (sub = 0x02)) || (decide (i = 0x9200) && decide (sub = 0x02))

/-- Is a write refused because a command runs (R273, R414)? -/
def odBusy (s : State) (i sub : Nat) : Bool :=
  (decide (i = 0x6000) && decide (1 ≤ sub) && decide (sub ≤ 8) && decide (od s 0x6000 0x09 % 4 = 1))
    || (decide (i = 0x9100) && decide (sub = 0x18) && s.ao.clear.isSome)

/-- Is the entry one that only the owner of the mailbox lock may write (R313)? -/
def ownerOnly (i sub : Nat) : Bool := decide (0x4200 ≤ i) && decide (i < 0x4240) && decide (2 ≤ sub) && decide (sub ≤ 10)

/-- Has a write-once entry been written (R413)? -/
def onceWritten (s : State) (i sub : Nat) : Bool := decide (i = 0x9100) && decide (sub = 0x1A) && s.ao.keyDesignated

/-- Ranges that are not one interval of fixed ends. -/
def rangeOk (s : State) (i sub v : Nat) : Bool :=
  match i, sub with
  | 0x4000, 0x0D => decide (v / 2 ^ 16 ≤ 67) && decide (v / 4096 % 16 = 0)
  | 0x5000, 0x02 => decide (v / 2 ^ 16 % 4096 ≤ 231)
  | 0x7000, 0x03 => decide (od s 0x7000 0x04 < v) && decide (v ≤ 20000)
  | 0x7000, 0x04 => decide (od s 0x7000 0x05 < v) && decide (v < od s 0x7000 0x03)
  | 0x7000, 0x05 => decide (3000 ≤ v) && decide (v < od s 0x7000 0x04)
  | 0x7100, 0x03 => decide (v < 1024) || decide (v = 0xFFFF)
  | 0x7200, 0x01 => decide (v + 5 < od s 0x7200 0x02)
  | 0x7200, 0x02 => decide (od s 0x7200 0x01 + 5 < v)
  | 0x9000, 0x03 => decide (v < 64) || decide (v = 0xFF)
  | 0x9000, 0x04 => decide (v < 64) || decide (v = 0xFF)
  | 0x9200, 0x02 => decide ((v + 2 ^ 32 - oldestSeq s) % 2 ^ 32 ≤ (s.ao.nextSeq + 2 ^ 32 - oldestSeq s) % 2 ^ 32)
  | 0xA000, 0x02 => memClass (v / 256 % 256)
  | _, _ =>
    if 0x2140 ≤ i ∧ i < 0x2148 ∧ sub = 0x01 then
      decide (v = 0) || (decide (1 ≤ od s i 0x02) && decide (od s i 0x02 ≤ 32) && decide (1 ≤ od s i 0x04) && decide (od s i 0x05 ≤ 31))
    else if 0x4200 ≤ i ∧ i < 0x4240 ∧ sub = 0x01 then decide (v = 0) || decide (v = 0xFF)
    else if 0x2110 ≤ i ∧ i < 0x2120 then true
    else true

/-- Is a value in range and of its type? -/
def valueOk (s : State) (r : OdRow) (i sub v : Nat) : Bool :=
  anyValue i sub || (tyFits r.ty v && decide (r.lo ≤ v) && decide (v ≤ r.hi) && rangeOk s i sub v)

/-- The code a write is answered with, before its owner has a say of its own (R386). -/
def writeCode (s : State) (q : Req) (i sub v : Nat) : Nat :=
  if ¬ pathOk s q true i sub then 7
  else match odRow i sub with
    | none => 1
    | some r =>
      if r.acc = .ro ∨ onceWritten s i sub then 2
      else if needsStop r i sub ∧ ¬ unitStopped s (reqCtx q) i sub then 3
      else if odBusy s i sub then 5
      else if ownerOnly i sub ∧ (spur s (i - 0x4200)).mbox.owner ≠ q.who then 6
      else if ¬ valueOk s r i sub v then 4
      else 0

/-! ### What accepted writes do -/

/-- Bits of a register that a write of 1 clears. -/
def clearBits (old v mask : Nat) : Nat := old - (old &&& v &&& mask)

/-- A write of QERR (R61), with the watermark evaluated again (R88). -/
def writeQerr (s : State) (q v : Nat) : State :=
  evalWatermark (setOd s (0x3000 + q) 0x03 (clearBits (qOd s q 0x03) v 0x3F)) q

/-- A write of WATERMARK (R88). -/
def writeWatermark (s : State) (q v : Nat) : State := evalWatermark (setOd s (0x3000 + q) 0x0C v) q

/-- A write of one of WORD0 to WORD5 (R170): the history of the selected LUN is taken apart again, group by group. -/
def writeTalus (s : State) (l n v : Nat) : State :=
  let t := talusBits s l
  let t := t - wordPart t n * 2 ^ (64 * n) + v * 2 ^ (64 * n)
  { s with talusCopy := (List.range 64).foldl (fun m g => m.set 0 (l * 64 + g) (t / 2 ^ (6 * g) % 64)) s.talusCopy }

/-- R174: firmware removes the selected poison map entry. -/
def removePoison (s : State) (ctx : Nat) : State := poisonLost s (selOf s ctx 0x21C0 0x01) (selOf s ctx 0x21C0 0x02)

/-- R222: firmware removes the selected half-erased entry; the record on flash stays. -/
def removeHalf (s : State) (ctx : Nat) : State :=
  modRidge s (selOf s ctx 0x2200 0x04) (fun x => { x with half := x.half.set {} (selOf s ctx 0x2200 0x05) {} })

/-- Change the mailbox of a spur. -/
def modMbox (s : State) (p : Nat) (f : Mbox → Mbox) : State := modSpur s p (fun x => { x with mbox := f x.mbox })

/-- R312: a write of LOCK: the owner's 0 releases it, 0xFF forces a release with a LOCK_FORCED record. -/
def writeLock (s : State) (p who v : Nat) : State :=
  let o := (spur s p).mbox.owner
  if v = 0xFF then
    if o = 0 then s else cairn (modMbox s p (fun m => { m with owner := 0 })) 0x43 (cu 1 p) 0xFFFF (o * 16 + who) 0 0 0 0
  else if v = 0 ∧ o = who then modMbox s p (fun m => { m with owner := 0 })
  else s

/-- R313: a write of IN_POST by the owner. -/
def postIn (s : State) (p v : Nat) : State :=
  modMbox s p (fun m =>
    if m.inState = 1 ∨ m.inState = 2 then { m with inRefused := true }
    else { m with inState := 1, inCode := v, inAck := 0, owner := 0 })

/-- R315: a write of OUT_ACK: it answers a POSTED message; an ack after the timeout is late. -/
def ackOut (s : State) (p v : Nat) : State :=
  modMbox s p (fun m =>
    if m.outState = 1 then { m with outState := 2, outAck := v }
    else if m.outState = 0 then { m with outLate := true }
    else m)

/-- R412 to R414: a write of 1 to CLEAR_CMD. -/
def startClear (s : State) (q : Req) : State :=
  let path := if q.crest then 2 else 1
  let n := s.ao.nonce.filter (nonceFresh s)
  let s := modAo s (fun a => { a with nonce := none })
  match n with
  | none => clearFail s path q.who 1 0
  | some (n0, n1) =>
    if s.ao.logFault then clearFail s path q.who 6 0
    else if od s 0x9100 0x1A = 0xFFFFFFFF then clearFail s path q.who 3 0
    else if ¬ s.keyReady then clearFail s path q.who 4 2
    else
      let label : List Byte := [0x43, 0x41, 0x49, 0x52, 0x4E, 0x43, 0x4C, 0x52]
      let msg := label ++ bytesOf 8 n0 ++ bytesOf 8 n1 ++ leBytes 8 (od s 0x1000 0x03)
      let s := modAo s (fun a => { a with clear := some ⟨1, path, q.who, n0, n1, 0, 0⟩ })
      keyStart (clearStatus s 0 0 1) (keyJobOf .clear 0 (od s 0x9100 0x1A) 0 msg)

/-- Send a RING_CHECK (R400). -/
def sendCheck (s : State) : State :=
  sendRing { s with crest := { s.crest with checkOut := true } } (nodeId s) 0xC 0 []

/-- R400: a write of 1 to Crestline's ENABLE joins the ring and sends a check; 0 leaves it. -/
def writeCrest (s : State) (v : Nat) : State :=
  let was := od s 0x9000 0x01
  let s := setOd s 0x9000 0x01 v
  if v = 1 then (if was = 1 then s else sendCheck { s with crest := { s.crest with state := 1 } })
  else
    let up := s.crest.state = 2
    let s := { s with crest := { s.crest with state := 0, checkOut := false } }
    if up then readyChange s 7 0 false 1 else s

/-- R408, R411: a write of the record port's ENABLE. With it off, records of the bypass queue wait for LOG_SINK alone. -/
def writeRecordPort (s : State) (v : Nat) : State :=
  let s := setOd s 0x9200 0x01 v
  if v = 1 then portSkip s
  else if s.ao.logFault ∧ s.ao.logTested then bypassTidy s
  else s

/-- R381, R460: a write that sets a peak to the value of now. -/
def writeTempPeak (s : State) (n : Nat) : State := setOd s (0x7210 + n) 0x02 (od s (0x7210 + n) 0x01)

/-- Accepted writes of indices below 0x3000 that do more than store. -/
def applyLow (s : State) (ctx i sub v : Nat) : Option State :=
  if i = 0x1100 ∧ sub = 0x05 then some (setOd s 0x1100 0x05 (poolUsed s))
  else if 0x1110 ≤ i ∧ i < 0x1120 ∧ sub = 0x01 then some (if v = 1 then enableRing s (i - 0x1110) else disableRing s (i - 0x1110))
  else if 0x2000 ≤ i ∧ i < 0x2100 ∧ sub = 0x01 then some (if v = 1 then enableRegion s (i - 0x2000) else disableRegion s (i - 0x2000))
  else if 0x2110 ≤ i ∧ i < 0x2120 ∧ sub = 0x01 then some (setOd s i 0x01 (v % 2 ^ 44))
  else if i = 0x2180 ∧ 2 ≤ sub ∧ sub ≤ 7 then some (writeTalus s (selOf s ctx 0x2180 0x01) (sub - 2) v)
  else if i = 0x21C0 ∧ sub = 0x08 then some (if v = 1 then removePoison s ctx else s)
  else if i = 0x2200 ∧ sub = 0x07 then some (if v = 1 then removeHalf s ctx else s)
  else none

/-- Accepted writes of queues, engines, mailboxes and channels. -/
def applyMid (s : State) (q : Req) (i sub v : Nat) : Option State :=
  if 0x3000 ≤ i ∧ i < 0x4000 then
    if sub = 0x01 then some (switchQueue s (i - 0x3000) v)
    else if sub = 0x03 then some (writeQerr s (i - 0x3000) v)
    else if sub = 0x0C then some (writeWatermark s (i - 0x3000) v)
    else none
  else if i = 0x4000 ∧ sub = 0x04 then some (imageStart s)
  else if 0x4010 ≤ i ∧ i < 0x4020 then
    if sub = 0x01 then some (if v = 1 then enableRidge s (i - 0x4010) else disableRidge s (i - 0x4010))
    else if sub = 0x02 then some (if v.testBit 4 then modRidge s (i - 0x4010) (fun x => { x with early := false }) else s)
    else none
  else if 0x4100 ≤ i ∧ i < 0x4140 then
    if sub = 0x01 then some (if v = 1 then enableSpur s (i - 0x4100) else disableSpur s (i - 0x4100))
    else if sub = 0x02 then some (if v.testBit 4 then modSpur s (i - 0x4100) (fun x => { x with early := false }) else s)
    else if sub = 0x08 then some (writeEngineFaulted s (i - 0x4100) v)
    else none
  else if 0x4180 ≤ i ∧ i < 0x4184 ∧ sub = 0x03 then some (if v = 1 then rearmSpare s (i - 0x4180) else s)
  else if 0x4200 ≤ i ∧ i < 0x4240 then
    let p := i - 0x4200
    if sub = 0x01 then some (writeLock s p q.who v)
    else if 2 ≤ sub ∧ sub ≤ 9 then
      some (modMbox s p (fun m => { m with inData := setAt (m.inData ++ List.replicate (8 - m.inData.length) 0) (sub - 2) (BitVec.ofNat 64 v) }))
    else if sub = 0x0A then some (postIn s p v)
    else if sub = 0x14 then
      some (modMbox s p (fun m => { m with outTimeout := m.outTimeout && !v.testBit 3, outLate := m.outLate && !v.testBit 4 }))
    else if sub = 0x15 then some (ackOut s p v)
    else none
  else if 0x4400 ≤ i ∧ i < 0x4480 ∧ sub = 0x05 then some (if v = 1 then rediscoverChan s (i - 0x4400) else s)
  else none

/-- ENABLE of a link is stored and takes its effect (R251). -/
def switchLink (s : State) (l v : Nat) : State :=
  let s := emit (setOd s (0x8010 + l) 0x01 v) (.linkEnable l (decide (v = 1)))
  if v = 1 then enableLink s l else disableLink s l

/-- Accepted writes of keys, power, start-up, Col, Crestline, the log and diagnostics. -/
def applyHigh (s : State) (q : Req) (i sub v : Nat) : Option State :=
  if 0x7140 ≤ i ∧ i < 0x7150 ∧ sub = 0x03 then some (idleHint s (i - 0x7140) v)
  else if 0x7210 ≤ i ∧ i < 0x7221 ∧ sub = 0x02 then some (writeTempPeak s (i - 0x7210))
  else if 0x8010 ≤ i ∧ i < 0x8012 then
    if sub = 0x01 then some (switchLink s (i - 0x8010) v)
    else if sub = 0x02 then some (if v.testBit 4 then modLink s (i - 0x8010) (fun x => { x with early := false }) else s)
    else none
  else if 0x8100 ≤ i ∧ i < 0x8200 ∧ sub = 0x05 then some (mirrorCtrl s (i - 0x8100) v)
  else if i = 0x6000 ∧ sub = 0x08 then some (keyCommand s (decide (v = 2)))
  else if i = 0x6000 ∧ sub = 0x15 then some (eraseSlot s v)
  else if i = 0x7000 ∧ sub = 0x02 then some (writeRailMin s)
  -- E_FIXED_UJ and the charge energies change D (R356, R358, R381)
  else if i = 0x7000 ∧ 0x09 ≤ sub ∧ sub ≤ 0x0D then some (peakDemand (setOd s i sub v))
  else if i = 0x7000 ∧ sub = 0x11 then some (writeDemandPeak s)
  else if i = 0x7000 ∧ sub = 0x14 then some (if v = 1 then startShutdown s else s)
  else if i = 0x7100 ∧ sub = 0x03 then some (dropPendingUnits s v)
  else if i = 0x9000 ∧ sub = 0x01 then some (writeCrest s v)
  else if i = 0x9100 ∧ sub = 0x0E then some (writeRate s (selOf s (reqCtx q) 0x9100 0x0D) v)
  else if i = 0x9100 ∧ sub = 0x13 then some (if v = 1 then requestNonce s else s)
  else if i = 0x9100 ∧ sub = 0x16 then some (modAo s (fun a => { a with code0 := BitVec.ofNat 64 v }))
  else if i = 0x9100 ∧ sub = 0x17 then some (modAo s (fun a => { a with code1 := BitVec.ofNat 64 v }))
  else if i = 0x9100 ∧ sub = 0x18 then some (if v = 1 then startClear s q else s)
  else if i = 0x9100 ∧ sub = 0x1A then some (modAo (setOd s 0x9100 0x1A v) (fun a => { a with keyDesignated := true }))
  else if i = 0x9200 ∧ sub = 0x01 then some (writeRecordPort s v)
  else if i = 0xA000 ∧ sub = 0x01 then some (injectEngine s v)
  else if i = 0xA000 ∧ sub = 0x02 then some (injectMem s v)
  else none

/-- The effect of an accepted write. An entry with none of its own is stored, a selector in the requester's context (R389). -/
def applyWrite (s : State) (q : Req) (i sub v : Nat) : State :=
  if isSel i sub then setSel s (reqCtx q) i sub v
  else if i < 0x3000 then (applyLow s (reqCtx q) i sub v).getD (setOd s i sub v)
  else if i < 0x5000 then (applyMid s q i sub v).getD (setOd s i sub v)
  else (applyHigh s q i sub v).getD (setOd s i sub v)

/-! ### Requests -/

/-- R387, R395: a refused write. -/
def refuseWrite (s : State) (q : Req) (i sub code : Nat) : State :=
  let s := count s 0x1020 0x01
  setOd s 0x1020 0x02 (i % 65536 * 2 ^ 48 + sub % 256 * 2 ^ 40 + code % 16 * 2 ^ 36 + (if q.crest then q.who % 64 * 2 ^ 30 else q.who % 16 * 2 ^ 26)
    + s.ao.timeUs % 2 ^ 26)

/-- A write has taken effect: its entry's storage is good again (R420). -/
def acceptWrite (t : State) (i sub : Nat) : State :=
  { t with badStore := t.badStore.filter (fun k => decide (k ≠ odKey i sub)) }

/-- Is the entry a TV_STATE, whose own rule says how a write is answered (R44)? -/
def isTvState (i sub : Nat) : Bool := decide (0x2000 ≤ i) && decide (i < 0x2100) && decide (sub = 0x19)

/-- One write: its code and the state after it. -/
def dictWrite (s : State) (q : Req) (i sub v : Nat) : Nat × State :=
  let c := writeCode s q i sub v
  if c ≠ 0 then (c, refuseWrite s q i sub c)
  else if isTvState i sub then
    let (c, t) := writeTv s (i - 0x2000) (selOf s (reqCtx q) i 0x18) v
    if c ≠ 0 then (c, refuseWrite s q i sub c) else (0, acceptWrite t i sub)
  else (0, acceptWrite (applyWrite s q i sub v) i sub)

/-- R312: a read of LOCK makes the reader the owner of a free lock; the owner reads 0, another the owner's ID. -/
def readLock (s : State) (p who : Nat) : Nat × State :=
  let o := (spur s p).mbox.owner
  if o = 0 ∨ o = who then (0, modMbox s p (fun m => { m with owner := who })) else (o, s)

/-- One read: its code, its value, and the state after it (R385). -/
def dictRead (s : State) (q : Req) (i sub : Nat) : Nat × Nat × State :=
  if ¬ pathOk s q false i sub then (7, 0, s)
  else if odRow i sub = none then (1, 0, s)
  else if s.badStore.contains (odKey i sub) then (9, 0, s)
  else if 0x4200 ≤ i ∧ i < 0x4240 ∧ sub = 0x01 then
    let (v, t) := readLock s (i - 0x4200) q.who
    (0, v, t)
  else (0, odView s (reqCtx q) i sub, s)

end Sys2Proof.Machine
end

