-- ==== Sys2Proof/Machine/Dictionary.lean ====
section
/-! DEFINITION. Writes on the control port (R386, R387, R423, R430, R431), one meaning for each row of the table. Every request
is answered with its code; a write's response carries no value. -/

namespace Sys2Proof.Machine

/-- A control-port write by a master: it takes effect or is refused, and is answered (R386, R387, R430). -/
def ctlWrite (s : State) (mid i sub v : Nat) : State :=
  emit (dictWrite s ⟨false, mid⟩ i sub v).2 (.ctl mid (dictWrite s ⟨false, mid⟩ i sub v).1 0)

/-- A control-port read: its value rides with code OK only (R430). -/
def ctlRead (s : State) (mid i sub : Nat) : State :=
  emit (dictRead s ⟨false, mid⟩ i sub).2.2
    (.ctl mid (dictRead s ⟨false, mid⟩ i sub).1 (BitVec.ofNat 64 (dictRead s ⟨false, mid⟩ i sub).2.1))

/-- MBOX_LOCK_READ (R312): a read of LOCK. -/
def execMboxLockRead (mid sp : Nat) (s : State) : Host.Outcome State Fault Refusal := gate s (ctlRead s mid (0x4200 + sp) 0x01)

/-- DICTIONARY_WRITE (R386, R387, R431): a write at a byte address of the window. An access that is not a full, aligned word is
answered WIDTH. -/
def execDictionaryWrite (mid addr be data : Nat) (s : State) : Host.Outcome State Fault Refusal :=
  gate s (
    if be ≠ 0xFF ∨ addr % 8 ≠ 0 then
      emit (refuseWrite s ⟨false, mid⟩ (addr / 2048 % 65536) (addr / 8 % 256) 8) (.ctl mid 8 0)
    else ctlWrite s mid (addr / 2048 % 65536) (addr / 8 % 256) data)

/-- QUEUE_ENABLE (R62): a write of 1 to a queue's ENABLE. -/
def execQueueEnable (mid q : Nat) (s : State) : Host.Outcome State Fault Refusal := gate s (ctlWrite s mid (0x3000 + q) 0x01 1)

/-- QUEUE_DISABLE (R63): a write of 0 to a queue's ENABLE. -/
def execQueueDisable (mid q : Nat) (s : State) : Host.Outcome State Fault Refusal := gate s (ctlWrite s mid (0x3000 + q) 0x01 0)

/-- QERR_WRITE (R61): a write to QERR clears the bits it carries as 1. -/
def execQerrWrite (mid q v : Nat) (s : State) : Host.Outcome State Fault Refusal := gate s (ctlWrite s mid (0x3000 + q) 0x03 v)

/-- WATERMARK_WRITE (R88). -/
def execWatermarkWrite (mid q v : Nat) (s : State) : Host.Outcome State Fault Refusal := gate s (ctlWrite s mid (0x3000 + q) 0x0C v)

/-- POOL_PEAK_WRITE (R68): any write sets it to POOL_USED. -/
def execPoolPeakWrite (mid v : Nat) (s : State) : Host.Outcome State Fault Refusal := gate s (ctlWrite s mid 0x1100 0x05 v)

/-- NOTICE_RING_ENABLE (R80). -/
def execNoticeRingEnable (mid n : Nat) (s : State) : Host.Outcome State Fault Refusal := gate s (ctlWrite s mid (0x1110 + n) 0x01 1)

/-- NOTICE_RING_DISABLE (R80). -/
def execNoticeRingDisable (mid n : Nat) (s : State) : Host.Outcome State Fault Refusal := gate s (ctlWrite s mid (0x1110 + n) 0x01 0)

/-- REGION_ENABLE (R40). -/
def execRegionEnable (mid r : Nat) (s : State) : Host.Outcome State Fault Refusal := gate s (ctlWrite s mid (0x2000 + r) 0x01 1)

/-- REGION_DISABLE (R41). -/
def execRegionDisable (mid r : Nat) (s : State) : Host.Outcome State Fault Refusal := gate s (ctlWrite s mid (0x2000 + r) 0x01 0)

/-- TV_STATE_WRITE (R44): a write of the Traverse word of the LUN the requester's TV_LUN selects. -/
def execTvStateWrite (mid r v : Nat) (s : State) : Host.Outcome State Fault Refusal := gate s (ctlWrite s mid (0x2000 + r) 0x19 v)

/-- POISON_REMOVE (R175): a write of 1 to REMOVE. -/
def execPoisonRemove (mid : Nat) (s : State) : Host.Outcome State Fault Refusal := gate s (ctlWrite s mid 0x21C0 0x08 1)

/-- HE_REMOVE (R222): a write of 1 to HE_REMOVE. -/
def execHeRemove (mid : Nat) (s : State) : Host.Outcome State Fault Refusal := gate s (ctlWrite s mid 0x2200 0x07 1)

/-- LINK_ENABLE (R251). -/
def execLinkEnable (mid l : Nat) (s : State) : Host.Outcome State Fault Refusal := gate s (ctlWrite s mid (0x8010 + l) 0x01 1)

/-- LINK_DISABLE (R251). -/
def execLinkDisable (mid l : Nat) (s : State) : Host.Outcome State Fault Refusal := gate s (ctlWrite s mid (0x8010 + l) 0x01 0)

/-- MIRROR_RESYNC (R252): a write of 1 to MIRROR_CTRL. -/
def execMirrorResync (mid r : Nat) (s : State) : Host.Outcome State Fault Refusal := gate s (ctlWrite s mid (0x8100 + r) 0x05 1)

/-- MIRROR_SYNCED (R252): a write of 2 to MIRROR_CTRL. -/
def execMirrorSynced (mid r : Nat) (s : State) : Host.Outcome State Fault Refusal := gate s (ctlWrite s mid (0x8100 + r) 0x05 2)

/-- MIRROR_DEGRADE (R252): a write of 3 to MIRROR_CTRL. -/
def execMirrorDegrade (mid r : Nat) (s : State) : Host.Outcome State Fault Refusal := gate s (ctlWrite s mid (0x8100 + r) 0x05 3)

/-- LOAD (R271, R273): a write of 1 to CMD. -/
def execLoad (mid : Nat) (s : State) : Host.Outcome State Fault Refusal := gate s (ctlWrite s mid 0x6000 0x08 1)

/-- DERIVE (R272, R273): a write of 2 to CMD. -/
def execDerive (mid : Nat) (s : State) : Host.Outcome State Fault Refusal := gate s (ctlWrite s mid 0x6000 0x08 2)

/-- ERASE_SLOT (R267). -/
def execEraseSlot (mid v : Nat) (s : State) : Host.Outcome State Fault Refusal := gate s (ctlWrite s mid 0x6000 0x15 v)

/-- REARM (R320): a write of 1 to a spare's REARM. -/
def execRearm (mid g : Nat) (s : State) : Host.Outcome State Fault Refusal := gate s (ctlWrite s mid (0x4180 + g) 0x03 1)

/-- IMAGE_CMD (R309). -/
def execImageCmd (mid v : Nat) (s : State) : Host.Outcome State Fault Refusal := gate s (ctlWrite s mid 0x4000 0x04 v)

/-- SPUR_ENABLE (R321, R322). -/
def execSpurEnable (mid sp : Nat) (s : State) : Host.Outcome State Fault Refusal := gate s (ctlWrite s mid (0x4100 + sp) 0x01 1)

/-- SPUR_DISABLE (R321). -/
def execSpurDisable (mid sp : Nat) (s : State) : Host.Outcome State Fault Refusal := gate s (ctlWrite s mid (0x4100 + sp) 0x01 0)

/-- RIDGE_ENABLE (R321, R322). -/
def execRidgeEnable (mid r : Nat) (s : State) : Host.Outcome State Fault Refusal := gate s (ctlWrite s mid (0x4010 + r) 0x01 1)

/-- RIDGE_DISABLE (R31, R321). -/
def execRidgeDisable (mid r : Nat) (s : State) : Host.Outcome State Fault Refusal := gate s (ctlWrite s mid (0x4010 + r) 0x01 0)

/-- ENGINE_FAULTED_WRITE (R321): a write of 0. -/
def execEngineFaultedWrite (mid sp : Nat) (s : State) : Host.Outcome State Fault Refusal := gate s (ctlWrite s mid (0x4100 + sp) 0x08 0)

/-- MBOX_LOCK_RELEASE (R312): a write of 0 to LOCK. -/
def execMboxLockRelease (mid sp : Nat) (s : State) : Host.Outcome State Fault Refusal := gate s (ctlWrite s mid (0x4200 + sp) 0x01 0)

/-- MBOX_LOCK_FORCE (R312): a write of 0xFF to LOCK. -/
def execMboxLockForce (mid sp : Nat) (s : State) : Host.Outcome State Fault Refusal := gate s (ctlWrite s mid (0x4200 + sp) 0x01 0xFF)

/-- IN_DATA_WRITE (R313): a write of IN_DATA word w, 0 to 7. -/
def execInDataWrite (mid sp w v : Nat) (s : State) : Host.Outcome State Fault Refusal := gate s (ctlWrite s mid (0x4200 + sp) (0x02 + w) v)

/-- IN_POST (R313). -/
def execInPost (mid sp v : Nat) (s : State) : Host.Outcome State Fault Refusal := gate s (ctlWrite s mid (0x4200 + sp) 0x0A v)

/-- OUT_ACK (R315). -/
def execOutAck (mid sp v : Nat) (s : State) : Host.Outcome State Fault Refusal := gate s (ctlWrite s mid (0x4200 + sp) 0x15 v)

/-- REDISCOVER (R341): a write of 1. -/
def execRediscover (mid c : Nat) (s : State) : Host.Outcome State Fault Refusal := gate s (ctlWrite s mid (0x4400 + c) 0x05 1)

/-- SHUTDOWN (R369): a write of 1. -/
def execShutdown (mid : Nat) (s : State) : Host.Outcome State Fault Refusal := gate s (ctlWrite s mid 0x7000 0x14 1)

/-- DROP_PENDING (R374). -/
def execDropPending (mid v : Nat) (s : State) : Host.Outcome State Fault Refusal := gate s (ctlWrite s mid 0x7100 0x03 v)

/-- IDLE_HINT_US (R378). -/
def execIdleHintUs (mid r v : Nat) (s : State) : Host.Outcome State Fault Refusal := gate s (ctlWrite s mid (0x7140 + r) 0x03 v)

/-- RAIL_MIN_MV_WRITE (R381). -/
def execRailMinMvWrite (mid v : Nat) (s : State) : Host.Outcome State Fault Refusal := gate s (ctlWrite s mid 0x7000 0x02 v)

/-- DEMAND_PEAK_WRITE (R381). -/
def execDemandPeakWrite (mid v : Nat) (s : State) : Host.Outcome State Fault Refusal := gate s (ctlWrite s mid 0x7000 0x11 v)

/-- CRESTLINE_ENABLE (R400): a write of 1 to ENABLE. -/
def execCrestlineEnable (mid : Nat) (s : State) : Host.Outcome State Fault Refusal := gate s (ctlWrite s mid 0x9000 0x01 1)

/-- PORT_SEQ_WRITE (R408). -/
def execPortSeqWrite (mid v : Nat) (s : State) : Host.Outcome State Fault Refusal := gate s (ctlWrite s mid 0x9200 0x02 v)

/-- RATE_WRITE (R406): the rate of the code the requester's RATE_SEL selects. -/
def execRateWrite (mid v : Nat) (s : State) : Host.Outcome State Fault Refusal := gate s (ctlWrite s mid 0x9100 0x0E v)

/-- NONCE_REQ (R412): a write of 1. -/
def execNonceReq (mid : Nat) (s : State) : Host.Outcome State Fault Refusal := gate s (ctlWrite s mid 0x9100 0x13 1)

/-- CLEAR_CMD (R414): a write of 1. -/
def execClearCmd (mid : Nat) (s : State) : Host.Outcome State Fault Refusal := gate s (ctlWrite s mid 0x9100 0x18 1)

/-- CLEAR_KEY_INDEX_WRITE (R413): write-once. -/
def execClearKeyIndexWrite (mid v : Nat) (s : State) : Host.Outcome State Fault Refusal := gate s (ctlWrite s mid 0x9100 0x1A v)

/-- INJECT_ENGINE (R422). -/
def execInjectEngine (mid v : Nat) (s : State) : Host.Outcome State Fault Refusal := gate s (ctlWrite s mid 0xA000 0x01 v)

/-- INJECT_MEM (R422). -/
def execInjectMem (mid v : Nat) (s : State) : Host.Outcome State Fault Refusal := gate s (ctlWrite s mid 0xA000 0x02 v)

/-- TEMP_PEAK_WRITE (R460). -/
def execTempPeakWrite (mid n v : Nat) (s : State) : Host.Outcome State Fault Refusal := gate s (ctlWrite s mid (0x7210 + n) 0x02 v)

end Sys2Proof.Machine
end

