-- ==== Sys2Proof/Machine/Crestline.lean ====
section
/-! DEFINITION. The Crestline node (R396 to R402, R433): frames that arrive, requests to the dictionary, ring checks. -/

namespace Sys2Proof.Machine

/-! ### Frames (R396) -/

/-- Symbol n of a frame. -/
def symAt (l : List (BitVec 16)) (n : Nat) : BitVec 16 := l.getD n 0
/-- DST. -/
def symDst (l : List (BitVec 16)) : Nat := bitsOf (symAt l 0) 15 10
/-- SRC. -/
def symSrc (l : List (BitVec 16)) : Nat := bitsOf (symAt l 0) 9 4
/-- KIND. -/
def symKind (l : List (BitVec 16)) : Nat := bitsOf (symAt l 0) 3 0
/-- TAG. -/
def symTag (l : List (BitVec 16)) : Nat := bitsOf (symAt l 1) 15 8
/-- LEN. -/
def symLen (l : List (BitVec 16)) : Nat := bitsOf (symAt l 1) 7 0
/-- Four symbols from n on, as a value. -/
def symWord (l : List (BitVec 16)) (n : Nat) : Nat :=
  (symAt l n).toNat + (symAt l (n + 1)).toNat * 2 ^ 16 + (symAt l (n + 2)).toNat * 2 ^ 32 + (symAt l (n + 3)).toNat * 2 ^ 48

/-- Is a frame 4 + LEN symbols long (R433)? -/
def symWhole (l : List (BitVec 16)) : Bool := decide (l.length = 4 + symLen l)

/-- Does its CRC hold? -/
def symIntact (l : List (BitVec 16)) : Bool :=
  let n := 2 + symLen l
  decide (crc32c (symBytes (l.take n)) = (symAt l (n + 1)) ++ (symAt l n))

/-- Is LEN the one of its kind (R397)? -/
def symFits (l : List (BitVec 16)) : Bool :=
  match symKind l with
  | 1 => decide (symLen l = 2)
  | 2 => decide (symLen l = 6)
  | 3 =>
    let n := bitsOf (symAt l 3) 7 0
    (decide (n = 1) || decide (n = 2)) && decide (symLen l = 2 + 5 * n)
  | _ => false

/-- What becomes of a frame that arrives (R397, R398, R433). -/
inductive FrameFate where
  | forward | check | returned | badLen | badCrc | badKind | request
deriving DecidableEq, Repr

/-- A node that is off forwards everything; otherwise SRC and DST decide. -/
def frameFate (s : State) (l : List (BitVec 16)) : FrameFate :=
  let me := nodeId s
  if od s 0x9000 0x01 = 0 then .forward
  else if symDst l ≠ me ∧ symSrc l ≠ me then .forward
  else if symSrc l = me ∧ symKind l = 0xC ∧ symDst l = me ∧ symWhole l ∧ symLen l = 0 ∧ symIntact l then .check
  else if symSrc l = me ∧ (symKind l ≠ 0xC ∨ symDst l ≠ me) then .returned
  else if ¬ symWhole l then .badLen
  else if ¬ symIntact l then .badCrc
  else if symFits l then .request
  else .badKind

/-! ### Requests (R397, R399) -/

/-- A request is answered: RESPONSE to its source with its tag (R397). -/
def respond (s : State) (l : List (BitVec 16)) (code v : Nat) : State :=
  sendRing (count s 0x9000 0x08) (symSrc l) 0x8 (symTag l) (BitVec.ofNat 16 (code % 16) :: symbolsOf 4 v)

/-- The requester of a frame. -/
def ringReq (l : List (BitVec 16)) : Req := ⟨true, symSrc l⟩

/-- R399: a ninth request is answered BUSY at once, and counted in DISCARDED too (R402); a WRITE so answered is a refused write (R387,
R395). -/
def answerBusy (s : State) (l : List (BitVec 16)) : State :=
  let s := count s 0x9000 0x0B
  respond (if symKind l = 2 then refuseWrite s (ringReq l) (symAt l 2).toNat (bitsOf (symAt l 3) 15 8) 5 else s) l 5 0

/-- R399: a request arrives: true when there is room among the eight the block holds. How many of those received since the last
microsecond began are still unanswered the spec leaves to timing (R391): a free value. -/
def takeRequest (s : State) (l : List (BitVec 16)) : Bool × State :=
  let total := s.crest.askedOld + s.crest.asked
  let still := Config.freePick s.free % (total + 1)
  let s := { s with free := s.free + 1 }
  if still ≥ 8 then (false, answerBusy s l)
  else (true, { s with crest := { s.crest with askedOld := still - s.crest.asked, asked := min still s.crest.asked + 1 } })

/-- A request that finds room is carried out. -/
def ringRequest (s : State) (l : List (BitVec 16)) (act : State → State) : State :=
  let r := takeRequest s l
  if r.1 then act r.2 else r.2

/-- READ. DESIGN CHOICE (log entry 41): bits [7:0] of symbol 1, zero by R397, are not looked at, here and in a WRITE; whether a frame
that sets them is discarded the spec does not say. -/
def ringRead (s : State) (l : List (BitVec 16)) : State :=
  let (c, v, t) := dictRead s (ringReq l) (symAt l 2).toNat (bitsOf (symAt l 3) 15 8)
  respond t l c v

/-- WRITE. -/
def ringWrite (s : State) (l : List (BitVec 16)) : State :=
  let (c, t) := dictWrite s (ringReq l) (symAt l 2).toNat (bitsOf (symAt l 3) 15 8) (symWord l 4)
  respond t l c 0

/-- One selector of a SELECT_READ: a subindex that is no selector of the index is answered NO_ENTRY. -/
def ringSelect (l : List (BitVec 16)) (x : Nat × State) (k : Nat) : Nat × State :=
  if x.1 ≠ 0 then x
  else
    let i := (symAt l 2).toNat
    let sub := bitsOf (symAt l (4 + 5 * k)) 15 8
    if pathOk x.2 (ringReq l) true i sub ∧ ¬ isSel i sub then (1, refuseWrite x.2 (ringReq l) i sub 1)
    else dictWrite x.2 (ringReq l) i sub (symWord l (5 + 5 * k))

/-- SELECT_READ (R399): the selectors go to context 0, then the view entry is read, as one request. -/
def ringSelectRead (s : State) (l : List (BitVec 16)) : State :=
  let (c, t) := (List.range (bitsOf (symAt l 3) 7 0)).foldl (ringSelect l) (0, s)
  if c ≠ 0 then respond t l c 0
  else
    let (c, v, t) := dictRead t (ringReq l) (symAt l 2).toNat (bitsOf (symAt l 3) 15 8)
    respond t l c v

/-- READ (R397, R399). -/
def execCrestRead (syms : List (BitVec 16)) (s : State) : Host.Outcome State Fault Refusal :=
  gate s (if frameFate s syms = .request ∧ symKind syms = 1 then ringRequest s syms (fun s => ringRead s syms) else s)

/-- WRITE (R397, R399). -/
def execCrestWrite (syms : List (BitVec 16)) (s : State) : Host.Outcome State Fault Refusal :=
  gate s (if frameFate s syms = .request ∧ symKind syms = 2 then ringRequest s syms (fun s => ringWrite s syms) else s)

/-- SELECT_READ (R399). -/
def execSelectRead (syms : List (BitVec 16)) (s : State) : Host.Outcome State Fault Refusal :=
  gate s (if frameFate s syms = .request ∧ symKind syms = 3 then ringRequest s syms (fun s => ringSelectRead s syms) else s)

/-- FRAME_FORWARD (R398, R433): the frame goes on unchanged. -/
def execFrameForward (syms : List (BitVec 16)) (s : State) : Host.Outcome State Fault Refusal :=
  gate s (if frameFate s syms = .forward then emit s (.crest syms) else s)

/-- DISCARDED_FRAME (R397): no response; DISCARDED or CRC_ERRORS counts it. -/
def execDiscardedFrame (syms : List (BitVec 16)) (s : State) : Host.Outcome State Fault Refusal :=
  gate s (match frameFate s syms with
    | .badLen | .badKind => count s 0x9000 0x0B
    | .badCrc => count s 0x9000 0x09
    | .forward | .check | .returned | .request => s)

/-- RETURNING_FRAME (R398): a frame of this block's that nobody took. -/
def execReturningFrame (syms : List (BitVec 16)) (s : State) : Host.Outcome State Fault Refusal :=
  gate s (if frameFate s syms = .returned then count s 0x9000 0x0A else s)

/-! ### Ring checks (R400) -/

/-- RING_CHECK (R400): CHECK_MS, or 100 µs while DOWN, have passed. -/
def execRingCheck (s : State) : Host.Outcome State Fault Refusal :=
  gate s (if od s 0x9000 0x01 = 1 ∧ ¬ s.crest.checkOut then sendCheck s else s)

/-- R401: the NOTICE frames that waited go out. -/
def flushNotices (s : State) : State :=
  let ws := s.crest.notices
  let s := { s with crest := { s.crest with notices := [] } }
  if od s 0x9000 0x03 = 0xFF then s else ws.foldl (fun s w => recordFrame s (od s 0x9000 0x03) 0x9 w) s

/-- RING_CHECK_RETURN (R398, R400): the check has come round in ns nanoseconds. -/
def execRingCheckReturn (ns : Nat) (syms : List (BitVec 16)) (s : State) : Host.Outcome State Fault Refusal :=
  gate s (if frameFate s syms = .check ∧ s.crest.checkOut then
    let was := s.crest.state
    let s := setOd { s with crest := { s.crest with checkOut := false, state := 2 } } 0x9000 0x0C (sat (2 ^ 32 - 1) ns)
    if was = 2 then s else bypassSink (flushNotices (readyChange s 7 0 true 0))
  else s)

/-- RING_CHECK_TIMEOUT (R400): 20 µs have passed: the ring is DOWN. -/
def execRingCheckTimeout (s : State) : Host.Outcome State Fault Refusal :=
  gate s (if s.crest.checkOut then
    let was := s.crest.state
    let s := { s with crest := { s.crest with checkOut := false, state := 3 } }
    if was = 2 then readyChange s 7 0 false 5 else s
  else s)

end Sys2Proof.Machine
end

