-- ==== Sys2Proof/Machine/Fetch.lean ====
section
/-! DEFINITION. Arbitration and fetch turns (R66 to R68): which queue the Gate fetches from, and how many entries it takes. -/

namespace Sys2Proof.Machine

/-- R17: the queue's next entry needs places in the hold store, and the store has not got them. -/
def holdStalls (s : State) (q : Nat) : Bool :=
  match frontEnt (queue s q) with
  | some e => e.arrived && !holdFits s e
  | none => false

/-- R67: room of a queue, with the BURST of this round. -/
def qRoom (s : State) (q burst : Nat) : Nat :=
  let x := queue s q
  min (min (qRung s q) (qOd s q 0x09 - x.ents.length)) (min (burst - unadmitted x) (32768 - poolUsed s))

/-- R66: is a queue eligible for a fetch turn? -/
def eligible (s : State) (q burst : Nat) : Bool :=
  let x := queue s q
  fetchOpen s && decide (x.state = .running) && decide (qRoom s q burst > 0) && !ledgerStalled s q && !holdStalls s q && !fenceWaits x

/-- Credit and BURST of a queue in the round under way; a queue whose settings were at their defaults when the round began
is not listed. -/
def creditOf (s : State) (q : Nat) : Nat × Nat :=
  match s.credit.find? (fun e => e.1 = q) with
  | some e => e.2
  | none => (1, 4)

/-- Set the credit left. -/
def setCredit (s : State) (q c : Nat) : State :=
  { s with credit := (q, c, (creditOf s q).2) :: s.credit.filter (fun e => e.1 ≠ q) }

/-- Start a round: every queue has WEIGHT credit, the search begins at the starting queue. -/
def startRound (s : State) : State :=
  let qs := (s.od.keys.map (fun k => k / 256)).filter (fun i => decide (0x3000 ≤ i) && decide (i < 0x4000))
  { s with roundOpen := true, arbNext := s.arbFirst,
           credit := qs.eraseDups.map (fun i => (i - 0x3000, qOd s (i - 0x3000) 0x07, qOd s (i - 0x3000) 0x08)) }

/-- The queue whose turn it is: the first at or after the search position, wrapping, that is eligible with credit. -/
def turnQueue (s : State) : Option Nat :=
  (s.queues.keys.filter (fun q => decide ((creditOf s q).1 > 0) && eligible s q (creditOf s q).2)).foldl
    (fun b q => match b with
      | none => some q
      | some b => if (q + 4096 - s.arbNext) % 4096 < (b + 4096 - s.arbNext) % 4096 then some q else some b) none

/-- The reads of n slots from an index: split at the ring end (R67) and at 4,096-byte boundaries (R426). -/
def fetchReads (s : State) (q i n : Nat) : List (Nat × Nat) :=
  let size := 2 ^ qOd s q 0x05
  let s0 := i % size
  let n1 := min n (size - s0)
  fabPieces 3 (qOd s q 0x04 + s0 * 64) (n1 * 64) ++ fabPieces 3 (qOd s q 0x04) ((n - n1) * 64)

/-- Take n entries of a queue into flight, one request per piece. DESIGN CHOICE (log entry 51): each piece that R426 cuts at a 4,096-byte
boundary is a fetch read with a number of its own, so one that fails drops itself and what follows; R67 speaks of one read. -/
def fetchPiece (q : Nat) (s : State) (piece : Nat × Nat) : State :=
  let x := queue s q
  let rd := x.nextRd
  let new := (List.range (piece.2 / 64)).map (fun j =>
    ({ idx := (x.fetch + j) % 65536, rd := rd, place := (Config.freePick s.free + j) % 32768 } : Ent))
  let s := modQueue { s with free := s.free + 1 } q (fun x =>
    { x with fetch := (x.fetch + piece.2 / 64) % 65536, nextRd := rd + 1, ents := x.ents ++ new })
  fabIssue s false piece.1 piece.2 [] (.fetch q rd)

/-- R68: keep POOL_PEAK. -/
def poolPeak (s : State) : State :=
  if poolUsed s > od s 0x1100 0x05 then setOd s 0x1100 0x05 (poolUsed s) else s

/-- One fetch turn of a queue (R67). -/
def fetchTurn (s : State) (q : Nat) : State :=
  let (c, b) := creditOf s q
  let n := min (min b c) (qRoom s q b)
  let s := (fetchReads s q (queue s q).fetch n).foldl (fetchPiece q) s
  poolPeak { setCredit s q (c - n) with arbNext := (q + 1) % 4096 }

/-- FETCH_TURN (R67): the next eligible queue takes its turn; where none is left the round ends and the next one begins. -/
def execFetchTurn (s : State) : Host.Outcome State Fault Refusal :=
  gate s (
    let s := if s.roundOpen then s else startRound s
    match turnQueue s with
    | some q => fetchTurn s q
    | none =>
      let s := startRound { s with arbFirst := (s.arbFirst + 1) % 4096 }
      match turnQueue s with
      | some q => fetchTurn s q
      | none => s)

end Sys2Proof.Machine
end

