-- ==== Sys2Proof/Machine/Dispatch.lean ====
section
/-! DEFINITION. The one dispatch from a command to its meaning: an arm per constructor of Instr. -/

namespace Sys2Proof.Machine

def exec (i : Instr) (s : State) : Host.Outcome State Fault Refusal :=
  match i with
  | .doorbellWrite off len data => Sys2Proof.Machine.execDoorbellWrite off len data s
  | .tread off len tag => Sys2Proof.Machine.execTread off len tag s
  | .fetchTurn => Sys2Proof.Machine.execFetchTurn s
  | .entryFetchResponse tag err data => Sys2Proof.Machine.execEntryFetchResponse tag err data s
  | .lineRead q => Sys2Proof.Machine.execLineRead q s
  | .sectorRead q => Sys2Proof.Machine.execSectorRead q s
  | .pageRead q => Sys2Proof.Machine.execPageRead q s
  | .gatherLineRead q => Sys2Proof.Machine.execGatherLineRead q s
  | .lineWrite q => Sys2Proof.Machine.execLineWrite q s
  | .unitOpen q => Sys2Proof.Machine.execUnitOpen q s
  | .unitCommit q => Sys2Proof.Machine.execUnitCommit q s
  | .pageProgram q => Sys2Proof.Machine.execPageProgram q s
  | .erase q => Sys2Proof.Machine.execErase q s
  | .copyback q => Sys2Proof.Machine.execCopyback q s
  | .scrubRange q => Sys2Proof.Machine.execScrubRange q s
  | .repairServe q => Sys2Proof.Machine.execRepairServe q s
  | .fence q => Sys2Proof.Machine.execFence q s
  | .getFeatures step => Sys2Proof.Machine.execGetFeatures step s
  | .setFeatures step => Sys2Proof.Machine.execSetFeatures step s
  | .lunGetFeatures step => Sys2Proof.Machine.execLunGetFeatures step s
  | .lunSetFeatures step => Sys2Proof.Machine.execLunSetFeatures step s
  | .integratorOpcode q => Sys2Proof.Machine.execIntegratorOpcode q s
  | .holdTimeout n => Sys2Proof.Machine.execHoldTimeout n s
  | .descriptorPop spur ctx => Sys2Proof.Machine.execDescriptorPop spur ctx s
  | .retireEntry q => Sys2Proof.Machine.execRetireEntry q s
  | .statusWriteResponse tag err => Sys2Proof.Machine.execStatusWriteResponse tag err s
  | .doneWordTimer q => Sys2Proof.Machine.execDoneWordTimer q s
  | .doneWordResponse tag err => Sys2Proof.Machine.execDoneWordResponse tag err s
  | .queueEnable mid q => Sys2Proof.Machine.execQueueEnable mid q s
  | .queueDisable mid q => Sys2Proof.Machine.execQueueDisable mid q s
  | .queueOff q => Sys2Proof.Machine.execQueueOff q s
  | .qerrWrite mid q v => Sys2Proof.Machine.execQerrWrite mid q v s
  | .watermarkWrite mid q v => Sys2Proof.Machine.execWatermarkWrite mid q v s
  | .poolPeakWrite mid v => Sys2Proof.Machine.execPoolPeakWrite mid v s
  | .fenceComplete q => Sys2Proof.Machine.execFenceComplete q s
  | .noticeRingEnable mid n => Sys2Proof.Machine.execNoticeRingEnable mid n s
  | .noticeRingDisable mid n => Sys2Proof.Machine.execNoticeRingDisable mid n s
  | .noticeRecordWrite n => Sys2Proof.Machine.execNoticeRecordWrite n s
  | .noticeRecordResponse tag err => Sys2Proof.Machine.execNoticeRecordResponse tag err s
  | .tailWordResponse tag err => Sys2Proof.Machine.execTailWordResponse tag err s
  | .messageWriteResponse tag err => Sys2Proof.Machine.execMessageWriteResponse tag err s
  | .msgHoldoffExpiry n => Sys2Proof.Machine.execMsgHoldoffExpiry n s
  | .headWordReread n => Sys2Proof.Machine.execHeadWordReread n s
  | .headWordResponse tag err v => Sys2Proof.Machine.execHeadWordResponse tag err v s
  | .regionEnable mid r => Sys2Proof.Machine.execRegionEnable mid r s
  | .regionDisable mid r => Sys2Proof.Machine.execRegionDisable mid r s
  | .regionStopped r => Sys2Proof.Machine.execRegionStopped r s
  | .tvStateWrite mid r v => Sys2Proof.Machine.execTvStateWrite mid r v s
  | .gapMoveCommit r lun => Sys2Proof.Machine.execGapMoveCommit r lun s
  | .portPhaseSelect spur port => Sys2Proof.Machine.execPortPhaseSelect spur port s
  | .statusPoll lun byte => Sys2Proof.Machine.execStatusPoll lun byte s
  | .busyTimeout lun us => Sys2Proof.Machine.execBusyTimeout lun us s
  | .arrayReadDone lun => Sys2Proof.Machine.execArrayReadDone lun s
  | .slotReceived spur port slot => Sys2Proof.Machine.execSlotReceived spur port slot s
  | .readDataWriteResponse tag err => Sys2Proof.Machine.execReadDataWriteResponse tag err s
  | .holdWindowExpiry entry => Sys2Proof.Machine.execHoldWindowExpiry entry s
  | .resumeRunElapsed lun => Sys2Proof.Machine.execResumeRunElapsed lun s
  | .suspendObserved lun => Sys2Proof.Machine.execSuspendObserved lun s
  | .suspendPollTimeout lun us => Sys2Proof.Machine.execSuspendPollTimeout lun us s
  | .suspendWindowExpiry lun => Sys2Proof.Machine.execSuspendWindowExpiry lun s
  | .resumeIssue lun => Sys2Proof.Machine.execResumeIssue lun s
  | .decoderAssign ridge => Sys2Proof.Machine.execDecoderAssign ridge s
  | .decoderWaitTimeout ridge => Sys2Proof.Machine.execDecoderWaitTimeout ridge s
  | .outerDecodeDone island dec => Sys2Proof.Machine.execOuterDecodeDone island dec s
  | .thresholdsSet lun => Sys2Proof.Machine.execThresholdsSet lun s
  | .chaseDecodeDone island dec => Sys2Proof.Machine.execChaseDecodeDone island dec s
  | .stepZeroRestored lun => Sys2Proof.Machine.execStepZeroRestored lun s
  | .talusSync => Sys2Proof.Machine.execTalusSync s
  | .poisonRemove mid => Sys2Proof.Machine.execPoisonRemove mid s
  | .lineStore handle => Sys2Proof.Machine.execLineStore handle s
  | .unitCommitted handle => Sys2Proof.Machine.execUnitCommitted handle s
  | .sectorSealed ridge engine => Sys2Proof.Machine.execSectorSealed ridge engine s
  | .wlFillExpiry handle => Sys2Proof.Machine.execWlFillExpiry handle s
  | .programStart handle => Sys2Proof.Machine.execProgramStart handle s
  | .dataInSegmentDone spur port => Sys2Proof.Machine.execDataInSegmentDone spur port s
  | .programResult lun failMask byte => Sys2Proof.Machine.execProgramResult lun failMask byte s
  | .unitRelease handle => Sys2Proof.Machine.execUnitRelease handle s
  | .eraseCommandIssue lun => Sys2Proof.Machine.execEraseCommandIssue lun s
  | .intentMarkerResult lun byte => Sys2Proof.Machine.execIntentMarkerResult lun byte s
  | .eraseResult lun failMask byte => Sys2Proof.Machine.execEraseResult lun failMask byte s
  | .doneMarkerResult lun byte => Sys2Proof.Machine.execDoneMarkerResult lun byte s
  | .heRemove mid => Sys2Proof.Machine.execHeRemove mid s
  | .probeResult lun zeros => Sys2Proof.Machine.execProbeResult lun zeros s
  | .scrubStepDue r => Sys2Proof.Machine.execScrubStepDue r s
  | .scrubPageAssessed spur ctx => Sys2Proof.Machine.execScrubPageAssessed spur ctx s
  | .linkEnable mid l => Sys2Proof.Machine.execLinkEnable mid l s
  | .linkDisable mid l => Sys2Proof.Machine.execLinkDisable mid l s
  | .helloTimer l => Sys2Proof.Machine.execHelloTimer l s
  | .hello l flit => Sys2Proof.Machine.execHello l flit s
  | .openFrame l flit => Sys2Proof.Machine.execOpenFrame l flit s
  | .lineFrame l flit => Sys2Proof.Machine.execLineFrame l flit s
  | .commitFrame l flit => Sys2Proof.Machine.execCommitFrame l flit s
  | .discardFrame l flit => Sys2Proof.Machine.execDiscardFrame l flit s
  | .pageFrame l flit data tail => Sys2Proof.Machine.execPageFrame l flit data tail s
  | .eraseFrame l flit => Sys2Proof.Machine.execEraseFrame l flit s
  | .copyFrame l flit => Sys2Proof.Machine.execCopyFrame l flit s
  | .degradeFrame l flit => Sys2Proof.Machine.execDegradeFrame l flit s
  | .repairReq l flit => Sys2Proof.Machine.execRepairReq l flit s
  | .repairFrame l flit data tail => Sys2Proof.Machine.execRepairFrame l flit data tail s
  | .ack l flit => Sys2Proof.Machine.execAck l flit s
  | .creditTimeout l => Sys2Proof.Machine.execCreditTimeout l s
  | .replayTimeout l seq => Sys2Proof.Machine.execReplayTimeout l seq s
  | .hopDeadline l seq pos => Sys2Proof.Machine.execHopDeadline l seq pos s
  | .repairTimeout id => Sys2Proof.Machine.execRepairTimeout id s
  | .lanesDown l => Sys2Proof.Machine.execLanesDown l s
  | .mirrorResync mid r => Sys2Proof.Machine.execMirrorResync mid r s
  | .mirrorSynced mid r => Sys2Proof.Machine.execMirrorSynced mid r s
  | .mirrorDegrade mid r => Sys2Proof.Machine.execMirrorDegrade mid r s
  | .load mid => Sys2Proof.Machine.execLoad mid s
  | .derive mid => Sys2Proof.Machine.execDerive mid s
  | .keyLockRetry => Sys2Proof.Machine.execKeyLockRetry s
  | .lockTimeout => Sys2Proof.Machine.execLockTimeout s
  | .keyAccessAck err rdata => Sys2Proof.Machine.execKeyAccessAck err rdata s
  | .keyAccessTimeout => Sys2Proof.Machine.execKeyAccessTimeout s
  | .keyStatusPoll => Sys2Proof.Machine.execKeyStatusPoll s
  | .opTimeout => Sys2Proof.Machine.execOpTimeout s
  | .eraseSlot mid v => Sys2Proof.Machine.execEraseSlot mid v s
  | .keyCacheFill ridge slot gen => Sys2Proof.Machine.execKeyCacheFill ridge slot gen s
  | .tagVerifyDone ridge engine => Sys2Proof.Machine.execTagVerifyDone ridge engine s
  | .microwordExecute spur => Sys2Proof.Machine.execMicrowordExecute spur s
  | .contextTimerExpiry spur ctx => Sys2Proof.Machine.execContextTimerExpiry spur ctx s
  | .watchdogExpiry spur => Sys2Proof.Machine.execWatchdogExpiry spur s
  | .spareTakeover spur ready => Sys2Proof.Machine.execSpareTakeover spur ready s
  | .spareClockSwitched g => Sys2Proof.Machine.execSpareClockSwitched g s
  | .rearm mid g => Sys2Proof.Machine.execRearm mid g s
  | .imageCmd mid v => Sys2Proof.Machine.execImageCmd mid v s
  | .imageLoadComplete => Sys2Proof.Machine.execImageLoadComplete s
  | .spurEnable mid sp => Sys2Proof.Machine.execSpurEnable mid sp s
  | .spurDisable mid sp => Sys2Proof.Machine.execSpurDisable mid sp s
  | .ridgeEnable mid r => Sys2Proof.Machine.execRidgeEnable mid r s
  | .ridgeDisable mid r => Sys2Proof.Machine.execRidgeDisable mid r s
  | .drainComplete isRidge n => Sys2Proof.Machine.execDrainComplete isRidge n s
  | .rejoinDone isRidge n => Sys2Proof.Machine.execRejoinDone isRidge n s
  | .engineFaultedWrite mid sp => Sys2Proof.Machine.execEngineFaultedWrite mid sp s
  | .mboxLockRead mid sp => Sys2Proof.Machine.execMboxLockRead mid sp s
  | .mboxLockRelease mid sp => Sys2Proof.Machine.execMboxLockRelease mid sp s
  | .mboxLockForce mid sp => Sys2Proof.Machine.execMboxLockForce mid sp s
  | .inDataWrite mid sp w v => Sys2Proof.Machine.execInDataWrite mid sp w v s
  | .inPost mid sp v => Sys2Proof.Machine.execInPost mid sp v s
  | .mailboxTaken sp => Sys2Proof.Machine.execMailboxTaken sp s
  | .outAck mid sp v => Sys2Proof.Machine.execOutAck mid sp v s
  | .outTimeout sp => Sys2Proof.Machine.execOutTimeout sp s
  | .bringupDone c dies eyes => Sys2Proof.Machine.execBringupDone c dies eyes s
  | .rediscover mid c => Sys2Proof.Machine.execRediscover mid c s
  | .trackingPass c ce bursts => Sys2Proof.Machine.execTrackingPass c ce bursts s
  | .fullTrainingDone c eyes => Sys2Proof.Machine.execFullTrainingDone c eyes s
  | .railSample code => Sys2Proof.Machine.execRailSample code s
  | .railArmed => Sys2Proof.Machine.execRailArmed s
  | .railWarning => Sys2Proof.Machine.execRailWarning s
  | .railRecovered => Sys2Proof.Machine.execRailRecovered s
  | .ledgerGrant => Sys2Proof.Machine.execLedgerGrant s
  | .admissionResumed => Sys2Proof.Machine.execAdmissionResumed s
  | .ridgeClosingDone r => Sys2Proof.Machine.execRidgeClosingDone r s
  | .sequenceComplete => Sys2Proof.Machine.execSequenceComplete s
  | .shutdown mid => Sys2Proof.Machine.execShutdown mid s
  | .shutdownComplete => Sys2Proof.Machine.execShutdownComplete s
  | .recoveryBarrier found => Sys2Proof.Machine.execRecoveryBarrier found s
  | .unitRestore r n pages => Sys2Proof.Machine.execUnitRestore r n pages s
  | .dropPending mid v => Sys2Proof.Machine.execDropPending mid v s
  | .idleEntry r t => Sys2Proof.Machine.execIdleEntry r t s
  | .wake r => Sys2Proof.Machine.execWake r s
  | .wakeComplete r => Sys2Proof.Machine.execWakeComplete r s
  | .idleHintUs mid r v => Sys2Proof.Machine.execIdleHintUs mid r v s
  | .idleHintExpiry r => Sys2Proof.Machine.execIdleHintExpiry r s
  | .railMinMvWrite mid v => Sys2Proof.Machine.execRailMinMvWrite mid v s
  | .demandPeakWrite mid v => Sys2Proof.Machine.execDemandPeakWrite mid v s
  | .dictionaryWrite mid addr be data => Sys2Proof.Machine.execDictionaryWrite mid addr be data s
  | .crestRead syms => Sys2Proof.Machine.execCrestRead syms s
  | .crestWrite syms => Sys2Proof.Machine.execCrestWrite syms s
  | .selectRead syms => Sys2Proof.Machine.execSelectRead syms s
  | .frameForward syms => Sys2Proof.Machine.execFrameForward syms s
  | .crestlineEnable mid => Sys2Proof.Machine.execCrestlineEnable mid s
  | .ringCheck => Sys2Proof.Machine.execRingCheck s
  | .ringCheckReturn ns syms => Sys2Proof.Machine.execRingCheckReturn ns syms s
  | .ringCheckTimeout => Sys2Proof.Machine.execRingCheckTimeout s
  | .cairnRecord => Sys2Proof.Machine.execCairnRecord s
  | .recordPortSend hold => Sys2Proof.Machine.execRecordPortSend hold s
  | .portSeqWrite mid v => Sys2Proof.Machine.execPortSeqWrite mid v s
  | .rateWrite mid v => Sys2Proof.Machine.execRateWrite mid v s
  | .nonceReq mid => Sys2Proof.Machine.execNonceReq mid s
  | .nonceExpiry => Sys2Proof.Machine.execNonceExpiry s
  | .clearCmd mid => Sys2Proof.Machine.execClearCmd mid s
  | .clearRemove => Sys2Proof.Machine.execClearRemove s
  | .clearWaitTimeout => Sys2Proof.Machine.execClearWaitTimeout s
  | .clearKeyIndexWrite mid v => Sys2Proof.Machine.execClearKeyIndexWrite mid v s
  | .injectEngine mid v => Sys2Proof.Machine.execInjectEngine mid v s
  | .injectMem mid v => Sys2Proof.Machine.execInjectMem mid v s
  | .memoryError cls inst addr bad => Sys2Proof.Machine.execMemoryError cls inst addr bad s
  | .fabricTimeout tag => Sys2Proof.Machine.execFabricTimeout tag s
  | .lateResponse tag => Sys2Proof.Machine.execLateResponse tag s
  | .aoReset => Sys2Proof.Machine.execAoReset s
  | .blockReset => Sys2Proof.Machine.execBlockReset s
  | .aoResetRelease => Sys2Proof.Machine.execAoResetRelease s
  | .blockResetRelease => Sys2Proof.Machine.execBlockResetRelease s
  | .selfTestDone what pass => Sys2Proof.Machine.execSelfTestDone what pass s
  | .sensorConversion n temp => Sys2Proof.Machine.execSensorConversion n temp s
  | .sensorFault n => Sys2Proof.Machine.execSensorFault n s
  | .tempPeakWrite mid n v => Sys2Proof.Machine.execTempPeakWrite mid n v s
  | .readData tag err data => Sys2Proof.Machine.execReadData tag err data s
  | .reservedKindMessage kind => Sys2Proof.Machine.execReservedKindMessage kind s
  | .discardedFrame syms => Sys2Proof.Machine.execDiscardedFrame syms s
  | .returningFrame syms => Sys2Proof.Machine.execReturningFrame syms s

end Sys2Proof.Machine
end

