-- ==== Sys2Proof/Certificates/Slice0/Obligations.lean ====
section
/-! DEFINITION. The statements about the block, one per obligation, from the numbered rules of the specification. -/

open Sys2Proof Sys2Proof.Machine

namespace Sys2Proof.Claims

/-- The Gate may take entry x of queue q now: the ports run, x is the first entry not admitted, its bytes have arrived, the hold
store has room for what of it is to be held (R17), and neither a fence (R76), a write refused for energy (R27) nor the rail (R366)
stands against it. -/
def Front (s : State) (q : Nat) (x : Ent) : Prop :=
  s.ao.portsUp = true ∧ frontEnt (queue s q) = some x ∧ entOf s q x.idx = some x ∧ x.arrived = true ∧ mayAdmit s q = true
    ∧ holdFits s x = true

/-- The state once entry x has its admission number (R75), its charge of c microjoules (R357), its key (R264), and the note that it
is never framed where its origin region does not mirror (R254). -/
def admitted (s : State) (q : Nat) (x : Ent) (c : Nat) : State :=
  noteUnframed (bindEntry (spend (takeOrder s q x.idx) c) q x.idx x.raw) q x.idx (eRegion x.raw)

/-- What a response finds: the ports run, and the tag's request is r, made for p. -/
def Due (s : State) (tag : Nat) (r : FabReq) (p : Purpose) : Prop :=
  s.ao.portsUp = true ∧ reqOf s tag = some r ∧ r.purpose = p

/-- The state after an accepted control-port write: t, the entry's storage good again (R420), and code OK answered to the
master (R430). -/
def okWrite (t : State) (mid i sub : Nat) : State :=
  { t with badStore := t.badStore.filter (fun k => decide (k ≠ i * 256 + sub)), sent := .ctl mid 0 0 :: t.sent }

/-- A whole, intact frame of a kind arrives in its turn on a link that is UP (R245, R247). -/
def Arrives (s : State) (l kind : Nat) (flit : Flit) : Prop :=
  s.ao.portsUp = true ∧ (link s l).state = 2 ∧ (link s l).lanes = true ∧ flitIntact flit = true ∧ fhKind flit = kind ∧ fhSeq flit = (link s l).rxNext

/-- The state once a frame of k flits has been taken into account: the next SEQ expected, the credits it frees, the count. -/
def counted (s : State) (l k : Nat) : State :=
  count (modLink s l (fun x => { x with rxNext := (x.rxNext + 1) % 2 ^ 32, freed := (x.freed + k) % 2 ^ 32 })) (0x8010 + l) 0x05

/-- What a LUN runs has come to its end in a poll's turn on the port: the status byte is a valid one and shows RDY (R128, R332). -/
def Ready (s : State) (l : Nat) (byte : Byte) : Prop :=
  pollTurn s l = true ∧ (lunOf s l).busy ≠ .idle ∧ statusInvalid byte (chan s (l / 16)).wp = false ∧ byte.getLsbD 6 = true

/-- The state once that poll has gone out and its byte is latched (R293, R313, R332). -/
def polled (s : State) (l : Nat) (byte : Byte) : State :=
  modLun (latchDie (bus s l (pollCycles s l)) l byte) l (fun x => { x with invalid := 0 })

/-- R54: in the low k + 1 bits, with 2^k entries in the ring of queue q, the entries fetched and not retired lie between DONE and FETCH, FETCH
between DONE and DOORBELL, and DOORBELL at most 2^k from DONE. -/
def QueueOrdered (s : State) (q : Nat) : Prop :=
  let k := od s (0x3000 + q) 0x05
  let m := 2 ^ (k + 1)
  let x := queue s q
  let dist := fun a : Nat => (a % m + m - x.done % m) % m
  k ≤ 15 ∧ x.ents.length ≤ dist x.fetch ∧ dist x.fetch ≤ dist x.doorbell ∧ dist x.doorbell ≤ 2 ^ k

/-- The command reports that a fetch read of a queue has failed (R67). -/
def FailsFetch (s : State) (c : Instr) : Prop :=
  ∃ tag r q rd, reqOf s tag = some r ∧ r.purpose = .fetch q rd ∧ (c = .fabricTimeout tag ∨ ∃ data, c = .entryFetchResponse tag true data)

/-- The slots a class holds reserved. -/
def reservedSlots : List (Nat × Bool × Desc) → Nat
  | [] => 0
  | (n, _, _) :: r => n + reservedSlots r

/-- The three pointers of a Scree class agree with the body items not yet read and the packets between them (R302, R304, R305). -/
def ScreeInv (c : Scree) : Prop :=
  c.p < 512 ∧ c.w = (c.p + c.unread + reservedSlots c.packets) % 512 ∧ c.c = (c.p + c.unread + Scree.written c.packets) % 512
    ∧ c.unread + reservedSlots c.packets ≤ 256

/-- While a reset is asserted the ports are down, and under the always-on reset block time stands at 0 (R444, R446). -/
def ResetQuiet (s : State) : Prop :=
  (s.ao.inAoReset = true ∨ s.ao.inBlkReset = true → s.ao.portsUp = false) ∧ (s.ao.inAoReset = true → s.ao.timeUs = 0)

end Sys2Proof.Claims

open Sys2Proof.Claims

/-- For every command c, list rest and state s: if the queue of s is c followed by rest, step s is exec of c on s with the queue
rest; if the queue is empty, step s answers s (the model's choice, log entry 1). -/
def Obligations.Step_runs_front_command : Prop :=
  (∀ (c : Instr) (rest : List Instr) (s : State), s.pending = c :: rest → Machine.step s = exec c { s with pending := rest })
  ∧ (∀ s : State, s.pending = [] → Machine.step s = .next s)

/-- In State.reset the queue is empty, every dictionary entry holds its default, every submission queue is OFF with zero
indices, notice rings and regions are disabled, key slots are empty, ridges and spurs are OUT, channels unknown, the rail
UNARMED, the log empty, units FREE, links and ring off, no image loaded, the hold store empty, and the invariant ResetQuiet
holds. The empty command queue is the model's own (log entry 6); units of state for which the manual gives no reset value
start at zero, empty or idle by the model's choice (log entry 8). (R6, R62, R80, R342, R354, R444, R446) -/
def Obligations.Reset_leaves_every_unit_at_rest : Prop :=
  State.reset.pending = []
  ∧ (∀ i sub, od State.reset i sub = odDefault i sub ∨ 256 ≤ sub)
  ∧ (∀ q, queue State.reset q = {})
  ∧ (∀ n, (ring State.reset n).enabled = false)
  ∧ (∀ r, (region State.reset r).state = 0)
  ∧ (∀ k, (keySlot State.reset k).state = .empty)
  ∧ (∀ r, (ridge State.reset r).svc = .out) ∧ (∀ p, (spur State.reset p).svc = .out)
  ∧ (∀ c, (chan State.reset c).state = 0)
  ∧ State.reset.ao.pf = .unarmed ∧ State.reset.ao.log = []
  ∧ (∀ u, (unit State.reset u).state = .free)
  ∧ (link State.reset 0).state = 0 ∧ (link State.reset 1).state = 0 ∧ State.reset.crest.state = 0
  ∧ State.reset.image.state = 0 ∧ State.reset.hold = [] ∧ ResetQuiet State.reset

/-- A well-formed doorbell write of v to queue q: OFF discards and counts it; RUNNING records it and evaluates the watermark, or
on an overrun sets DOORBELL_OVERRUN and halts with cause 1; DRAINING and HALTED record it, or set DOORBELL_OVERRUN and
change no state. A value equal to DOORBELL in its low k + 1 bits leaves DOORBELL as it is. (R55, R56, R57, R63, R429) -/
def Obligations.Doorbell_moves_or_overruns : Prop :=
  ∀ (s : State) (q v : Nat), s.ao.portsUp = true → q < 4096 → v < 65536 →
    let now := if qDist s q (queue s q).done v = qDist s q (queue s q).done (queue s q).doorbell then (queue s q).doorbell else v
    exec (.doorbellWrite (8 * q) 8 (BitVec.ofNat 128 v)) s = .next (
      match (queue s q).state with
      | .off => count s (0x3000 + q) 0x13
      | .running =>
        if overruns s q v then haltQueue (setOd s (0x3000 + q) 0x03 (od s (0x3000 + q) 0x03 ||| qerrOverrun)) q 1 0
        else evalWatermark { s with queues := s.queues.modify {} q (fun x => { x with doorbell := now }) } q
      | .draining | .halted =>
        if overruns s q v then setOd s (0x3000 + q) 0x03 (od s (0x3000 + q) 0x03 ||| qerrOverrun)
        else { s with queues := s.queues.modify {} q (fun x => { x with doorbell := now }) })

/-- A doorbell value overruns exactly when its distance from DONE exceeds 2^k or falls short of the distance from DONE to
DOORBELL. A value equal to DOORBELL in its low k + 1 bits (with DOORBELL at most 2^k from DONE) does not overrun, and its
write leaves every queue as it was. (R57) -/
def Obligations.Doorbell_overrun_rule : Prop :=
  ∀ (s : State) (q v : Nat),
    (overruns s q v = true ↔ qDist s q (queue s q).done v > 2 ^ od s (0x3000 + q) 0x05
      ∨ qDist s q (queue s q).done v < qDist s q (queue s q).done (queue s q).doorbell)
    ∧ (v % 2 ^ (od s (0x3000 + q) 0x05 + 1) = (queue s q).doorbell % 2 ^ (od s (0x3000 + q) 0x05 + 1) →
        qDist s q (queue s q).done (queue s q).doorbell ≤ 2 ^ od s (0x3000 + q) 0x05 → overruns s q v = false
        ∧ (s.ao.portsUp = true → q < 4096 → v < 65536 → (queue s q).state ≠ .off →
          ∃ t, exec (.doorbellWrite (8 * q) 8 (BitVec.ofNat 128 v)) s = .next t ∧ ∀ j, queue t j = queue s j))

/-- TREAD of 1 to 16 bytes of the doorbell page is answered with zeros; one outside it or of another length, and
RESERVED_KIND_MESSAGE, raise TARGET_DISCARDS by one; LATE_RESPONSE, and any response whose tag has no request, raises
FAB_LATE_RESPONSES by one. Nothing else changes. (R55, R425, R428, R429) -/
def Obligations.Fabric_messages_without_a_request : Prop :=
  ∀ s : State, s.ao.portsUp = true →
    let counts := fun (c : Instr) (k : Nat) => ∃ t, exec c s = .next t ∧ t = { s with od := t.od }
      ∧ od t 0x1200 k = min (od s 0x1200 k + 1) (2 ^ 32 - 1)
      ∧ ∀ i j, j < 256 → (i, j) ≠ (0x1200, k) → od t i j = od s i j
    (∀ off len tag, off < 32768 → 1 ≤ len → len ≤ 16 → exec (.tread off len tag) s = .next { s with sent := .treadDone tag 0 :: s.sent })
    ∧ (∀ off len tag, 32768 ≤ off ∨ len = 0 ∨ 16 < len → counts (.tread off len tag) 0x06)
    ∧ (∀ kind, kind ∉ [3, 4, 5, 6] → counts (.reservedKindMessage kind) 0x06)
    ∧ (∀ tag, reqOf s tag = none → counts (.lateResponse tag) 0x05
        ∧ (∀ err, counts (.statusWriteResponse tag err) 0x05)
        ∧ (∀ err d, counts (.entryFetchResponse tag err d) 0x05))

/-- In an open round the queue whose turn it is has n = min(16-entry share, credit, room) entries requested, n > 0: FETCH
advances by n, n entries are added, its credit falls by n, the turn passes to the next queue; DOORBELL, DONE, every other
queue and every field the fetch does not name stay. (R65, R66, R67, R68) -/
def Obligations.Fetch_turn_takes_its_share : Prop :=
  ∀ (s : State) (q : Nat), s.ao.portsUp = true → s.roundOpen = true → turnQueue s = some q →
    od s (0x3000 + q) 0x04 % 4096 = 0 → (creditOf s q).2 ≤ 16 → od s (0x3000 + q) 0x05 ≤ 15 → 4 ≤ od s (0x3000 + q) 0x05 →
    ∃ t n, exec .fetchTurn s = .next t ∧ n = min (min (creditOf s q).2 (creditOf s q).1) (qRoom s q (creditOf s q).2) ∧ 0 < n
      ∧ (queue t q).fetch = ((queue s q).fetch + n) % 65536
      ∧ (queue t q).ents.length = (queue s q).ents.length + n
      ∧ (queue t q).doorbell = (queue s q).doorbell ∧ (queue t q).done = (queue s q).done ∧ (queue t q).state = .running
      ∧ (creditOf t q).1 = (creditOf s q).1 - n ∧ t.arbNext = (q + 1) % 4096
      ∧ (∀ q', q' ≠ q → queue t q' = queue s q')
      ∧ t = { s with queues := t.queues, od := t.od, fab := t.fab, free := t.free, sent := t.sent, credit := t.credit,
                     arbNext := t.arbNext }

/-- A good response stores the entries it brings and goes on at the Gate; a failed one on a RUNNING queue halts it with cause 2
and FETCH_FAULT, FETCH goes back to the first entry of the failed read, the unadmitted entries from there on are dropped,
other queues stay. (R63, R67, R73) -/
def Obligations.Fetch_response_fills_or_faults : Prop :=
  ∀ (s : State) (tag q rd : Nat) (r : FabReq) (data : List W512), Due s tag r (.fetch q rd) →
    exec (.entryFetchResponse tag false data) s
      = .next (refuseLoop (storeEntries (fabTake s r false) q rd data) q (queue (fabTake s r false) q).ents.length)
    ∧ ((queue s q).state = .running →
      ∃ t, exec (.entryFetchResponse tag true data) s = .next t
        ∧ (queue t q).state = .halted ∧ (queue t q).cause = 2
        ∧ (queue t q).fetch = (match (queue s q).ents.find? (fun e => e.rd = rd) with
            | some e => e.idx
            | none => (queue s q).fetch)
        ∧ (queue t q).ents = (queue s q).ents.filter (fun e => decide (e.rd < rd) || decide (e.order ≠ none))
        ∧ (od t (0x3000 + q) 0x03).testBit 2 = true
        ∧ (∀ q', q' ≠ q → queue t q' = queue s q'))

/-- An entry at the front of its queue whose verdict is to go, and whose opcode is the command's, is admitted: it takes the next
admission number, its charge and its key, and the descriptor of its opcode is pushed (a fence pushes none). (R75, R76, R93,
R99, R115, R129, R208, R233, R258, R348) -/
def Obligations.Read_like_entries_are_admitted : Prop :=
  ∀ (s : State) (q c : Nat) (x : Ent), Front s q x → verdict s x = .go c →
    ∃ y, entOf (admitted s q x c) q x.idx = some y ∧ y.raw = x.raw ∧ y.idx = x.idx ∧ y.order = some s.admitNo ∧
      let a := admitted s q x c
      let n := (queue s q).ents.length
      let plain : Host.Outcome State Fault Refusal :=
        .next (refuseLoop (pushEntry a q x.idx [{ entryDesc a q y with arg := eArg x.raw }]) q n)
      let feature : Host.Outcome State Fault Refusal :=
        .next (refuseLoop (pushEntry a q x.idx
          [{ entryDesc a q y with arg := (eParams x.raw).toNat, body := x.raw.extractLsb' 128 320 }]) q n)
      (eOpcode x.raw = 0x01 → exec (.lineRead q) s = plain)
      ∧ (eOpcode x.raw = 0x02 → exec (.sectorRead q) s = plain)
      ∧ (eOpcode x.raw = 0x03 → exec (.pageRead q) s = plain)
      ∧ (eOpcode x.raw = 0x18 → exec (.scrubRange q) s = plain)
      ∧ (eOpcode x.raw = 0x19 → exec (.repairServe q) s = plain)
      ∧ (eOpcode x.raw = 0x04 → exec (.gatherLineRead q) s = .next (refuseLoop (admitGather a q y) q n))
      ∧ (eOpcode x.raw = 0x10 → exec (.erase q) s = .next (refuseLoop
          (let b := sendDown a (eRegion x.raw) 0x07 (eFpa x.raw) 0 (eNum x.raw) 0 []
           pushEntry b q x.idx [{ entryDesc b q y with arg := eNum x.raw }]) q n))
      ∧ (eOpcode x.raw = 0x20 → exec (.fence q) s = .next (refuseLoop a q n))
      ∧ (eOpcode x.raw = 0x30 →
          (eSubop x.raw = 0 → exec (.getFeatures (.enter q)) s = feature)
          ∧ (eSubop x.raw = 1 → exec (.setFeatures (.enter q)) s = feature)
          ∧ (eSubop x.raw = 2 → exec (.lunGetFeatures (.enter q)) s = feature)
          ∧ (eSubop x.raw = 3 → exec (.lunSetFeatures (.enter q)) s = feature))
      ∧ (0x80 ≤ eOpcode x.raw → exec (.integratorOpcode q) s = .next (refuseLoop (pushEntry a q x.idx
          [{ entryDesc a q y with
              body := x.raw.extractLsb' 128 320,
              charge := if dLedger (dispatchOf a (eOpcode x.raw)) then [(.program (rOd a (eRegion x.raw) 0x06), eNum x.raw + 1)] else [] }]) q n))

/-- An entry at the front of its queue whose verdict is to go is admitted: LINE_WRITE stages its line, UNIT_OPEN takes a record
or is refused with its status, UNIT_COMMIT puts its unit among the committed, PAGE_PROGRAM and COPYBACK open their own
units. (R75, R182, R185, R192, R197, R225) -/
def Obligations.Write_like_entries_are_admitted : Prop :=
  ∀ (s : State) (q c : Nat) (x : Ent), Front s q x → verdict s x = .go c →
    ∃ y, entOf (admitted s q x c) q x.idx = some y ∧ y.raw = x.raw ∧ y.idx = x.idx ∧ y.order = some s.admitNo ∧
      let a := admitted s q x c
      let n := (queue s q).ents.length
      let e := x.raw
      let r := eRegion e
      (eOpcode e = 0x08 → exec (.lineWrite q) s = .next (refuseLoop (admitLineWrite a q y) q n))
      ∧ (eOpcode e = 0x09 → openRefusal a r (eFpa e) (eNum e) = none →
          exec (.unitOpen q) s = .next (refuseLoop (
            let u := takeRecord a (fRidge (eFpa e))
            let b := takeKey (openUnit a u .host r (eFpa e) (eNum e) true) q x.idx u
            let b := sendDown b r 0x02 (fSetLine (eFpa e) 0) (handleOf b u) (eNum e) 0 []
            pushEntry b q x.idx [{ entryDesc b q y with handle := handleOf b u, arg := eNum e, key := none }]) q n))
      ∧ (eOpcode e = 0x09 → ∀ st, openRefusal a r (eFpa e) (eNum e) = some st →
          exec (.unitOpen q) s = .next (refuseLoop (finalise (countRefused a (eFpa e) st) q x.idx st 0) q n))
      ∧ (eOpcode e = 0x0A →
          let u := unitKey (eUnit e)
          (unit a u).keyLost = false → (unit a u).failed = false →
          exec (.unitCommit q) s = .next (refuseLoop (
            let b := setCharge (toCommitted a u) u (programKinds a (unit a u).region ((unit a u).planesM1 + 1))
            modEnt (modUnit b u (fun d => { d with commit := some (q, x.idx), cls := entryClass b e })) q x.idx (fun z => { z with left := 1 })) q n))
      ∧ (eOpcode e = 0x0B → exec (.pageProgram q) s = .next (refuseLoop (admitPageProgram a q y) q n))
      ∧ (eOpcode e = 0x11 → exec (.copyback q) s = .next (refuseLoop (admitCopyback a q y) q n))

/-- An entry at the front of its queue whose verdict is a refusal takes its admission number and its status at once and pushes
nothing, for each opcode of the table: the thirteen host opcodes, the four sub-operations of FEATURE and the integrator
opcodes. (R14, R69, R75, R76, R93, R106, R182, R185, R192, R197, R225, R348) -/
def Obligations.Failing_entries_are_refused_at_once : Prop :=
  ∀ (s : State) (q : Nat) (x : Ent) (st : Status) (f : W64), Front s q x → verdict s x = .refuse st f →
    let refused : Host.Outcome State Fault Refusal :=
      .next (refuseLoop (finalise (takeOrder s q x.idx) q x.idx st f) q (queue s q).ents.length)
    (∀ c ∈ [(0x01, Instr.lineRead q), (0x02, .sectorRead q), (0x03, .pageRead q), (0x04, .gatherLineRead q), (0x08, .lineWrite q),
            (0x09, .unitOpen q), (0x0A, .unitCommit q), (0x0B, .pageProgram q), (0x10, .erase q), (0x11, .copyback q),
            (0x18, .scrubRange q), (0x19, .repairServe q), (0x20, .fence q)],
      eOpcode x.raw = c.1 → exec c.2 s = refused)
    ∧ (∀ c ∈ [(0, Instr.getFeatures (.enter q)), (1, .setFeatures (.enter q)), (2, .lunGetFeatures (.enter q)), (3, .lunSetFeatures (.enter q))],
      eOpcode x.raw = 0x30 → eSubop x.raw = c.1 → exec c.2 s = refused)
    ∧ (0x80 ≤ eOpcode x.raw → exec (.integratorOpcode q) s = refused)

/-- A context holding a FEATURE descriptor whose die is free, in its turn on the port, issues the get or set command of its
sub-operation, per CE or per LUN, and its LUN is busy; sets invalidate the Cornice entries concerned. While the LUN is busy
the context waits; a valid poll that shows RDY ends the operation, and then the descriptor reports OK with the value read or
written. (R120, R123, R124, R128, R348) -/
def Obligations.Feature_commands_run_on_an_idle_LUN : Prop :=
  ∀ (s : State) (p c sub : Nat) (v : BitVec 32), s.ao.portsUp = true → featureCtx s p c sub = true →
    let d := (ctxOf s p c).desc
    let l := fBlun d.phys
    let shared : Bool := !(lunOf s l).geom.getLsbD 16
    let form (ce : Bool) (whole one : Nat) : List BusCyc :=
      .ce d.phys :: ([.cmd (if ce then whole else one)] ++ (if ce then [] else lunAddr l) ++ [.addr (bitsOf d.body 15 8)])
    let x := ctxOf s p c
    let go (cycles : List BusCyc) : State :=
      modLun (bus (tookTurn s l x.cls) l cycles) l (fun y => y.issue (.feature c) s.ao.timeUs)
    let get (ce : Bool) : Host.Outcome State Fault Refusal := .next (go (form ce 0xEE 0xD4 ++ [.dout 4]))
    let set (ce : Bool) : Host.Outcome State Fault Refusal :=
      .next (invalidateLuns (go (form ce 0xEF 0xD5 ++ [.param (BitVec.ofNat 32 d.arg)])) (if ce then [l / 2 * 2, l / 2 * 2 + 1] else [l]))
    let done (v : Nat) : Host.Outcome State Fault Refusal := .next (reportDesc (freeCtx s p c) d ⟨0, 0, v⟩)
    (x.stage ≠ 6 → portTurn s l x.cls x.no = true →
      (sub = 0 → featureFree s l true = true → exec (.getFeatures (.run p c v)) s = get true)
      ∧ (sub = 1 → featureFree s l true = true → holdDefers s l = false → exec (.setFeatures (.run p c v)) s = set true)
      ∧ (sub = 2 → featureFree s l shared = true → exec (.lunGetFeatures (.run p c v)) s = get shared)
      ∧ (sub = 3 → featureFree s l shared = true → holdDefers s l = false → exec (.lunSetFeatures (.run p c v)) s = set shared))
    ∧ (x.stage ≠ 6 → (lunOf s l).busy = .feature c →
      (sub = 0 → exec (.getFeatures (.run p c v)) s = .next s)
      ∧ (sub = 1 → exec (.setFeatures (.run p c v)) s = .next s)
      ∧ (sub = 2 → exec (.lunGetFeatures (.run p c v)) s = .next s)
      ∧ (sub = 3 → exec (.lunSetFeatures (.run p c v)) s = .next s))
    ∧ (∀ byte, Ready s l byte → (lunOf s l).susp = none → (lunOf s l).busy = .feature c → exec (.statusPoll l byte) s = .next (climbWaiting
        (modCtx (modLun (polled s l byte) l (fun y => { y with busy := .idle })) (lunSpur l) c (fun y => { y with stage := 6 })) l))
    ∧ (x.stage = 6 →
      (sub = 0 → exec (.getFeatures (.run p c v)) s = done v.toNat)
      ∧ (sub = 1 → exec (.setFeatures (.run p c v)) s = done (d.arg % 2 ^ 32))
      ∧ (sub = 2 → exec (.lunGetFeatures (.run p c v)) s = done v.toNat)
      ∧ (sub = 3 → exec (.lunSetFeatures (.run p c v)) s = done (d.arg % 2 ^ 32)))

/-- A descriptor held past BRINGUP_TIMEOUT_MS for a unit, a key or a link leaves the hold store with the status of what it
waited for (KEY_UNAVAILABLE cause 3 for a key, NOT_READY for a unit or a link); one held for a gap move, for energy or for
room stays, and before the timeout all do. A patrol's own read held for a unit gives its step up; other work of the block
stays. A pop, when its class ranks above what could resume (log entry 25), takes the oldest published packet of the class
chosen, counts it and gives it to a free context; a shipped opcode starts its routine, an integrator opcode its word. (R16,
R17, R21, R113, R232, R264, R303, R305) -/
def Obligations.Descriptors_wait_and_start : Prop :=
  (∀ (s : State) (n : Nat) (h : Held), s.ao.portsUp = true → s.hold.find? (fun h => h.id = n) = some h →
     let t := unhold s n
     let us := s.ao.timeUs - h.since
     (us < od s 0x7100 0x01 * 1000 → exec (.holdTimeout n) s = .next s)
     ∧ (od s 0x7100 0x01 * 1000 ≤ us → h.desc.q = 0xFFFF →
       (h.desc.op = 0x40 → h.cause = .unitNotReady → exec (.holdTimeout n) s = .next (scrubTimeout t h.desc.region))
       ∧ (h.desc.op ≠ 0x40 ∨ h.cause ≠ .unitNotReady → exec (.holdTimeout n) s = .next s))
     ∧ (od s 0x7100 0x01 * 1000 ≤ us → h.desc.q ≠ 0xFFFF →
       (h.cause = .unitNotReady → h.desc.source ≠ 1 →
         exec (.holdTimeout n) s = .next (reportDesc t h.desc (notReady s h.desc.named us)))
       ∧ (h.cause = .unitNotReady → h.desc.source = 1 → entOf s h.desc.q h.desc.idx = none →
         exec (.holdTimeout n) s = .next (finalise t h.desc.q h.desc.idx (notReady s h.desc.named us) 0))
       ∧ (∀ x r f more, h.cause = .unitNotReady → h.desc.source = 1 → entOf s h.desc.q h.desc.idx = some x →
         (entryFpas x.raw).filter (fun y => !spurReady s (fSpur y.2)) = (r, f) :: more →
         exec (.holdTimeout n) s = .next (finalise t h.desc.q h.desc.idx (notReady s f us) 0))
       ∧ (h.cause = .keyLoading →
         exec (.holdTimeout n) s = .next (finalise t h.desc.q h.desc.idx ⟨0x22, rOd s h.desc.region 0x0B, 3⟩ 0))
       ∧ (∀ l, h.cause = .link l →
         exec (.holdTimeout n) s = .next (finalise t h.desc.q h.desc.idx ⟨0x40, 6 * 256 + l, sat (2 ^ 32 - 1) us⟩ 0))
       ∧ (h.cause ∈ [.gapMove, .ledger, .ledgerStalls, .screeFull] → exec (.holdTimeout n) s = .next s)))
  ∧ (∀ (s : State) (p c k : Nat) (d : Desc) (z : Scree), s.ao.portsUp = true →
      ((spur s p).svc = .inService ∨ (spur s p).svc = .draining) → (spur s p).stopped = false → railDown s = false →
      (spur s p).current = none → (ridge s (p / 4)).pstate = 0 → c < 63 → ctxUsed s p c = false →
      popRank s p < resumeRank s p → popClass s p = some k → (screeOf s p k).pop = some (d, z) →
      ∃ t0 t1 t2, t0 = modSpur s p (fun x => Spur.popped { x with classes := setAt x.classes k z } k)
        ∧ t1 = screeDrain (if 0x80 ≤ d.op then t0 else readBodies t0 p k (d.items - 1)) p k
        ∧ t2 = stamp (modSpur (count t1 (0x4100 + p) 0x0D) p (fun x => { x with ctxs := x.ctxs.set {} c (newCtx t1 d) }))
        ∧ ctxOf t2 p c = newCtx t1 d
        ∧ (d.op < 0x80 → exec (.descriptorPop p c) s = .next (startDesc t2 p c))
        ∧ (0x80 ≤ d.op → ∃ t, exec (.descriptorPop p c) s = .next t ∧ (ctxOf t p c).desc = d ∧ (ctxOf t p c).stage = 3
            ∧ (spur t p).current ≠ none))

/-- The next entry to retire, final and not frozen, has its status word written at byte 56 of its slot; where a notice is due
and not reserved it first reserves a place of the backlog, or on a full backlog stalls the queue, sets NOTICE_STALL and
counts it. A good answer to the oldest status write advances DONE past that entry; the done word is written while it is
behind DONE; its good answer publishes it; a failed status write sets STATUS_WRITE_FAULT and freezes retirement with DONE
where it stands; a RUNNING or HALTED queue is HALTED with cause 3 from then on, a DRAINING one stays DRAINING with its
cause. A drained DRAINING queue goes OFF with its indices kept and no entry left, other queues staying; a waiting fence
whose condition holds is final with OK. (R63, R70, R71, R72, R75, R84, R87) -/
def Obligations.Statuses_are_written_and_queues_end : Prop :=
  (∀ (s : State) (q : Nat) (e : Ent) (st : Status) (f : W64), s.ao.portsUp = true → s.ao.fatal = false →
     nextToRetire (queue s q) = some e → e.fin = some (st, f) → (queue s q).frozen = false → (queue s q).stalledNotice = false →
     let a := od s (0x3000 + q) 0x04 + e.idx % 2 ^ od s (0x3000 + q) 0x05 * 64 + 56
     let w := (statusWord st.code st.detail st.extra).toNat
     let n := od s (0x3000 + q) 0x0A
     let need := needsNotice (eNotify e.raw) st.code (od s (0x3000 + q) 0x0B)
     ((need = false ∨ e.reserved = true) →
       exec (.retireEntry q) s = .next (fabSmall (modEnt s q e.idx (fun e => { e with wr := 1 })) a 8 w (.status q e.idx)))
     ∧ (need = true → e.reserved = false → backlogUsed (ring s n) < 256 → (ring s n).pendingQ = [] → (ring s n).stalled = [] →
       ∃ t, exec (.retireEntry q) s = .next t ∧ (ring t n).reserved = (ring s n).reserved + 1
         ∧ queue t q = queue (modEnt s q e.idx (fun e => { e with wr := 1, reserved := true })) q)
     ∧ (need = true → e.reserved = false → 256 ≤ backlogUsed (ring s n) →
       exec (.retireEntry q) s = .next (
         let b := modQueue (setOd s (0x3000 + q) 0x03 (od s (0x3000 + q) 0x03 ||| qerrNotice)) q (fun x => { x with stalledNotice := true })
         { count b (0x3000 + q) 0x12 with rings := s.rings.modify {} n (fun r => { r with stalled := r.stalled ++ [q] }) })))
  ∧ (∀ (s : State) (tag q i : Nat) (r : FabReq),
      (Due s tag r (.status q i) → ∀ (e : Ent) (rest : List Ent) (st : Status × W64), (queue s q).ents = e :: rest → e.idx = i →
          e.fin = some st → (∀ y ∈ rest, y.idx ≠ i ∧ y.wr ≠ 2) → (queue s q).doneDead = false → s.ao.fatal = false →
          ∃ t, exec (.statusWriteResponse tag false) s = .next t
            ∧ (queue t q).done = ((queue s q).done + 1) % 65536 ∧ (queue t q).ents = rest)
      ∧ (s.ao.portsUp = true → s.ao.fatal = false → 0 < uncovered (queue s q) → (queue s q).doneOut = none →
          (queue s q).doneDead = false → (queue s q).state ≠ .off →
          exec (.doneWordTimer q) s = .next (fabSmall (modQueue s q (fun x => { x with doneOut := some (queue s q).done }))
            (od s (0x3000 + q) 0x06) 8 ((queue s q).done % 65536) (.done q)))
      ∧ (Due s tag r (.done q) → ∀ v, (queue s q).doneOut = some v → s.ao.fatal = false →
          ∃ t, exec (.doneWordResponse tag false) s = .next t ∧ (queue t q).published = v
            ∧ (queue t q).done = (queue s q).done ∧ (queue t q).ents = (queue s q).ents)
      ∧ (q < 4096 → Due s tag r (.status q i) → s.ao.fatal = false →
          ∃ t, exec (.statusWriteResponse tag true) s = .next t ∧ (queue t q).frozen = true ∧ (od t (0x3000 + q) 0x03).testBit 3 = true
            ∧ (queue t q).done = (queue s q).done
            ∧ ((queue s q).state = .running ∨ (queue s q).state = .halted → (queue t q).state = .halted ∧ (queue t q).cause = 3)
            ∧ ((queue s q).state = .draining → (queue t q).state = .draining ∧ (queue t q).cause = (queue s q).cause)))
  ∧ (∀ (s : State) (q : Nat), s.ao.portsUp = true →
      ((queue s q).state = .draining → queueDrained (queue s q) = true →
        ∃ t, exec (.queueOff q) s = .next t ∧ (queue t q).state = .off ∧ (queue t q).ents = []
          ∧ (queue t q).done = (queue s q).done ∧ (queue t q).doorbell = (queue s q).doorbell
          ∧ (queue t q).fetch = (queue s q).fetch ∧ (∀ j, j ≠ q → queue t j = queue s j))
      ∧ (∀ e, waitingFence (queue s q) = some e → fenceMet s q e = true →
          exec (.fenceComplete q) s = .next (refuseLoop (finalise s q e.idx Status.ok 0) q (queue s q).ents.length)))

/-- ENABLE 1 starts an OFF queue whose checks pass, with done word 0 written unless FATAL has stopped the retire unit, else
gives REFUSAL; on a RUNNING queue it has no effect; on DRAINING or HALTED it is refused with EARLY_ENABLE; ENABLE 0 drains;
QERR clears what is written 1; WATERMARK and POOL_PEAK as written; a notice ring's ENABLE 1 restarts it when its checks
pass, has no effect on an enabled ring or where a check fails, and 0 stops it. (R60, R61, R62, R63, R68, R80, R88, R421) -/
def Obligations.Queue_and_ring_control_writes : Prop :=
  (∀ (s : State) (mid q v : Nat), s.ao.portsUp = true → mid ≠ 0 → q < 4096 → v < 65536 →
     ((queue s q).state = .off → enableRefusal s q = 0 →
       (s.ao.fatal = false → exec (.queueEnable mid q) s
         = .next (okWrite (writeDone (modQueue s q (fun _ => { state := .running })) q 0) mid (0x3000 + q) 0x01))
       ∧ (s.ao.fatal = true → exec (.queueEnable mid q) s
         = .next (okWrite (modQueue s q (fun _ => { state := .running })) mid (0x3000 + q) 0x01)))
     ∧ ((queue s q).state = .off → enableRefusal s q ≠ 0 →
       exec (.queueEnable mid q) s
         = .next (okWrite (modQueue s q (fun x => { x with refusal := enableRefusal s q })) mid (0x3000 + q) 0x01))
     ∧ ((queue s q).state = .running → exec (.queueEnable mid q) s = .next (okWrite s mid (0x3000 + q) 0x01))
     ∧ ((queue s q).state = .draining ∨ (queue s q).state = .halted →
       exec (.queueEnable mid q) s = .next (okWrite
         (let b := modQueue s q (fun x => { x with refusal := 0x10 })
          setOd b (0x3000 + q) 0x03 (od b (0x3000 + q) 0x03 ||| qerrEarly)) mid (0x3000 + q) 0x01))
     ∧ ((queue s q).state = .running ∨ (queue s q).state = .halted →
       exec (.queueDisable mid q) s
         = .next (okWrite (modQueue s q (fun x => { x with state := .draining, cause := 0 })) mid (0x3000 + q) 0x01))
     ∧ exec (.qerrWrite mid q v) s = .next (okWrite (evalWatermark
         (setOd s (0x3000 + q) 0x03 (od s (0x3000 + q) 0x03 - (od s (0x3000 + q) 0x03 &&& v &&& 0x3F))) q) mid (0x3000 + q) 0x03)
     ∧ exec (.watermarkWrite mid q v) s = .next (okWrite (evalWatermark (setOd s (0x3000 + q) 0x0C v) q) mid (0x3000 + q) 0x0C)
     ∧ exec (.poolPeakWrite mid v) s = .next (okWrite (setOd s 0x1100 0x05 (poolUsed s)) mid 0x1100 0x05))
  ∧ (∀ (s : State) (mid n : Nat), s.ao.portsUp = true → mid ≠ 0 → n < 16 →
      ((ring s n).enabled = false → ringRefused s n = false →
        exec (.noticeRingEnable mid n) s = .next (okWrite (modRing (orphan s (Purpose.ofRing n)) n (fun r =>
          { r with enabled := true, fault := false, tail := 0, head := 0, written := 0, acks := [], tailOut := false,
                   tailDue := false, msgDue := false, msgOut := false, headOut := false })) mid (0x1110 + n) 0x01))
      ∧ ((ring s n).enabled = true ∨ ringRefused s n = true → exec (.noticeRingEnable mid n) s = .next (okWrite s mid (0x1110 + n) 0x01))
      ∧ exec (.noticeRingDisable mid n) s
          = .next (okWrite (modRing s n (fun r => { r with enabled := false })) mid (0x1110 + n) 0x01))

/-- ENABLE 1 of a STOPPED region whose checks pass makes it RUNNING at its first block with its mirror state (a member's is log
entry 33) and asks repairs (log entry 37), else REFUSAL names the check; on a RUNNING region it has no effect, on a DRAINING
one it is refused with code 0x10. ENABLE 0 drains a RUNNING region and closes its units; idle it stops. TV_STATE of a
STOPPED region is stored, or refused with START or GAP out of range; of one that runs, a value with STALLED 0 clears STALLED
alone and the next move may start, and one with STALLED 1 is answered UNIT_RUNNING. (R40, R41, R44, R261) -/
def Obligations.Region_control_commands : Prop :=
  ∀ (s : State) (mid r : Nat), s.ao.portsUp = true → mid ≠ 0 → r < 256 →
    ((region s r).state = 0 → regionRefusal s r = 0 →
      exec (.regionEnable mid r) s = .next (okWrite (
        let a := adoptTraverse (setOd s (0x2000 + r) 0x01 1) r
        let b := modRegion a r (fun g => { g with state := 1, refusal := 0, block := rOd a r 0x03, page := 0, scrubOut := 0,
                                                  scrubLate := false, refresh := [], mirror := mirrorAtEnable a r })
        askRepairs (goRestored b r) r) mid (0x2000 + r) 0x01))
    ∧ ((region s r).state = 0 → regionRefusal s r ≠ 0 →
      exec (.regionEnable mid r) s = .next (okWrite
        (modRegion (setOd s (0x2000 + r) 0x01 0) r (fun g => { g with refusal := regionRefusal s r })) mid (0x2000 + r) 0x01))
    ∧ ((region s r).state = 1 → exec (.regionEnable mid r) s = .next (okWrite s mid (0x2000 + r) 0x01))
    ∧ ((region s r).state = 2 →
      exec (.regionEnable mid r) s = .next (okWrite (modRegion s r (fun g => { g with refusal := 0x10 })) mid (0x2000 + r) 0x01))
    ∧ ((region s r).state = 1 →
      exec (.regionDisable mid r) s = .next (okWrite (
        let b := modRegion (setOd s (0x2000 + r) 0x01 0) r (fun g => { g with state := 2 })
        fillGroups (closeUnits b (fun d => decide (d.region = r))) (fun d => decide (d.region = r))) mid (0x2000 + r) 0x01))
    ∧ ((region s r).state = 2 → regionBusy s r = false →
      exec (.regionStopped r) s = .next
        (modRegion s r (fun g => { g with state := 0, scrubLate := false, refresh := [], mirror := 7 })))
    ∧ (∀ v l, v < 2 ^ 64 → l = selOf s mid (0x2000 + r) 0x18 →
        let refused := fun code : Nat => exec (.tvStateWrite mid r v) s
          = .next (emit (refuseWrite s ⟨false, mid⟩ (0x2000 + r) 0x19 code) (.ctl mid code 0))
        ((region s r).state = 0 → v / 2 ^ 16 % 2 ^ 16 < winL s r → v % 2 ^ 16 ≤ winL s r → exec (.tvStateWrite mid r v) s
          = .next (okWrite (modTv s r l (fun _ => tvOfWord (BitVec.ofNat 64 v))) mid (0x2000 + r) 0x19))
        ∧ ((region s r).state = 0 → winL s r ≤ v / 2 ^ 16 % 2 ^ 16 ∨ winL s r < v % 2 ^ 16 → refused 4)
        ∧ ((region s r).state ≠ 0 → v.testBit 62 = true → refused 3)
        ∧ ((region s r).state ≠ 0 → v.testBit 62 = false → exec (.tvStateWrite mid r v) s
          = .next (okWrite (maybeMove (modTv s r l (fun t => { t with stalled := false })) r l) mid (0x2000 + r) 0x19)))

/-- REMOVE empties the selected poison or half-erased entry; ENABLE of a link drives M_l_ENABLE and starts or ends training, the
lanes coming up with it (the model's choice, log entry 31); MIRROR_CTRL moves an origin region through resync, synced and
degraded, and on any other region answers result 2. (R175, R222, R251, R252, R261) -/
def Obligations.Map_link_and_mirror_writes : Prop :=
  (∀ (s : State) (mid : Nat), s.ao.portsUp = true → mid ≠ 0 →
     exec (.poisonRemove mid) s = .next (okWrite (modRidge s (selOf s mid 0x21C0 0x01) (fun x =>
       { x with poison := x.poison.set {} (selOf s mid 0x21C0 0x02) {} })) mid 0x21C0 0x08)
     ∧ exec (.heRemove mid) s = .next (okWrite (modRidge s (selOf s mid 0x2200 0x04) (fun x =>
       { x with half := x.half.set {} (selOf s mid 0x2200 0x05) {} })) mid 0x2200 0x07))
  ∧ (∀ (s : State) (mid l r : Nat), s.ao.portsUp = true → mid ≠ 0 → l < 2 → r < 256 →
      let on := emit (setOd s (0x8010 + l) 0x01 1) (.linkEnable l true)
      let off := emit (setOd s (0x8010 + l) 0x01 0) (.linkEnable l false)
      ((link s l).state = 0 → exec (.linkEnable mid l) s
          = .next (okWrite (modLink on l (fun x => { x with state := 1, lanes := true })) mid (0x8010 + l) 0x01))
      ∧ ((link s l).state = 3 → exec (.linkEnable mid l) s
          = .next (okWrite (modLink on l (fun x => { x with early := true })) mid (0x8010 + l) 0x01))
      ∧ ((link s l).state = 2 → exec (.linkDisable mid l) s
          = .next (okWrite (modLink (linkDown off l 0 6 0 0) l (fun x => { x with lanes := false })) mid (0x8010 + l) 0x01))
      ∧ ((link s l).state ≠ 2 → exec (.linkDisable mid l) s = .next (okWrite
          (releaseHeld (modLink off l (fun x => { x with state := 0, lanes := false })) (fun c => decide (c = .link l)))
          mid (0x8010 + l) 0x01))
      ∧ (isOrigin s r = true → (region s r).state = 1 →
          ((region s r).mirror = 0 → (link s (downLink s r)).state = 2 → exec (.mirrorResync mid r) s = .next (okWrite
              (setOd (modRegion s r (fun g => { g with mirror := 1 })) (0x8100 + r) 0x09 0) mid (0x8100 + r) 0x05))
          ∧ ((region s r).mirror = 1 → exec (.mirrorSynced mid r) s = .next (okWrite
              (setOd (modRegion s r (fun g => { g with mirror := 2 })) (0x8100 + r) 0x09 0) mid (0x8100 + r) 0x05))
          ∧ ((region s r).mirror = 1 ∨ (region s r).mirror = 2 → exec (.mirrorDegrade mid r) s = .next (okWrite
              (setOd (degradeRegion s r 0 6) (0x8100 + r) 0x09 0) mid (0x8100 + r) 0x05)))
      ∧ (isOrigin s r = false →
          exec (.mirrorResync mid r) s = .next (okWrite (setOd s (0x8100 + r) 0x09 2) mid (0x8100 + r) 0x05)))

/-- LOAD and DERIVE of a draining slot fail with their status; else the slot begins loading and the script of accesses at the
key port starts; ERASE_SLOT empties a slot and its cached keys and fails the units that use it. (R265, R267, R271, R272,
R273, R274) -/
def Obligations.Key_command_writes : Prop :=
  ∀ (s : State) (mid : Nat), s.ao.portsUp = true → mid ≠ 0 → od s 0x6000 0x09 % 4 ≠ 1 →
    let k := od s 0x6000 0x01
    let begun := modKey s k (fun x => { x with state := if slotUsable x.state then .reloading else .loading })
    let ctx := (leBytes 8 (od s 0x6000 0x04) ++ leBytes 8 (od s 0x6000 0x05) ++ leBytes 8 (od s 0x6000 0x06)).take (od s 0x6000 0x07)
    let job := fun what => keyJobOf what k (od s 0x6000 0x02) (od s 0x6000 0x03) ctx
    ((keySlot s k).state = .draining →
      exec (.load mid) s = .next (okWrite (cmdStatus s 0x21 6 2) mid 0x6000 0x08)
      ∧ exec (.derive mid) s = .next (okWrite (cmdStatus s 0x21 6 2) mid 0x6000 0x08))
    ∧ ((keySlot s k).state ≠ .draining → s.keyReady = true →
      exec (.load mid) s = .next (okWrite (keyStart (cmdStatus begun 0 0 1) (job .load)) mid 0x6000 0x08)
      ∧ exec (.derive mid) s = .next (okWrite (keyStart (cmdStatus begun 0 0 1) (job .derive)) mid 0x6000 0x08))
    ∧ (∀ v, v < 1024 → s.keyJob = none → s.keyQueue = [] →
      exec (.eraseSlot mid v) s = .next (okWrite (
        let a := modKey s v (fun x => { x with state := if (keySlot s v).state = .empty then .empty else .erased,
                                               live := 0, shadow := 0, derived := false })
        let b := { a with ridges := a.ridges.mapVals {} (fun r => { r with keyCache := r.keyCache.filter (fun x => x.1.1 ≠ v), keyFills := r.keyFills.filter (fun x => x.1 ≠ v) }) }
        let us := b.units.entries.filter (fun e => match e.2.key with
          | some (n, _) => decide (n = v)
          | none => false)
        let d := (us.filter (fun e => e.2.state = .committed)).foldl fillDiscarded ((us.map (fun e => e.1)).foldl (eraseUnit v) b)
        releaseHeld (keyNotice (count d 0x6000 0x10) v 3 0) (fun c => decide (c = .keyLoading)))
        mid 0x6000 0x15))

/-- REARM, IMAGE_CMD, the ENABLE entries of spurs and ridges, ENGINE_FAULTED, REDISCOVER and INJECT_ENGINE have the effects the
rules give, each answered OK. That ENABLE 0 of a RETURNING spur leaves it RETURNING is the model's reading, log entry 22: no
row of the rules names it. (R31, R309, R320, R321, R322, R341, R422) -/
def Obligations.Engine_and_service_writes : Prop :=
  ∀ (s : State) (mid p r g c : Nat), s.ao.portsUp = true → mid ≠ 0 → p < 64 → r < 16 → g < 4 → c < 128 →
    ((spare s g).state = 3 → (spare s g).csGood = true → exec (.rearm mid g) s
        = .next (okWrite (modSpare s g (fun y => { y with state := 0, spur := 0xFF, switched := false })) mid (0x4180 + g) 0x03))
    ∧ (s.image.state ≠ 1 → (s.image.state = 2 → ∀ p < 64, (spur s p).svc = .out) → od s 0x4000 0x01 % 64 = 0 →
        exec (.imageCmd mid 1) s = .next (okWrite (imageAsk { s with image := { state := 1 } } 64) mid 0x4000 0x04))
    ∧ (s.image.state = 2 → (∃ p < 64, (spur s p).svc ≠ .out) → exec (.imageCmd mid 1) s
        = .next (okWrite { s with image := { s.image with result := 1, cause := 0 } } mid 0x4000 0x04))
    ∧ ((spur s p).svc = .out →
        let b := modSpur s p (fun x => { x with chosenOut := x.chosenOut && decide (x.svc = .draining) })
        (spurRefusal b p = 0 → exec (.spurEnable mid p) s = .next (okWrite (startSpur b p) mid (0x4100 + p) 0x01))
        ∧ (spurRefusal b p ≠ 0 → exec (.spurEnable mid p) s = .next (okWrite
            (modSpur (setOd b (0x4100 + p) 0x01 0) p (fun x => { x with refusal := spurRefusal b p })) mid (0x4100 + p) 0x01)))
    ∧ ((spur s p).svc ≠ .returning → exec (.spurDisable mid p) s = .next (okWrite
        (drainSpur (modSpur (setOd s (0x4100 + p) 0x01 0) p (fun x => { x with chosenOut := true })) p 1) mid (0x4100 + p) 0x01))
    ∧ ((spur s p).svc = .returning → exec (.spurDisable mid p) s = .next (okWrite
        (modSpur (setOd s (0x4100 + p) 0x01 0) p (fun x => { x with chosenOut := true })) mid (0x4100 + p) 0x01))
    ∧ ((ridge s r).svc = .out → s.image.state = 2 → exec (.ridgeEnable mid r) s = .next (okWrite (startRidge
        (modRidge s r (fun x => { x with chosenOut := x.chosenOut && decide (x.svc = .draining) })) r) mid (0x4010 + r) 0x01))
    ∧ exec (.ridgeDisable mid r) s = .next (okWrite
        (drainRidge (modRidge (setOd s (0x4010 + r) 0x01 0) r (fun x => { x with chosenOut := true })) r 1) mid (0x4010 + r) 0x01)
    ∧ exec (.engineFaultedWrite mid p) s = .next (okWrite (svcKick (setOd s (0x4100 + p) 0x08 0)) mid (0x4100 + p) 0x08)
    ∧ exec (.rediscover mid c) s = .next (okWrite (modChan s c (fun x => { x with again := true })) mid (0x4400 + c) 0x05)
    ∧ (∀ e, e < 64 → exec (.injectEngine mid e) s
        = .next (okWrite (modSpur s e (fun x => { x with injected := true })) mid 0xA000 0x01))
    ∧ exec (.injectEngine mid (64 + g)) s = .next (okWrite (modSpare s g (fun x => { x with injected := true })) mid 0xA000 0x01)

/-- A read of LOCK takes a free lock and answers the owner; release and force free it; IN_DATA and IN_POST need the lock;
OUT_ACK answers a posted message; the engine takes an inbound echo; an outbound message unanswered times out. (R312, R313,
R314, R315) -/
def Obligations.Mailbox_commands : Prop :=
  ∀ (s : State) (mid p v : Nat), s.ao.portsUp = true → mid ≠ 0 → mid < 256 → p < 64 →
    let m := (spur s p).mbox
    let put := fun f : Mbox → Mbox => modSpur s p (fun x => { x with mbox := f x.mbox })
    let lockKey := (0x4200 + p) * 256 + 1
    (s.badStore.contains lockKey = false →
      (m.owner = 0 ∨ m.owner = mid →
        exec (.mboxLockRead mid p) s = .next (emit (put (fun m => { m with owner := mid })) (.ctl mid 0 0)))
      ∧ (m.owner ≠ 0 → m.owner ≠ mid →
        exec (.mboxLockRead mid p) s = .next (emit s (.ctl mid 0 (BitVec.ofNat 64 m.owner)))))
    ∧ (m.owner = mid → exec (.mboxLockRelease mid p) s = .next (okWrite (put (fun m => { m with owner := 0 })) mid (0x4200 + p) 0x01))
    ∧ (m.owner ≠ mid → exec (.mboxLockRelease mid p) s = .next (okWrite s mid (0x4200 + p) 0x01))
    ∧ (m.owner ≠ 0 → exec (.mboxLockForce mid p) s = .next (okWrite
        (cairn (put (fun m => { m with owner := 0 })) 0x43 (cu 1 p) 0xFFFF (m.owner * 16 + mid) 0 0 0 0) mid (0x4200 + p) 0x01))
    ∧ (∀ w, w < 8 → v < 2 ^ 64 → m.owner = mid → exec (.inDataWrite mid p w v) s = .next (okWrite (put (fun m =>
        { m with inData := setAt (m.inData ++ List.replicate (8 - m.inData.length) 0) w (BitVec.ofNat 64 v) }))
        mid (0x4200 + p) (0x02 + w)))
    ∧ (v < 65536 → m.owner = mid → m.inState ≠ 1 → m.inState ≠ 2 → exec (.inPost mid p v) s = .next (okWrite
        (put (fun m => { m with inState := 1, inCode := v, inAck := 0, owner := 0 })) mid (0x4200 + p) 0x0A))
    ∧ (1 ≤ v → v ≤ 5 → m.outState = 1 → exec (.outAck mid p v) s = .next (okWrite
        (put (fun m => { m with outState := 2, outAck := v })) mid (0x4200 + p) 0x15))
    ∧ (m.inState = 1 → (spur s p).svc = .inService → (spur s p).stopped = false → (spur s p).current = none → ctxUsed s p 63 = false →
        m.inCode = 1 →
        ∃ t, exec (.mailboxTaken p) s = .next t ∧ (spur t p).mbox.inState = 3 ∧ (spur t p).mbox.inAck = 1
          ∧ (spur t p).mbox.inData.head? = some (m.inData.getD 0 0) ∧ t = { s with spurs := t.spurs })
    ∧ (m.outState = 1 → exec (.outTimeout p) s = .next (put (fun m => { m with outState := 0, outTimeout := true })))

/-- SHUTDOWN from UNARMED or ARMED begins the orderly shutdown; DROP_PENDING drops pending units; IDLE_HINT_US sets or clears a
hint; a write of a peak or minimum entry sets it to the current value. (R353, R357, R369, R374, R378, R381, R460) -/
def Obligations.Power_writes : Prop :=
  ∀ (s : State) (mid r n v : Nat), s.ao.portsUp = true → mid ≠ 0 → r < 16 → n < 17 →
    (s.ao.pf = .unarmed ∨ s.ao.pf = .armed → exec (.shutdown mid) s = .next (okWrite
        (fillGroups { s with ao := { s.ao with pf := .shutdown, orderly := true } } (fun _ => true)) mid 0x7000 0x14))
    ∧ (s.ao.pf ≠ .unarmed → s.ao.pf ≠ .armed → exec (.shutdown mid) s = .next (okWrite s mid 0x7000 0x14))
    ∧ (v < 1024 ∨ v = 0xFFFF → exec (.dropPending mid v) s = .next (okWrite (dropPendingUnits s v) mid 0x7100 0x03))
    ∧ (v < 2 ^ 32 → exec (.idleHintUs mid r v) s = .next (okWrite
        (modRidge s r (fun x => { x with hintUntil := if v = 0 then none else some (s.ao.timeUs + v) })) mid (0x7140 + r) 0x03))
    ∧ (v < 65536 → exec (.railMinMvWrite mid v) s = .next (okWrite (setOd s 0x7000 0x02 (railMv s)) mid 0x7000 0x02))
    ∧ (v < 2 ^ 32 → exec (.demandPeakWrite mid v) s
        = .next (okWrite (setOd s 0x7000 0x11 (sat (2 ^ 32 - 1) (demand s))) mid 0x7000 0x11))
    ∧ (v < 65536 → exec (.tempPeakWrite mid n v) s
        = .next (okWrite (setOd s (0x7210 + n) 0x02 (od s (0x7210 + n) 0x01)) mid (0x7210 + n) 0x02))

/-- ENABLE of the ring sends a check; PORT_SEQ within the log is stored; RATE as written; NONCE_REQ makes a nonce of the block
time, the counter and the epoch; CLEAR_CMD with a nonce younger than 60 s starts the clear, and without one fails with cause
1; the clear key is designated once; INJECT_MEM arms an error. (R400, R406, R408, R412, R413, R414, R422) -/
def Obligations.Log_ring_and_diagnostic_writes : Prop :=
  ∀ (s : State) (mid v : Nat), s.ao.portsUp = true → mid ≠ 0 → v < 2 ^ 32 →
    (od s 0x9000 0x01 = 0 → exec (.crestlineEnable mid) s = .next (okWrite
        (let b := setOd s 0x9000 0x01 1
         sendRing { b with crest := { b.crest with state := 1, checkOut := true } } (nodeId b) 0xC 0 []) mid 0x9000 0x01))
    ∧ (od s 0x9200 0x01 = 0 → (v + 2 ^ 32 - oldestSeq s) % 2 ^ 32 ≤ (s.ao.nextSeq + 2 ^ 32 - oldestSeq s) % 2 ^ 32 →
        exec (.portSeqWrite mid v) s = .next (okWrite (setOd s 0x9200 0x02 v) mid 0x9200 0x02))
    ∧ (v ≤ 1000 → exec (.rateWrite mid v) s = .next (okWrite (writeRate s (selOf s mid 0x9100 0x0D) v) mid 0x9100 0x0E))
    ∧ (∃ t, exec (.nonceReq mid) s = .next t ∧ t.ao.nonce = some (BitVec.ofNat 64 s.ao.timeUs,
          place 64 0 (od t 0x9100 0x1C % 2 ^ 32) ||| place 64 32 (od s 0x2100 0x06 % 65536))
        ∧ t.ao.timeUs = s.ao.timeUs ∧ t.ao.log = s.ao.log)
    ∧ (s.ao.clear = none → (∀ n, s.ao.nonce = some n → n.1.toNat + 60000000 ≤ s.ao.timeUs) → exec (.clearCmd mid) s = .next (okWrite
        (clearFail { s with ao := { s.ao with nonce := none } } 1 mid 1 0) mid 0x9100 0x18))
    ∧ (s.ao.clear = none → ∀ n0 n1, s.ao.nonce = some (n0, n1) → s.ao.timeUs < n0.toNat + 60000000 → s.ao.logFault = false → od s 0x9100 0x1A ≠ 0xFFFFFFFF →
        s.keyReady = true → exec (.clearCmd mid) s = .next (okWrite (
          let a := { s with ao := { s.ao with nonce := none, clear := some ⟨1, 1, mid, n0, n1, 0, 0⟩ } }
          keyStart (clearStatus a 0 0 1) (keyJobOf .clear 0 (od s 0x9100 0x1A) 0
            ([0x43, 0x41, 0x49, 0x52, 0x4E, 0x43, 0x4C, 0x52] ++ bytesOf 8 n0 ++ bytesOf 8 n1 ++ leBytes 8 (od s 0x1000 0x03))))
          mid 0x9100 0x18))
    ∧ (s.ao.keyDesignated = false → exec (.clearKeyIndexWrite mid v) s = .next (okWrite
        (let b := setOd s 0x9100 0x1A v
         { b with ao := { b.ao with keyDesignated := true } }) mid 0x9100 0x1A))
    ∧ (memClass (v / 256 % 256) = true → exec (.injectMem mid v) s = .next (okWrite
        { s with inject := s.inject ++ [(v / 256 % 256, v % 256, decide (v / 65536 % 2 = 1))] } mid 0xA000 0x02))

/-- A write at ((index x 256) + subindex) x 8 acts on that entry. A refused write answers its code and changes nothing but index
0x1020; so does one that is not a whole word, with WIDTH. Master 0 is answered 7, an entry that does not exist 1, a
read-only one 2. (R8, R386, R387, R430, R431) -/
def Obligations.Refused_writes_change_nothing_else : Prop :=
  ∀ (s : State) (mid i sub data be : Nat), s.ao.portsUp = true → i < 65536 → sub < 256 →
    let addr := (i * 256 + sub) * 8
    let code := writeCode s ⟨false, mid⟩ i sub data
    (code ≠ 0 → ∃ t, exec (.dictionaryWrite mid addr 0xFF data) s = .next t
        ∧ t.sent = .ctl mid code 0 :: s.sent ∧ t = { s with od := t.od, sent := t.sent }
        ∧ (∀ j u, u < 256 → (j, u) ≠ (0x1020, 1) → (j, u) ≠ (0x1020, 2) → od t j u = od s j u))
    ∧ (be ≠ 0xFF → ∃ t, exec (.dictionaryWrite mid addr be data) s = .next t
        ∧ t.sent = .ctl mid 8 0 :: s.sent ∧ t = { s with od := t.od, sent := t.sent }
        ∧ (∀ j u, u < 256 → (j, u) ≠ (0x1020, 1) → (j, u) ≠ (0x1020, 2) → od t j u = od s j u))
    ∧ (code = 0 → isTvState i sub = false → exec (.dictionaryWrite mid addr 0xFF data) s
        = .next (okWrite (applyWrite s ⟨false, mid⟩ i sub data) mid i sub))
    ∧ (mid = 0 → code = 7) ∧ (mid ≠ 0 → odRow i sub = none → code = 1)
    ∧ (∀ row, mid ≠ 0 → odRow i sub = some row → row.acc = .ro → code = 2)

/-- A record of the backlog is written at TAIL; its good answer retires it, an error sets FAULT and puts TAIL back. The same for
tail word and message; the head word is read while the ring is full, HEAD moves only towards TAIL, and an error answer to
that read sets FAULT; the holdoff ends in a due message. (R80, R81, R82, R83) -/
def Obligations.Notice_rings_write_and_retire_records : Prop :=
  (∀ (s : State) (n : Nat),
     (s.ao.portsUp = true → s.ao.fatal = false → ∀ x, (ring s n).backlog[(ring s n).written]? = some x → (ring s n).enabled = true →
         (ring s n).fault = false → ringFull s n = false →
         exec (.noticeRecordWrite n) s = .next (fabSmall (modRing s n (fun r =>
           { r with written := r.written + 1, tail := (r.tail + 1) % 65536, acks := r.acks ++ [false] }))
           (od s (0x1110 + n) 0x03 + (ring s n).tail % 2 ^ od s (0x1110 + n) 0x04 * 32) 32 (noticeRecord x (ring s n).tail)
           (.record n (ring s n).tail)))
     ∧ (∀ tag r k, Due s tag r (.record n k) →
         exec (.noticeRecordResponse tag false) s = .next (ringRetire (modRing (fabTake s r false) n (fun x =>
           { x with acks := setAt x.acks (recordPos (ring s n) k) true })) n)
         ∧ ∃ t, exec (.noticeRecordResponse tag true) s = .next t ∧ (ring t n).fault = true ∧ (ring t n).tail = k
             ∧ (ring t n).backlog = (ring s n).backlog ∧ (∀ m, m ≠ n → ring t m = ring s m))
     ∧ (∀ tag r, Due s tag r (.tail n) →
         (exec (.tailWordResponse tag false) s = .next (
           let b := messageDue (modRing (fabTake s r false) n (fun x => { x with tailOut := false })) n
           if (ring b n).tailDue ∧ (ring b n).enabled ∧ ¬ (ring b n).fault then tailDue b n else b))
         ∧ ∃ t, exec (.tailWordResponse tag true) s = .next t ∧ (ring t n).fault = true ∧ (ring t n).tailOut = false
             ∧ (ring t n).backlog = (ring s n).backlog)
     ∧ (∀ tag r, Due s tag r (.msg n) →
         exec (.messageWriteResponse tag false) s = .next (modRing (fabTake s r false) n (fun x => { x with msgOut := false }))
         ∧ ∃ t, exec (.messageWriteResponse tag true) s = .next t ∧ (ring t n).fault = true ∧ (ring t n).msgOut = false))
  ∧ (∀ (s : State) (n : Nat),
      (s.ao.portsUp = true → s.ao.fatal = false → (ring s n).enabled = true → (ring s n).fault = false → ringFull s n = true → (ring s n).headOut = false →
          exec (.headWordReread n) s = .next (fabIssue (modRing s n (fun r => { r with headOut := true })) false
            (od s (0x1110 + n) 0x05) 8 [] (.head n)))
      ∧ (∀ tag r (v : W64), Due s tag r (.head n) →
          let m := 2 ^ (od s (0x1110 + n) 0x04 + 1)
          let h := bitsOf v 15 0
          let b := modRing (fabTake s r false) n (fun x => { x with headOut := false })
          exec (.headWordResponse tag true v) s = .next (ringFault (modRing (fabTake s r true) n (fun x => { x with headOut := false })) n r.addr)
          ∧ exec (.headWordResponse tag false v) s = .next (
            if ((ring s n).tail % m + m - h % m) % m ≤ ((ring s n).tail % m + m - (ring s n).head % m) % m
            then modRing b n (fun x => { x with head := h }) else b))
      ∧ (s.ao.portsUp = true →
          let b := modRing s n (fun r => { r with holdoff := false })
          ((ring s n).msgDue = false → exec (.msgHoldoffExpiry n) s = .next b)
          ∧ ((ring s n).msgDue = true → (ring s n).enabled = true → (ring s n).fault = false → s.ao.fatal = false → od s (0x1110 + n) 0x07 ≠ 0 →
              exec (.msgHoldoffExpiry n) s = .next (fabSmall (modRing b n (fun r =>
                { r with msgDue := false, msgOut := true, holdoff := decide (od s (0x1110 + n) 0x09 ≠ 0) }))
                (od s (0x1110 + n) 0x07) 4 (od s (0x1110 + n) 0x08) (.msg n)))))

/-- A free port of an awake ridge runs the phase its arbiter picks, and one that is not free none; a status poll in its turn
goes out and latches the byte, a valid one of a busy LUN standing: with RDY it shows a suspension that is awaited, or ends
what the LUN runs; an invalid one is read again and the third fails the die; a LUN busy, or a suspension not shown, beyond
its time fails the die, but not on a channel that has lost its training. (R124, R128, R332, R333, R340, R347, R377) -/
def Obligations.Port_phases_polls_and_timeouts : Prop :=
  ∀ (s : State) (p l us i : Nat) (byte : Byte), s.ao.portsUp = true →
    (∀ k, k < 2 → portFree s (16 * (2 * p + k)) = true →
      (if (spur s p).stopped then choosePosted s (port s p k) else choosePhase s p k) = some i →
      exec (.portPhaseSelect p k) s = .next (runPhase s p k i))
    ∧ (∀ k, k < 2 → portFree s (16 * (2 * p + k)) = false → exec (.portPhaseSelect p k) s = .next s)
    ∧ (pollTurn s l = true →
        let a := latchDie (bus s l (pollCycles s l)) l byte
        ((lunOf s l).busy = .idle → exec (.statusPoll l byte) s = .next a)
        ∧ ((lunOf s l).busy ≠ .idle → statusInvalid byte (chan s (l / 16)).wp = false →
            let z := modLun a l (fun x => { x with invalid := 0 })
            (lunOf z l).dieStatus = byte.toNat
            ∧ (byte.getLsbD 6 = false → exec (.statusPoll l byte) s = .next z)
            ∧ (byte.getLsbD 6 = true → ∀ u, (lunOf s l).susp = some u → showsSuspended s l byte = true → exec (.statusPoll l byte) s
              = .next (modLun z l (fun x => { x with susp := some { u with shown := true } })))
            ∧ (byte.getLsbD 6 = true → (lunOf s l).susp = none ∨ showsSuspended s l byte = false →
              exec (.statusPoll l byte) s = .next (pollReady z l)))
        ∧ ((lunOf s l).busy ≠ .idle → statusInvalid byte (chan s (l / 16)).wp = true →
            ((lunOf s l).invalid < 2 → exec (.statusPoll l byte) s
              = .next (modLun (bus a l (pollCycles a l)) l (fun x => { x with invalid := x.invalid + 1 })))
            ∧ (2 ≤ (lunOf s l).invalid → exec (.statusPoll l byte) s = .next (dieFail a l 2))))
    ∧ (pollTurn s l = false → exec (.statusPoll l byte) s = .next s)
    ∧ ((lunOf s l).busy ≠ .idle → dataInOpen s l = false → (lunOf s l).busy.dataIn = false → (chan s (l / 16)).lost = false →
        overdue s ((lunOf s l).ranUs + (s.ao.timeUs - (lunOf s l).startUs)) (busyMax s l) = true →
        exec (.busyTimeout l us) s = .next (dieFail (count s (0x4400 + l / 16) 0x09) l 1))
    ∧ ((chan s (l / 16)).lost = true → (lunOf s l).busy ≠ .idle →
        exec (.busyTimeout l us) s = .next s ∧ exec (.suspendPollTimeout l us) s = .next s)
    ∧ (∀ u, (lunOf s l).susp = some u → u.observed = false → u.shown = false → (chan s (l / 16)).lost = false →
        overdue s (s.ao.timeUs - u.since) (suspendTime s l) = true →
        exec (.suspendPollTimeout l us) s = .next (dieFail (count s (0x4400 + l / 16) 0x09) l 1))

/-- The end of an array read makes its Cornice entries valid and held as the class and HOLD say; a slot received is taken from
the port; the answers to read data settle their entry or fail it. (R97, R119, R120, R123, R147) -/
def Obligations.Array_reads_and_slots_arrive : Prop :=
  ∀ (s : State), s.ao.portsUp = true →
    (∀ l planes b g st c held, (lunOf s l).busy = .read planes b g st c held → (lunOf s l).ladder = none →
      exec (.arrayReadDone l) s = .next (climbWaiting (finishLoad (modLun s l (fun x => { x with busy := .idle })) l planes held) l))
    ∧ (∀ l k planes held, (corn s (cornOf l k)).loading = true → k ∈ planes →
        let e := corn (finishLoad s l planes held) (cornOf l k)
        e.valid = true ∧ e.loading = false ∧ e.held = (held.contains k && decide (od s 0x5800 0x01 ≠ 0)))
    ∧ (∀ p k raw more u rest, k < 2 → (port s p k).infl = u :: rest →
        let same := fun v : Pull => decide (v.fpa = u.fpa) && decide (v.unit = u.unit) && decide (v.soft = u.soft)
        exec (.slotReceived p k ⟨raw, more⟩) s = .next (
          let b := modPort s p k (fun y =>
            { y with infl := rest.dropWhile same,
                     seg := match y.seg with
                       | some (c, .pull, n) => if rest.dropWhile same = [] then none else some (c, .pull, n)
                       | z => z })
          openingGo (refugeGo (stageRetry ((u :: rest.takeWhile same).foldl (slotFor p raw more) b) (p / 4)) (lunRidge (fBlun u.fpa)))
            (fBlun u.fpa)))
    ∧ (∀ tag r q i, Due s tag r (.rdata q i) →
        exec (.readDataWriteResponse tag false) s
          = .next (settle (modEnt (fabTake s r false) q i (fun e => { e with io := e.io - 1 })) q i)
        ∧ exec (.readDataWriteResponse tag true) s = .next (settle (dataFail
            (modEnt (fabTake s r true) q i (fun e => { e with io := e.io - 1 })) q i r.addr) q i))

/-- A finished gap move changes start and gap, with open units mapped anew, counts it, logs it and releases what waited; the end
of a hold window frees the entry; a suspension a poll has shown is observed, its window ends, its reads done it resumes.
(R46, R123, R132, R133, R208, R340, R365) -/
def Obligations.Moves_holds_suspends_and_resumes : Prop :=
  (∀ (s : State) (r lun : Nat) (m : Move), s.ao.portsUp = true → moveOf s r lun = some m → m.stage = 4 → m.ctx = none →
     let sg := afterMove (winL s r) (tvOf s r lun).start (tvOf s r lun).gap
     exec (.gapMoveCommit r lun) s = .next (
       let a := remapOpen (modTv s r lun (fun t => { t with moving := false, start := sg.1, gap := sg.2 })) r lun
       let b := count a (0x2000 + r) 0x14
       let c := cairn b 0x18 (cu 12 lun) r 0 0 (sg.1 * 65536 + sg.2) (od b (0x2000 + r) 0x14) 0
       testMoves (releaseMoves { c with moves := c.moves.filter (fun x => ¬ (x.region = r ∧ x.lun = lun)) }) lun))
  ∧ (∀ (s : State) (l e : Nat), s.ao.portsUp = true →
      exec (.holdWindowExpiry e) s
          = .next (openingGo (refugeGo (modCorn s e (fun c => { c with held := false })) (lunRidge (e / 6))) (e / 6))
      ∧ (∀ pl b, (lunOf s l).busy = .erase pl b →
          exec (.resumeRunElapsed l) s = .next (judgeWaiting (modLun s l (fun x => { x with runOk := true })) l))
      ∧ (∀ hs pl b, (lunOf s l).busy = .program hs pl b →
          exec (.resumeRunElapsed l) s = .next (judgeWaiting (modLun s l (fun x => { x with runOk := true })) l))
      ∧ (∀ u, (lunOf s l).susp = some u → u.observed = false → u.shown = true →
          exec (.suspendObserved l) s = .next (climbWaiting (modLun s l (fun x =>
            { x with susp := some { u with observed := true, issueUs := x.issueUs, ranUs := x.ranUs + (s.ao.timeUs - x.startUs) },
                     suspended := some x.busy, busy := .idle })) l))
      ∧ (∀ u, (lunOf s l).susp = some u → u.observed = false → u.shown = false → exec (.suspendObserved l) s = .next s)
      ∧ (∀ u, (lunOf s l).susp = some u →
          ∃ t, exec (.suspendWindowExpiry l) s = .next t ∧ (lunOf t l).susp = some { u with windowOpen := false }
            ∧ t = { s with luns := t.luns } ∧ (∀ j, j ≠ l → lunOf t j = lunOf s j))
      ∧ (∀ u, (lunOf s l).susp = some u → u.observed = true → (lunOf s l).busy = .idle →
          let k := suspendedClass s l
          portTurn s l k u.no = true →
          (railDown s = false → (lunOf s l).ladder = none → (∀ c ∈ u.reads, dieDone s l c = true) →
            exec (.resumeIssue l) s = .next (resumeLun (tookTurn s l k) l))
          ∧ (railDown s = true → eraseSuspended (lunOf s l) = false → exec (.resumeIssue l) s = .next (resumeLun (tookTurn s l k) l))))

/-- A staged interleave goes to the decoder chosen for it; with no island ready past the timeout its descriptor ends NOT_READY;
the end of a decode or chase finishes it. (R23, R154, R162, R164) -/
def Obligations.Outer_decoders_serve_staged_interleaves : Prop :=
  ∀ (s : State) (rg isl k : Nat) (t : Stage), s.ao.portsUp = true →
    (∀ d, nextStage s (rg / 4) = some t → decoderFor s t.ridge t = some (d, k) →
      exec (.decoderAssign rg) s = .next (stageRetry (modDec (modRidge s t.ridge (fun r => { r with staged := r.staged.erase t })) d
        (fun x => { x with jobs := x.jobs.set none k (some t) })) t.ridge))
    ∧ ((∀ d < 4, (dec s d).ready = false) → (ridge s rg).staged = [t] → od s 0x7100 0x01 * 1000 ≤ s.ao.timeUs - t.since →
      exec (.decoderWaitTimeout rg) s = .next
        (failDesc s t.spur t.ctx ⟨0x40, 3 * 256 + rg / 4, sat (2 ^ 32 - 1) (s.ao.timeUs - t.since)⟩))
    ∧ ((dec s isl).jobs.get none k = some t →
      (t.soft = [] → exec (.outerDecodeDone isl k) s = .next (finishDecode s isl k t t.lines []))
      ∧ (t.soft ≠ [] → exec (.chaseDecodeDone isl k) s = .next (finishDecode
          (if ctxUsed s t.spur t.ctx then countBy s (0x2110 + t.spur / 4) 0x0B (chaseCount s t) else s) isl k t
          ((List.range 128).map (fun i => ((chaseLines s t).find? (fun y => y.1 = i)).map (fun y => y.2.2))) (chaseLines s t))))

/-- With the thresholds of a rung set the ladder issues its array read, or at rung 4 its soft read, or waits for its port; with
step 0 restored it ends and what waited on the LUN, or on its twin, climbs. (R120, R123, R161, R165) -/
def Obligations.Thresholds_are_set_and_restored : Prop :=
  ∀ (s : State) (l : Nat) (y : Ladder), s.ao.portsUp = true → (lunOf s l).ladder = some y →
    let k := (ctxOf s (lunSpur l) y.ctx).cls
    let f := mkFpaB false l y.plane y.block y.page 0
    let a := modLun (tookTurn s l k) l (fun z => { z with ladder := some { y with phase := 1 } })
    (y.phase = 0 → y.ctx ≠ 64 → arrayOpen s l = true → portTurn s l k (s.turns + 1) = true →
      (y.rung ≠ 4 → exec (.thresholdsSet l) s = .next (issueRead a l [f] y.step y.ctx
        (if (y.ctx :: y.joined).any (fun c => decide ((ctxOf a (lunSpur l) c).cls ≤ 1)) then [y.plane] else [])))
      ∧ (y.rung = 4 → exec (.thresholdsSet l) s = .next (
        let b := bus (invalidatePlanes a l [y.plane]) l (readCycles a l (blockMode a y.region y.block) [f])
        modLun b l (fun z => z.issue (.soft y.plane y.block y.page y.ctx y.soft) s.ao.timeUs))))
    ∧ (y.phase = 0 → y.ctx ≠ 64 → arrayOpen s l = false ∨ portTurn s l k (s.turns + 1) = false →
      exec (.thresholdsSet l) s = .next (
        modPort (stamp (modLun s l (fun z => { z with ladder := some { y with phase := 4 } }))) (lunSpur l) (lunPort l) (fun p =>
          { p with waiting := p.waiting ++ [{ ctx := y.ctx, cls := k, kind := .arrayRead, lun := l, plane := y.plane, fpa := f, no := s.turns + 1 }] })))
    ∧ (y.phase = 3 → exec (.stepZeroRestored l) s
        = .next (climbWaiting (climbWaiting (modLun s l (fun z => { z with ladder := none })) l) (twin l)))

/-- A line reaches its unit; a committed unit with nothing pending seals; WL_FILL_MS after the first commit, and not before, the
holes of a wordline group are filled; a DONE unit without readers is freed with its generation advanced and no line left; a
sealed sector is counted and noted. (R186, R192, R194, R195, R201) -/
def Obligations.Ledge_units_fill_commit_and_seal : Prop :=
  ∀ (s : State) (h : BitVec 32), s.ao.portsUp = true → (unit s (unitKey h)).gen = hGen h →
    let u := unitKey h
    let d := unit s u
    (d.state = .opened ∨ d.state = .committed → d.keyLost = false → exec (.lineStore h) s = .next (storeFirst s u))
    ∧ (d.state = .committed → d.ready = false → d.writers = [] → d.loading = 0 → heldWriter s u = false →
        exec (.unitCommitted h) s = .next (startSealing s u))
    ∧ (d.state = .committed → d.fillUs ≤ s.ao.timeUs → d.restored = false ∨ (region s d.region).state = 1 →
        exec (.wlFillExpiry h) s = .next (fillGroup s u))
    ∧ (d.state = .committed → s.ao.timeUs < d.fillUs → exec (.wlFillExpiry h) s = .next s)
    ∧ (d.state = .done → d.readers = 0 → d.mirror = [] →
        exec (.unitRelease h) s = .next (moveRetry (freeUnit s u) (u / 232))
        ∧ (unit (freeUnit s u) u).state = .free ∧ (unit (freeUnit s u) u).gen = (d.gen + 1) % 65536
        ∧ (unit (freeUnit s u) u).lines = { entries := [] })
    ∧ (∀ rg e j, gcmJob s rg (e % 2) = some j → j.sealing = true → exec (.sectorSealed rg e) s = .next (noteComplete (count (gcmFree
        (modUnit s j.record (fun d => { d with sealedSec := d.sealedSec ++ [j.sector] })) rg (e % 2)) 0x6000 0x13) j.record))

/-- A complete wordline group, the first of its LUN in the order of completion, begins its program when the LUN and its port let
it; each segment puts its bytes and at the end of a page its confirm byte on the bus; a poll that shows a confirmed program
at its end gives its failing planes by FAIL and the mask (a mask that names none leaves all failed), and ends it, or where
the planes go one by one posts the next one. That R183's order is that of the groups of one LUN is the model's reading, log
entry 50. (R22, R180, R183, R198, R199, R369) -/
def Obligations.Programs_start_transfer_and_end : Prop :=
  ∀ (s : State), s.ao.portsUp = true →
    (∀ h, let u := unitKey h
      let d := unit s u
      let l := fBlun d.phys
      d.gen = hGen h → d.state = .committed →
      let a := if s.ao.pf = .shutdown then fillGroup s u else s
      d.restored = false ∨ (region a d.region).state = 1 → groupComplete a u = true → turnAhead a u = false → lunIdle a l = true →
      arrayOpen a l = true → portTurn a l d.cls d.turn = true → (spur a (lunSpur l)).svc = .inService ∨ (spur a (lunSpur l)).svc = .draining →
      (spur a (lunSpur l)).stopped = false →
      exec (.programStart h) s = .next (beginProgram (tookTurn a l d.cls) u))
    ∧ (∀ p k u n, k < 2 → (port s p k).seg = some (u, .dataIn, n) →
      let l := fBlun (unit s u).phys
      let b := bus (modPort s p k (fun y => { y with seg := none })) l (segmentCycles s l n)
      (n = 0 → exec (.dataInSegmentDone p k) s = .next (
        let c := modPort b p k (fun y => { y with waiting := y.waiting.filter (fun ph => !(decide (ph.kind = .dataIn) && decide (ph.lun = l))) })
        judgeWaiting (modLun c l (fun x => { x with startUs := c.ao.timeUs, issueUs := c.ao.timeUs, ranUs := 0, runOk := decide (od c 0x5800 0x03 = 0) })) l))
      ∧ (n ≠ 0 → exec (.dataInSegmentDone p k) s = .next (modPort b p k (fun y =>
          { y with waiting := y.waiting.map (fun ph => if ph.kind = .dataIn ∧ ph.ctx = u then { ph with step := n } else ph) }))))
    ∧ (∀ now mask (byte : Byte), (byte.getLsbD 0 = false → failingPlanes now mask byte = [])
      ∧ (byte.getLsbD 0 = true → (∃ k ∈ now, mask.testBit k = true) → failingPlanes now mask byte = now.filter (fun k => mask.testBit k))
      ∧ (byte.getLsbD 0 = true → (∀ k ∈ now, mask.testBit k = false) → failingPlanes now mask byte = now))
    ∧ (∀ l mask (byte : Byte) us now blk, Ready s l byte → dataInOpen s l = false → (lunOf s l).busy = .program us now blk →
      let z := polled s l byte
      let bad := failingPlanes now mask byte
      let c := if bad = [] then z else countProgramFail z l
      let failed := (lunOf z l).planesFailed ++ bad.map (fun k => (k, byte.toNat))
      ((lunOf z l).planesLeft = [] → exec (.programResult l mask byte) s = .next (endProgram c l failed none))
      ∧ (∀ k left, (lunOf z l).planesLeft = k :: left → exec (.programResult l mask byte) s = .next (postDataIn
          (modLun c l (fun x =>
            { x with busy := .program us [k] blk, planesLeft := left, planesFailed := failed,
                     seqFirst := x.seqFirst + (programRows z l).length })) l (us.headD 0))))
    ∧ (∀ l (byte : Byte), Ready s l byte → let z := polled s l byte
        (lunOf z l).busy = (lunOf s l).busy ∧ (lunOf z l).planesLeft = (lunOf s l).planesLeft
        ∧ (lunOf z l).planesFailed = (lunOf s l).planesFailed ∧ (lunOf z l).erases = (lunOf s l).erases
        ∧ (lunOf z l).dieStatus = byte.toNat)

/-- Results come by a poll that shows the LUN ready. An unblocked erase is issued when its LUN and port let it, with journaling
after its INTENT marker, a switch of flag blocks first where one is due, plane by plane where the die has no multi-plane
erase; its result goes to the DONE marker or is settled; the DONE marker settles it and resolves the open markers. A marker
that fails is programmed once more after a switch; a second failure of an INTENT ends the erase unissued with DETAIL [15:8]
0xF0, or completes it by the die result. (R208, R209, R210, R217, R218, R219, R221) -/
def Obligations.Erases_run_between_their_markers : Prop :=
  ∀ (s : State) (l : Nat) (j : EraseJob) (rest : List EraseJob), s.ao.portsUp = true → (lunOf s l).erases = j :: rest →
    (j.phase = .queued → eraseBlocked s l j = false → eraseOpen s l = true →
      (j.journal = false → exec (.eraseCommandIssue l) s
        = .next (startDone (startNext (startMarked (issueErase (tookTurn s l 3) l j) l) l) l))
      ∧ (j.journal = true → j.retried = false → covers s (eProgram s 0) = true → switchDue s l = false →
        exec (.eraseCommandIssue l) s
          = .next (startDone (startNext (startMarked (programMarker (takeSeq (tookTurn s l 3) l) l j 1) l) l) l)))
    ∧ (j.phase ≠ .marked → j.journal = true → switchDue s l = true → exec (.eraseCommandIssue l) s = .next (switchFirst s l j))
    ∧ (∀ byte : Byte, Ready s l byte → j.phase = .intent → (lunOf s l).busy = .marker →
      let e := markerEnd (polled s l byte) l j
      let f := markerFailed e l byte.toNat 1 j.desc.region
      (byte.getLsbD 0 = false → exec (.intentMarkerResult l byte) s = .next (startMarked (modErase (modLun e l (fun x =>
        { x with markers := x.markers ++ [⟨fBlock j.desc.phys, planeMask j.planes, j.seq, j.desc.region, j.record, x.flagBlock⟩] })) l
        (fun j => { j with phase := .marked, retried := false })) l))
      ∧ (byte.getLsbD 0 = true → j.retried = true → exec (.intentMarkerResult l byte) s
        = .next (endErase f l j (unmarkedStatus byte.toNat j)))
      ∧ (byte.getLsbD 0 = true → j.retried = false → exec (.intentMarkerResult l byte) s
        = .next (eraseIssue (modErase f l (fun j => { j with phase := .queued, retried := true, byte := byte.toNat })) l)))
    ∧ (∀ mask (byte : Byte) pl b, Ready s l byte → (lunOf s l).busy = .erase pl b →
      let bad := failingPlanes pl mask byte
      let f := { j with fail := j.fail ||| planeMask bad, byte := if j.fail = 0 then byte.toNat else j.byte,
                        passed := j.passed ++ pl.filter (fun k => !bad.contains k) }
      let t := fun p => climbWaiting (modErase (modLun (polled s l byte) l (fun x => { x with busy := .idle })) l (fun _ => { f with phase := p })) l
      (j.left ≠ [] → exec (.eraseResult l mask byte) s = .next (startNext (t j.phase) l))
      ∧ (j.left = [] → j.journal = true → exec (.eraseResult l mask byte) s = .next (startDone (t .doneMark) l))
      ∧ (j.left = [] → j.journal = false → exec (.eraseResult l mask byte) s = .next (settleErase (t j.phase) l f)))
    ∧ (∀ k left, j.left = k :: left → j.phase = .erasing → eraseOpen s l = true →
      startNext s l = nextErase (tookTurn s l 3) l j k left)
    ∧ (∀ byte : Byte, Ready s l byte → j.phase = .doneMark → (lunOf s l).busy = .marker →
      let e := markerEnd (polled s l byte) l j
      let f := markerFailed e l byte.toNat 2 j.desc.region
      (byte.getLsbD 0 = false → exec (.doneMarkerResult l byte) s = .next (settleErase (modLun e l (fun x =>
        { x with markers := resolveMarks x.markers (fBlock j.desc.phys) (planeMask j.planes) j.fail j.seq })) l j))
      ∧ (byte.getLsbD 0 = true → j.retried = true → exec (.doneMarkerResult l byte) s = .next (settleErase f l j))
      ∧ (byte.getLsbD 0 = true → j.retried = false → exec (.doneMarkerResult l byte) s
        = .next (eraseIssue (modErase f l (fun j => { j with retried := true })) l)))

/-- A poll that shows a probe's operation done sends its next one; after the last the result ends the probe and restores step 0;
a due patrol step runs, or is marked late once; an assessed page is judged. (R224, R227, R229) -/
def Obligations.Probes_and_patrol_steps : Prop :=
  ∀ (s : State), s.ao.portsUp = true →
    (∀ l zeros pl b r todo, (lunOf s l).busy = .probe pl b r todo → todo.length ≤ 1 →
      let i := modLun s l (fun x => { x with busy := .idle })
      (∀ p c more, probeCtxs s l = (p, c) :: more →
        exec (.probeResult l zeros) s = .next (probeRestore (probeEnded i l p c zeros) l r b))
      ∧ (probeCtxs s l = [] → exec (.probeResult l zeros) s = .next (probeRestore i l r b)))
    ∧ (∀ l zeros pl b r x y more, (lunOf s l).busy = .probe pl b r (x :: y :: more) →
      exec (.probeResult l zeros) s = .next s
      ∧ (∀ byte, Ready s l byte → (lunOf s l).susp = none → exec (.statusPoll l byte) s = .next (modLun (bus (polled s l byte) l y.2) l
          (fun z => { z with busy := .probe pl b r (y :: more), startUs := s.ao.timeUs, ranUs := 0 }))))
    ∧ (∀ r, (region s r).state = 1 → fetchOpen s = true → od s (0x2000 + r) 0x08 ≠ 0 → od s 0x2240 0x01 ≠ 0 →
      ((region s r).scrubOut = 0 → exec (.scrubStepDue r) s = .next (scrubStep s r))
      ∧ (0 < (region s r).scrubOut → (region s r).scrubLate = false →
        exec (.scrubStepDue r) s = .next (count (modRegion s r (fun g => { g with scrubLate := true })) (0x2300 + r) 0x05)))
    ∧ (∀ p c, ctxUsed s p c = true → (ctxOf s p c).stage = 4 → (ctxOf s p c).desc.op = 0x18 ∨ (ctxOf s p c).desc.op = 0x40 →
      exec (.scrubPageAssessed p c) s = .next (assessPage s p c))

/-- A whole frame in its turn on a link that is UP is counted, its SEQ and credits go forward, and the effect of its kind
follows, or its refusal. Which NAK cause is given where several hold (here 1, then 7, before the others) is the model's
reading, log entry 32; which frames reattach a member is log entry 33. (R245, R247, R250, R254, R257, R259) -/
def Obligations.Col_frames_are_taken_in_turn : Prop :=
  ∀ (s : State) (l : Nat) (flit : Flit) (data : List Flit) (tail : Flit),
    let f := fhFpa flit
    let num := fhByte20 flit % 8
    let seq := fhSeq flit
    let b := counted s l 1
    (∀ c, (c = Instr.openFrame l flit ∧ Arrives s l 0x02 flit) ∨ (c = .discardFrame l flit ∧ Arrives s l 0x05 flit)
        ∨ (c = .eraseFrame l flit ∧ Arrives s l 0x07 flit) →
      (∀ n, matchFrame b l flit = .error n → exec c s = .next (refuseFrame b l seq n))
      ∧ (∀ r, matchFrame b l flit = .ok r → railLow b = true → exec c s = .next (refuseFrame (reattach b r) l seq 7)))
    ∧ (∀ r, matchFrame b l flit = .ok r → railLow b = false →
      let a := reattach b r
      (Arrives s l 0x02 flit → memberUnit a l (fhHandle flit) = none → frameAddr a 0x09 r f num = true →
          bankRoom a f (num + 1) = true → frameHalf a r f num = false →
        exec (.openFrame l flit) s = .next (
          let y := memberOpen a l r .member 0x09 f num seq (fhHandle flit)
          memberGo (acceptFrame y.1 l r flit [] false) y.2))
      ∧ (Arrives s l 0x05 flit → ∀ u, memberUnit a l (fhHandle flit) = some u →
        ((unit a u).state = .opened ∨ (unit a u).state = .committed →
          exec (.discardFrame l flit) s = .next (acceptFrame (moveRetry (freeUnit a u) (u / 232)) l r flit [] true))
        ∧ ((unit a u).state = .programming ∨ (unit a u).state = .done →
          exec (.discardFrame l flit) s = .next (acceptFrame a l r flit [] true)))
      ∧ (Arrives s l 0x07 flit → frameAddr a 0x10 r f num = true → exec (.eraseFrame l flit) s = .next (acceptFrame (memberPush a
          { op := 0x10, cls := 3, region := r, flags := num, named := f, phys := physOf a r f, arg := num }) l r flit [] true)))
    ∧ (Arrives s l 0x03 flit → exec (.lineFrame l flit) s = .next (lineTaken l flit b))
    ∧ (Arrives s l 0x04 flit → exec (.commitFrame l flit) s = .next (commitTaken l flit b))
    ∧ (Arrives s l 0x06 flit → dataIntact 128 data tail = true →
        exec (.pageFrame l flit data tail) s = .next (pageData l flit data tail (counted s l 130)))
    ∧ (Arrives s l 0x08 flit → exec (.copyFrame l flit) s = .next (copyTaken l flit b))
    ∧ (Arrives s l 0x09 flit → exec (.degradeFrame l flit) s = .next (degradeTaken l flit b))
    ∧ (Arrives s l 0x0A flit → exec (.repairReq l flit) s = .next (requestTaken l flit b))
    ∧ (Arrives s l 0x0B flit → dataIntact 132 data tail = true →
        exec (.repairFrame l flit data tail) s = .next (repairTaken l flit data tail (counted s l 134)))

/-- A damaged frame is counted and answered with a request for replay (an ACK with RETRY 1); one out of turn, not counted, is
answered with the same request; neither has its effect. (R245, R247) -/
def Obligations.Damaged_or_repeated_frames_have_no_effect : Prop :=
  ∀ (s : State) (l : Nat) (flit : Flit), s.ao.portsUp = true → (link s l).state = 2 → (link s l).lanes = true →
    (flitIntact flit = false →
      ∀ c ∈ [Instr.openFrame l flit, .lineFrame l flit, .commitFrame l flit, .discardFrame l flit, .eraseFrame l flit, .copyFrame l flit,
             .degradeFrame l flit, .repairReq l flit, .ack l flit],
        exec c s = .next (ackOn (count s (0x8010 + l) 0x07) l 0 0 0 true))
    ∧ (flitIntact flit = true → fhSeq flit ≠ (link s l).rxNext →
      ∀ c ∈ [(0x02, Instr.openFrame l flit), (0x03, .lineFrame l flit), (0x04, .commitFrame l flit), (0x05, .discardFrame l flit),
             (0x07, .eraseFrame l flit), (0x08, .copyFrame l flit), (0x09, .degradeFrame l flit), (0x0A, .repairReq l flit)],
        fhKind flit = c.1 → exec c.2 s = .next (ackOn s l 0 0 0 true))

/-- A training link sends HELLO while the rail is good and, its lanes up, comes UP on one, with what waited for it released and
damaged pages asked for again; with lanes down nothing is received; an ACK is taken; starved credits, lost lanes and passed
deadlines take the link down or degrade the region, and lanes lost in TRAINING come up again; a replay timeout sends again;
a repair unanswered ends. The SEQ after HELLO, position 0 for a credit timeout and for lost lanes, and the lanes in TRAINING
are log entry 31; the repairs asked at link up are log entry 33. (R244, R245, R247, R248, R251, R257) -/
def Obligations.Links_train_acknowledge_and_fail : Prop :=
  (∀ (s : State) (l : Nat) (flit : Flit), s.ao.portsUp = true →
     ((link s l).state = 1 → railDown s = false → exec (.helloTimer l) s = .next (count { s with sent := .col l 0 (helloFlit s) :: s.sent } (0x8010 + l) 0x04))
     ∧ ((link s l).state = 1 → (link s l).lanes = true → flitIntact flit = true → fhKind flit = 1 → exec (.hello l flit) s = .next (
         let b := modLink s l (fun x => { x with state := 2, txSeq := 1, rxNext := 1, credits := 512 })
         let up := releaseHeld (readyChange (setOd (count b (0x8010 + l) 0x05) (0x8010 + l) 0x03 (fhFpa flit).toNat) 6 l true 0)
           (fun c => decide (c = .link l))
         (List.range 256).foldl askRepairs up))
     ∧ ((link s l).state = 1 → exec (.lanesDown l) s = .next (modLink s l (fun x => { x with lanes := true })))
     ∧ ((link s l).state = 1 ∨ (link s l).state = 2 → (link s l).lanes = false →
         exec (.hello l flit) s = .next s ∧ exec (.openFrame l flit) s = .next s ∧ exec (.ack l flit) s = .next s)
     ∧ ((link s l).state = 2 → (link s l).lanes = true → flitIntact flit = true → fhKind flit = 0x10 → exec (.ack l flit) s = .next (ackTaken s l flit)))
  ∧ (∀ (s : State) (l : Nat), s.ao.portsUp = true → (link s l).state = 2 →
      (∀ f rest, (link s l).waiting = f :: rest → (link s l).credits < f.flits.length →
        exec (.creditTimeout l) s = .next (linkDown s l 3 3 0 0))
      ∧ (∀ seq f, f ∈ (link s l).replay → f.seq = seq → exec (.replayTimeout l seq) s = .next (replayFrom s l seq))
      ∧ exec (.lanesDown l) s = .next (modLink (linkDown s l 3 5 0 0) l (fun x => { x with lanes := decide (x.state = 1) }))
      ∧ (∀ seq pos n t, (link s l).timers.find? (fun t => t.seq = seq) = some t → (∀ f ∈ (link s l).waiting, f.seq ≠ seq) →
        ((List.range (min pos (chainLen s t.region))).map (fun k => k + 1)).find? (fun n => !posAcked (link s l) n seq) = some n →
        exec (.hopDeadline l seq pos) s = .next (if n = 1 then linkDown s l 3 1 1 0 else degradeRegion s t.region n 1))
      ∧ (∀ id e, s.col.table.find? (fun e => decide (e.id = id) && decide (e.since + od s 0x8000 0x05 * 1000 ≤ s.ao.timeUs)) = some e →
        let b := { s with col := { s.col with table := s.col.table.erase e } }
        exec (.repairTimeout id) s = .next (if e.own then
          repairNotice b e.region 3 (chainPos s e.region) id.toNat e.fpa (downLink s e.region) id.toNat else b)))

/-- A read of LOCK or STATUS is made again as asked; an answer goes on to the next access of the command, a held LOCK waits, a
busy STATUS is polled; an access that fails or is not answered, and the two timeouts, end the command with its cause, the
lock released if held. The first STATUS read makes the port ready (R376). A key cache takes the round keys of a started fill
at its end and, full with 32, loses its first and oldest (which key leaves is the model's choice, log entry 34); without a
fill or without the key nothing changes. A blank sector passes its check; another is counted and its tag is checked: without
its key it fails with reason 1, with a line already bad with that reason, with a line that is not sealed with reason 3, with
another tag with reason 4, else it passes. (R143, R268, R270, R271, R273, R281, R282, R376, R435) -/
def Obligations.Key_port_caches_and_tags : Prop :=
  (∀ (s : State) (j : KeyJob), s.ao.portsUp = true → s.keyJob = some j →
     let client := od s 0x6000 0x0A
     let asks := fun (j : KeyJob) (o : PortOut) =>
       { s with keyJob := some { j with busy := true, waitLock := false, waitPoll := false }, sent := o :: s.sent }
     (∀ rest, j.todo = .lock :: rest →
       (j.waitLock = true → exec .keyLockRetry s = .next (asks j (.key false 0x00 0 client)))
       ∧ (j.failed = none → j.busy = true →
         exec .lockTimeout s = .next { s with keyJob := some { j with failed := some (0x22, 1), todo := [.lock] } })
       ∧ (j.failed = none → j.busy = false → j.locked = false →
         exec .lockTimeout s = .next (keyFinish { s with keyJob := some { j with failed := some (0x22, 1), todo := [] } }))
       ∧ (j.failed = none → j.busy = true → s.keyFirst = false → ∀ v : BitVec 32,
         (v ≠ 0 → exec (.keyAccessAck false v) s = .next (count { s with keyJob := some { j with busy := false, waitLock := true } } 0x6000 0x11))
         ∧ (∀ a d more, v = 0 → rest = .write a d :: more → exec (.keyAccessAck false v) s
             = .next (asks { j with locked := true, todo := rest } (.key true a d client)))))
     ∧ (∀ rest, j.todo = .status :: rest →
       (j.waitPoll = true → exec .keyStatusPoll s = .next (asks j (.key false 0x18 0 client)))
       ∧ (j.failed = none → j.busy = true → s.keyFirst = false → ∀ v : BitVec 32,
         v.getLsbD 1 = false → v.getLsbD 0 = true →
         exec (.keyAccessAck false v) s = .next { s with keyJob := some { j with busy := false, waitPoll := true } })
       ∧ (j.failed = none → j.busy = false → j.locked = true →
         exec .opTimeout s = .next (asks { j with failed := some (0x22, 4), todo := [.unlock] } (.key true 0x00 0 client))))
     ∧ (∀ a v rest, j.todo = .write a v :: rest → j.failed = none → j.busy = true → s.keyFirst = false →
       (∀ b w more rdata, rest = .write b w :: more → exec (.keyAccessAck false rdata) s
         = .next (asks { j with todo := rest } (.key true b w client)))
       ∧ (j.locked = true →
         let t := asks { j with failed := some (0x22, 3), todo := [.unlock] } (.key true 0x00 0 client)
         (∀ rdata, exec (.keyAccessAck true rdata) s = .next t) ∧ exec .keyAccessTimeout s = .next t))
     ∧ (s.keyFirst = true → ∀ rdata,
       exec (.keyAccessAck true rdata) s = .next { s with keyFirst := false }
       ∧ exec .keyAccessTimeout s = .next { s with keyFirst := false }
       ∧ (s.keyBad = false → s.keyReady = false →
         exec (.keyAccessAck false rdata) s = .next (readyChange { s with keyFirst := false, keyReady := true } 5 0 true 0))))
  ∧ (∀ (s : State) (rg : Nat), s.ao.portsUp = true →
      (∀ slot gen m, material s (slot, gen) = some m → keyCached s rg (slot, gen) = false → (ridge s rg).keyFills.contains (slot, gen) = true →
        ∃ t, exec (.keyCacheFill rg slot gen) s = .next t ∧ t = { s with ridges := t.ridges }
          ∧ (∀ r, r ≠ rg → ridge t r = ridge s r)
          ∧ ((ridge s rg).keyCache.length < 32 →
            ridge t rg = { ridge s rg with keyCache := (ridge s rg).keyCache ++ [((slot, gen), m)],
                                           keyFills := (ridge s rg).keyFills.filter (fun x => x ≠ (slot, gen)) })
          ∧ (∀ oldest rest, (ridge s rg).keyCache = oldest :: rest → rest.length = 31 →
            ridge t rg = { ridge s rg with keyCache := rest ++ [((slot, gen), m)],
                                           keyFills := (ridge s rg).keyFills.filter (fun x => x ≠ (slot, gen)) }))
      ∧ (∀ slot gen, material s (slot, gen) = none ∨ keyCached s rg (slot, gen) = true ∨ (ridge s rg).keyFills.contains (slot, gen) = false →
        exec (.keyCacheFill rg slot gen) s = .next s)
      ∧ (∀ e j, gcmJob s rg (e % 2) = some j → j.sealing = false → ctxUsed s j.spur j.ctx = true →
        let b := gcmFree s rg (e % 2)
        (j.bad = 0 → (∀ l ∈ j.lines, l.2 = 0) →
          exec (.tagVerifyDone rg e) s = .next (afterLines (sectorChecked b j.spur j.ctx j 0) j.spur j.ctx))
        ∧ (j.bad ≠ 0 ∨ (∃ l ∈ j.lines, l.2 ≠ 0) →
          let c := count b 0x6000 0x14
          let lines := (List.range 64).map (fun i => ((j.lines.find? (fun x => x.1 = j.sector * 64 + i)).map (fun x => x.2)).getD 0)
          (j.key.bind (laneKey b (j.spur / 4)) = none →
            exec (.tagVerifyDone rg e) s = .next (afterLines (sectorChecked c j.spur j.ctx j 1) j.spur j.ctx))
          ∧ (∀ m, j.key.bind (laneKey b (j.spur / 4)) = some m →
            (j.bad ≠ 0 → exec (.tagVerifyDone rg e) s = .next (afterLines (sectorChecked c j.spur j.ctx j j.bad) j.spur j.ctx))
            ∧ (j.bad = 0 → (∃ l ∈ lines, lSealed l = false) →
              exec (.tagVerifyDone rg e) s = .next (afterLines (sectorChecked c j.spur j.ctx j 3) j.spur j.ctx))
            ∧ (j.bad = 0 → (∀ l ∈ lines, lSealed l = true) → exec (.tagVerifyDone rg e) s = .next (afterLines (sectorChecked c j.spur j.ctx j
                (if gcmTag m j.du (lines.map lMeta0) (lines.map lData) = (lines.map lMeta1).take 16 then 0 else 4)) j.spur j.ctx))))))

/-- An engine in service runs a word of its context or faults as injected or by a bad store; timers expire; the watchdog does
after 512 cycles of the context in charge, or in a shipped routine (log entry 20); a spare switched, what was posted being
at its end, to the clock of its spur takes over and the spur runs on it; one that fails its check is FAULTED and its fault
is not cured, ENGINE_FAULTED reading 1 at once (the moment is the model's reading, log entry 22). (R20, R291, R292, R294,
R296, R317, R318, R320, R422) -/
def Obligations.Engines_run_and_spares_take_over : Prop :=
  (∀ (s : State) (n c : Nat), s.ao.portsUp = true → (spur s n).stopped = false → (spur s n).svc = .inService →
     (∀ inj good, inj = (if (spur s n).onSpare then (spare s (n / 16)).injected else (spur s n).injected) →
       good = (if (spur s n).onSpare then (spare s (n / 16)).csGood else (spur s n).csGood) →
       (inj = true → exec (.microwordExecute n) s = .next (engineFault (modSpare s (n / 16) (fun y =>
         if (spur s n).onSpare then { y with injected := false } else y)) n 5))
       ∧ (inj = false → good = false → exec (.microwordExecute n) s = .next (engineFault s n 2))
       ∧ (inj = false → good = true → (spur s n).current = some c → ctxUsed s n c = true → exec (.microwordExecute n) s = .next (runWord s n c))
       ∧ (inj = false → good = true → (spur s n).current = none → resumeRank s n ≤ popRank s n → nextParked s n = some c →
         exec (.microwordExecute n) s = .next (runWord (modSpur s n (fun y => { y with current := some c })) n c)))
     ∧ (ctxUsed s n c = true → (ctxOf s n c).timer = 1 → exec (.contextTimerExpiry n c) s = .next (modCtx s n c (fun x => { x with timer := 2 })))
     ∧ (∀ k, (spur s n).current = some k → 512 ≤ (ctxOf s n k).cycles → exec (.watchdogExpiry n) s = .next (engineFault s n 1))
     ∧ ((spur s n).current = none → shippedCtxs s n ≠ [] → exec (.watchdogExpiry n) s = .next (engineFault s n 1)))
  ∧ (∀ (s : State) (g : Nat), s.ao.portsUp = true → (spare s g).state = 1 →
      ((spare s g).switched = false → (spare s g).csGood = true → spurSettled s (spare s g).spur = true →
        exec (.spareClockSwitched g) s = .next (modSpare s g (fun y => { y with switched := true })))
      ∧ ((spare s g).switched = false → (spare s g).csGood = false → spurSettled s (spare s g).spur = true →
        exec (.spareClockSwitched g) s = .next (uncured (setOd (modSpare s g (fun y => { y with state := 3, spur := 0xFF }))
          (0x4100 + (spare s g).spur) 0x08 1) (spare s g).spur))
      ∧ (∀ n ready, n / 16 = g → (spare s g).spur = n → (spare s g).switched = true →
        ∃ t, exec (.spareTakeover n ready) s = .next t ∧ (spare t g).state = 2 ∧ (spur t n).onSpare = true ∧ (spur t n).stopped = false
          ∧ od t (0x4100 + n) 0x08 = 1))

/-- Loading ends with READY or its refusal; a DRAINING ridge with nothing left goes OUT, and a DRAINING spur does once it is
idle and, its ridge's FAILED units flushed, owes no program; a RETURNING one that is brought up goes IN, but a spur whose
engine then fails its check goes OUT with REFUSAL 0x13 (that row is the model's reading, log entry 22). (R206, R309, R321,
R322, R323, R371) -/
def Obligations.Images_load_and_units_leave_and_return : Prop :=
  (∀ (s : State) (c : Nat) (b : List Byte), s.ao.portsUp = true → s.image.state = 1 → s.image.answer = some (c, b) →
     (c ≠ 0 → exec .imageLoadComplete s = .next (imageFail s 8 c))
     ∧ (c = 0 → b ≠ bytesOf 16 s.image.tag → exec .imageLoadComplete s = .next (imageFail s 9 0))
     ∧ (c = 0 → b = bytesOf 16 s.image.tag → exec .imageLoadComplete s = .next (svcKick
         { s with image := { s.image with state := 2, result := 0, cause := 0, answer := none, crc := storeCrc s.image.words }
                  spurs := s.spurs.mapVals {} (fun x => { x with csGood := true })
                  spares := s.spares.mapVals {} (fun x => { x with csGood := true }) })))
  ∧ (∀ (s : State) (n : Nat), s.ao.portsUp = true →
      ((ridge s n).svc = .draining → (∀ i, i < 4 → (spur s (4 * n + i)).svc = .out) → unitsOf s n = [] →
        exec (.drainComplete true n) s = .next (ridgeDrained s n))
      ∧ ((spur s n).svc = .draining → spurIdle s n = true →
        let b := flushDraining s (n / 4)
        (spurOwes b n = false → exec (.drainComplete false n) s = .next (spurDrained b n))
        ∧ (spurOwes b n = true → exec (.drainComplete false n) s = .next b))
      ∧ ((ridge s n).svc = .returning → (ridge s n).firstDone = true →
        exec (.rejoinDone true n) s = .next (releaseUnits (svcKick (ridgeIn s n))))
      ∧ ((spur s n).svc = .returning → (ridge s (n / 4)).svc = .inService → spurBrought s n = true → (spur s n).storesBad = false →
        (engineGood s n = true → exec (.rejoinDone false n) s = .next (releaseUnits (spurIn s n)))
        ∧ (engineGood s n = false → exec (.rejoinDone false n) s
            = .next (modSpur (setOd s (0x4100 + n) 0x01 0) n (fun x => { x with svc := .out, refusal := 0x13 })))))

/-- Bring-up of a returning channel judges its dies and its eyes; a clean tracking pass that is due, in its turn, sends its
bursts and stores its time and temperature, at most three moves of a bit counting; a failing centre burst loses the
training; full training, after a loss or out of Dormant, takes the highest bin allowed and declared by every LUN from the
current one down that every CE passes, with its eye and its record, and starts the channel again after a loss; where no bin
passes the channel fails, EYE_MIN being 0 and the training counted (the model's reading, log entry 45). (R341, R342, R345,
R346, R347) -/
def Obligations.Channels_come_up_and_train : Prop :=
  ∀ (s : State) (c : Nat), s.ao.portsUp = true →
    (∀ dies eyes, (spur s (c / 2)).svc = .returning → (chan s c).rediscover = true →
      ∃ t, exec (.bringupDone c dies eyes) s = .next t ∧ t = bringUp s c dies eyes ∧ (chan t c).rediscover = false)
    ∧ (∀ ce, (chan s c).state = 1 → tracked s c (ce % 8) = true → trackDue s c (ce % 8) = true →
      portTurn s (c * 16 + 2 * (ce % 8)) 3 (s.turns + 1) = true →
      let a := trackBus s c (ce % 8)
      let noted := fun x : Chan => { x with trackUs := x.trackUs.set 0 (ce % 8) s.ao.timeUs,
                                            trackTemps := x.trackTemps.set 0 (ce % 8) (signed 16 (od s (0x7210 + c / 8) 0x01)) }
      ((∀ d ∈ (chan s c).delays.entries, d.1 / 64 ≠ ce % 8) → exec (.trackingPass c ce []) s = .next (modChan a c noted))
      ∧ (∀ b bursts, b ∈ bursts → b.centre = false →
        exec (.trackingPass c ce bursts) s = .next (trainingLost (modChan a c (fun x => noted ((passMoves bursts).foldl (trackBit (ce % 8)) x))) c)))
    ∧ (∀ eyes, (chan s c).state = 1 →
      let x := chan s c
      let n := trainBus s c
      let passes := fun b : Nat => (foundCes n c).all (fun ce => trains eyes ce b)
      let best := (lowerBins n c).find? passes
      let eye := fun b => eyeMin eyes (foundCes n c) b
      let stored := fun b =>
        let a := count (setOd n (0x4400 + c) 0x06 (eye b)) (0x4400 + c) 0x07
        noteTrained (setAnalog (modChan a c (fun x => { x with bin := b, lost := false })) c b) c (foundCes n c)
      (∀ b, x.lost = true → best = some b → exec (.fullTrainingDone c eyes) s
        = .next (channelRestart (cairn (stored b) 0x49 (cu 8 c) 0xFFFF (b * 16 + 1) 0 (eye b) 0 0) c))
      ∧ (∀ b, x.lost = false → x.untrained = true → (ridge s (c / 8)).waking = true →
        (foundCes s c).all (fun ce => trains eyes ce x.bin) = true → best = some b → exec (.fullTrainingDone c eyes) s
        = .next (cairn (stored b) 0x49 (cu 8 c) 0xFFFF (b * 16) 0 (eye b) 0 0))
      ∧ (x.lost = true → best = none → exec (.fullTrainingDone c eyes) s
        = .next (cairn (count (setOd (channelFailed n c) (0x4400 + c) 0x06 0) (0x4400 + c) 0x07) 0x49 (cu 8 c) 0xFFFF 2 0 0 0 0)))

/-- Each rail sample is a microsecond of block time and goes into the last three; 1,000 good samples arm; a grant makes the
allowance the limit less the demand; admission resumes 1 ms after the last denial. A sensor reading outside -55 to 150 is a
fault; one inside is stored and steps the level; a sensor without a conversion fails at its last reading. That a rail sample
is the tick of block time is log entry 1. (R26, R353, R354, R357, R358, R456, R457) -/
def Obligations.Rail_samples_sensors_and_the_ledger : Prop :=
  (∀ (s : State),
     (∀ code, s.ao.inAoReset = false → ∃ t, exec (.railSample code) s = .next t ∧ t.ao.timeUs = s.ao.timeUs + 1
       ∧ t.ao.samples = ((code % 4096) :: s.ao.samples).take 3 ∧ t.queues = s.queues)
     ∧ (s.ao.portsUp = true →
       (s.ao.pf = .unarmed → 1000 ≤ s.ao.goodRun →
         exec .railArmed s = .next (let b := modAo s (fun a => { a with pf := .armed })
           railNotice b 1 (demand b)))
       ∧ (s.ao.pf = .halted → s.ao.goodRun = 1000 →
         exec .railRecovered s = .next (modAo (railNotice s 4 (demand s)) (fun a => { a with goodRun := 1001 })))
       ∧ (∃ t, exec .ledgerGrant s = .next t ∧ t = energyAsks (askAgain (modAo s (fun a => { a with allowance := ledgerLimit s - demand s }))))
       ∧ (s.ao.denying = true → (∀ u, s.ao.lastDenial = some u → u + 1000 ≤ s.ao.timeUs) →
         exec .admissionResumed s = .next (modAo (railNotice s 6 (demand s)) (fun a => { a with denying := false })))))
  ∧ (∀ (s : State) (n : Nat), s.ao.portsUp = true →
      (∀ temp : Int, temp < -55 ∨ 150 < temp → exec (.sensorConversion n temp) s = .next (sensorFails s n temp))
      ∧ (∀ temp : Int, -55 ≤ temp → temp ≤ 150 → (s.sensors.get {} n).fault = false → signed 16 (od s (0x7210 + n) 0x02) ≥ temp →
        exec (.sensorConversion n temp) s = .next (levelStep (setOd s (0x7210 + n) 0x01 (unsigned 16 temp)) n temp))
      ∧ exec (.sensorFault n) s = .next (sensorFails s n (signed 16 (od s (0x7210 + n) 0x01))))

/-- Enough low samples begin the sequence; a ridge with no program in flight or deferred writes its CLOSING record, in a
shutdown below thermal level 3; with all closed the block is HALTED and P_HALTED rises, after a shutdown with HALT_CLEAN.
What must be done before a ridge closes in a shutdown (admittedDone), and that it closes there without a record in the log,
are log entry 36. (R354, R365, R367, R369) -/
def Obligations.The_power_fail_sequence_and_shutdown : Prop :=
  ∀ (s : State), s.ao.portsUp = true →
    (od s 0x7000 0x06 ≤ s.ao.warnRun → s.ao.pf = .armed ∨ s.ao.pf = .shutdown →
      ∃ t, exec .railWarning s = .next t ∧ t.ao.pf = .sequence ∧ t.ao.seqStart = s.ao.timeUs ∧ t.queues = s.queues)
    ∧ (∀ r, s.ao.pf = .sequence → dieWorkDone s r = true → unitsIn s r .programming = 0 → takesPart s r = true →
        (ridge s r).closed = false → spursOut s r = false → (ridge s r).refugeWait = [] → holdDefers s (ridge s r).manifest = false →
        (∀ x ∈ refugePairs s r, holdDefers s x.1 = false) →
        ∃ t, exec (.ridgeClosingDone r) s = .next t ∧ t = (let b := closeRefuge (writeOpening s r) r false s.ao.orderly
          cairn b 0x51 (cu 2 r) 0xFFFF (ridge b r).step 0 (b.ao.timeUs - b.ao.seqStart) 0 0))
    ∧ (∀ r, s.ao.pf = .shutdown → admittedDone s = true → ridgeQuiet s r = true → takesPart s r = true → (ridge s r).closed = false →
        spursOut s r = false → thermalLevel s r < 3 → (ridge s r).refugeWait = [] → holdDefers s (ridge s r).manifest = false →
        (∀ x ∈ refugePairs s r, holdDefers s x.1 = false) →
        exec (.ridgeClosingDone r) s = .next (closeRefuge s r true s.ao.orderly))
    ∧ (s.ao.pf = .sequence → allClosed s = true → ∃ t, exec .sequenceComplete s = .next t ∧ t.ao.pf = .halted ∧ t.ao.goodRun = 0
        ∧ t.sent.head? = some (.halted true)
        ∧ t.ao.haltClean = s.ao.haltClean ∧ t.queues = s.queues)
    ∧ (s.ao.pf = .shutdown → allClosed s = true → admittedDone s = true →
        exec .shutdownComplete s = .next (emit (modAo s (fun a => { a with pf := .halted, haltClean := true, goodRun := 0 })) (.halted true)))

/-- At the barrier EPOCH becomes one more than the highest epoch the ridges have read so far (those of an earlier barrier among
them: log entry 37), and each ridge goes on; a UNITS entry is treated once the rail is armed; an idle ridge goes to the
deepest state allowed, and wakes, out of Dormant once its channels are trained. (R19, R371, R374, R378, R379) -/
def Obligations.Recovery_restores_and_ridges_idle : Prop :=
  (∀ (s : State), s.ao.portsUp = true →
     (∀ found x, x ∈ found → atBarrier s x.ridge = true →
       let now := (found.filter (fun x => atBarrier s x.ridge)).map (readable s)
       let b := now.foldl (fun s x => modRidge s x.ridge (fun y => { y with epochFound := highestEpoch x })) s
       let top := (List.range 16).foldl (fun a r => max a (ridge b r).epochFound) 0
       exec (.recoveryBarrier found) s
         = .next (svcKick (releaseUnits (now.foldl recoverRidge (setOd b 0x2100 0x06 ((top + 1) % 65536))))))
     ∧ (∀ r i pages, (ridge s r).units.getD i 0 ≠ 0 → (ridge s r).svc = .inService → s.ao.pf = .armed →
       exec (.unitRestore r i pages) s = .next (announceRidge (treatUnit s r i ((ridge s r).units.getD i 0) pages) r)))
  ∧ (∀ (s : State) (r : Nat), s.ao.portsUp = true →
      (∀ t, (ridge s r).pstate < chooseState s r t → (ridge s r).waking = false → railDown s = false → chooseState s r t ≠ 3 →
        exec (.idleEntry r t) s = .next (modRidge s r (fun x => { x with pstate := chooseState s r t })))
      ∧ (∀ t, (ridge s r).pstate < 3 → (ridge s r).waking = false → railDown s = false → chooseState s r t = 3 →
        exec (.idleEntry r t) s = .next (ridgeProtect (invalidateLuns (modRidge s r (fun x => { x with pstate := 3 }))
          ((List.range 128).map (fun i => 128 * r + i))) r false))
      ∧ ((ridge s r).pstate = 1 ∨ (ridge s r).pstate = 2 → exec (.wake r) s = .next (modRidge s r (fun x => { x with waking := true })))
      ∧ ((ridge s r).pstate = 3 → exec (.wake r) s = .next (modRidge (ridgeProtect s r true) r (fun x => { x with waking := true })))
      ∧ ((ridge s r).waking = true → (∀ i, i < 8 → (chan s (8 * r + i)).state = 1 → (chan s (8 * r + i)).untrained = false) → exec (.wakeComplete r) s = .next (wakeRidge s r))
      ∧ (∀ t, (ridge s r).hintUntil = some t → t ≤ s.ao.timeUs →
        exec (.idleHintExpiry r) s = .next (modRidge s r (fun x => { x with hintUntil := none }))))

/-- A request to this node is answered from the dictionary, or, where eight are outstanding (free when more than seven came
within a microsecond, log entry 41), BUSY and counted as discarded and as answered, a WRITE as refused too, other frames go
on unchanged, discarded and returned ones are counted; a check that returns makes the ring UP with its time, one that does
not makes it DOWN. (R397, R398, R399, R400, R433) -/
def Obligations.Crestline_frames_and_ring_checks : Prop :=
  (∀ (s : State) (f : List (BitVec 16)), s.ao.portsUp = true →
     (frameFate s f = .request →
       let room := (takeRequest s f).1
       let z := (takeRequest s f).2
       (s.crest.askedOld + s.crest.asked < 8 → room = true)
       ∧ (room = false →
         let b := count { s with free := s.free + 1 } 0x9000 0x0B
         let c := if symKind f = 2 then refuseWrite b (ringReq f) (symAt f 2).toNat (bitsOf (symAt f 3) 15 8) 5 else b
         z = sendRing (count c 0x9000 0x08) (symSrc f) 0x8 (symTag f) (5 :: symbolsOf 4 0))
       ∧ (symKind f = 1 → exec (.crestRead f) s = .next (
         let d := dictRead z (ringReq f) (symAt f 2).toNat (bitsOf (symAt f 3) 15 8)
         if room then respond d.2.2 f d.1 d.2.1 else z))
       ∧ (symKind f = 2 → exec (.crestWrite f) s = .next (
         let d := dictWrite z (ringReq f) (symAt f 2).toNat (bitsOf (symAt f 3) 15 8) (symWord f 4)
         if room then respond d.2 f d.1 0 else z))
       ∧ (symKind f = 3 → exec (.selectRead f) s = .next (if room then ringSelectRead z f else z)))
     ∧ (frameFate s f = .forward → exec (.frameForward f) s = .next (emit s (.crest f)))
     ∧ (frameFate s f = .badCrc → exec (.discardedFrame f) s = .next (count s 0x9000 0x09))
     ∧ (frameFate s f = .badLen ∨ frameFate s f = .badKind → exec (.discardedFrame f) s = .next (count s 0x9000 0x0B))
     ∧ (frameFate s f = .returned → exec (.returningFrame f) s = .next (count s 0x9000 0x0A)))
  ∧ (∀ (s : State), s.ao.portsUp = true →
      (od s 0x9000 0x01 = 1 → s.crest.checkOut = false → exec .ringCheck s = .next (sendCheck s))
      ∧ (s.crest.checkOut = true →
        (∀ ns f, frameFate s f = .check → ∃ t, exec (.ringCheckReturn ns f) s = .next t ∧ t.crest.checkOut = false ∧ t.crest.state = 2
          ∧ od t 0x9000 0x0C = min ns (2 ^ 32 - 1))
        ∧ (∃ t, exec .ringCheckTimeout s = .next t ∧ t.crest.checkOut = false ∧ t.crest.state = 3
          ∧ (s.crest.state ≠ 2 → t = { s with crest := { s.crest with checkOut := false, state := 3 } }))))

/-- Records raised reach the log in order unless a clear holds them; the record port sends the record at PORT_SEQ, or with
LOGMEM_FAULT the bypass (log entry 41); the nonce expires at 60 s and not before; a clear removes once the port has caught
up, or fails with cause 5. (R403, R408, R412, R414) -/
def Obligations.Cairn_records_are_kept_sent_and_cleared : Prop :=
  ∀ (s : State),
    (∀ r rest, s.ao.cairnIn = r :: rest → clearHolds s = false →
      exec .cairnRecord s = .next (writeRecord (modAo s (fun a => { a with cairnIn := rest })) r))
    ∧ (s.ao.portsUp = true →
      exec (.recordPortSend true) s = .next (setOd s 0x9200 0x05 1)
      ∧ (∀ w, od s 0x9200 0x01 ≠ 0 → s.ao.logFault = false →
        let b := portSkip (setOd s 0x9200 0x05 0)
        b.ao.log.find? (fun x => decide (recSeq x = od b 0x9200 0x02)) = some w →
        exec (.recordPortSend false) s
          = .next (count (setOd (emit b (.record w)) 0x9200 0x02 ((od b 0x9200 0x02 + 1) % 2 ^ 32)) 0x9200 0x03))
      ∧ (∀ b rest, od s 0x9200 0x01 ≠ 0 → s.ao.logFault = true → s.ao.bypass = b :: rest → b.port = true →
        let a := modAo (setOd s 0x9200 0x05 0) (fun a => { a with bypass := { b with port := false } :: rest })
        exec (.recordPortSend false) s = .next (count (emit (bypassTidy a) (.record b.word)) 0x9200 0x03)))
    ∧ (s.ao.nonce.any (nonceFresh s) = false → exec .nonceExpiry s = .next (modAo s (fun a => { a with nonce := none })))
    ∧ (∀ n, s.ao.nonce = some n → (s.ao.timeUs < n.1.toNat + 60000000 → exec .nonceExpiry s = .next s)
      ∧ (n.1.toNat + 60000000 ≤ s.ao.timeUs → exec .nonceExpiry s = .next (modAo s (fun a => { a with nonce := none }))))
    ∧ (∀ c, s.ao.clear = some c → c.stage = 3 →
      (clearSent s c = true → exec .clearRemove s = .next (clearRemove s))
      ∧ (clearSent s c = false → exec .clearWaitTimeout s = .next (clearFail s c.path c.who 5 0)))

/-- A corrected memory error is counted and recorded, one that is not, or of a parity memory (which corrects nothing: the
model's choice, log entry 38), is lost; a fabric request without answer counts as an error and its tag is set aside; read
data reaches its purpose. (R97, R417, R420, R428) -/
def Obligations.Memory_errors_and_fabric_timeouts : Prop :=
  ∀ (s : State), s.ao.portsUp = true →
    (∀ cls inst addr, memClass cls = true → s.inject.find? (fun e => decide (e.1 = cls) && decide (e.2.1 = inst)) = none →
      (parityClass cls = false → exec (.memoryError cls inst addr false) s = .next (faultRecord (count s 0xA000 0x03) cls inst 1 addr 0 false))
      ∧ (parityClass cls = true → exec (.memoryError cls inst addr false) s = .next (memoryLost s cls inst addr))
      ∧ exec (.memoryError cls inst addr true) s = .next (memoryLost s cls inst addr))
    ∧ (∀ tag r, reqOf s tag = some r →
      let q := { r with timedOut := true }
      let c := count s 0x1200 0x02
      let b := { c with fab := { c.fab with quarantine := c.fab.quarantine ++ [(tag, s.ao.timeUs + 4 * od c 0x1200 0x01)] } }
      (∀ n i, r.purpose = .status n i → exec (.fabricTimeout tag) s = .next (statusAnswer b q n i true))
      ∧ (∀ n, r.purpose = .done n → exec (.fabricTimeout tag) s = .next (doneAnswer b q n true))
      ∧ (∀ n i, r.purpose = .wdata n i → exec (.fabricTimeout tag) s = .next (writeData (fabTake b q true) n i r.addr true []))
      ∧ (r.purpose = .stale → exec (.fabricTimeout tag) s = .next (fabTake b q true)))
    ∧ (∀ tag r err data, reqOf s tag = some r →
      (∀ n i, r.purpose = .wdata n i → exec (.readData tag err data) s = .next (writeData (fabTake s r err) n i r.addr err data))
      ∧ (∀ n i, r.purpose = .frag n i → exec (.readData tag err data) s = .next (fragData (fabTake s r err) n i err data))
      ∧ (r.purpose = .image → exec (.readData tag err data) s = .next (imageData (fabTake s r err) err data)))

/-- AO_RESET leaves the state of reset with the reset asserted. P_HALTED falls with HALTED and M_l_ENABLE with a link's ENABLE
in both. BLOCK_RESET keeps block time, the log with its next number, rates, buckets and counters, the clear key and its
lock, INSTANCE_ID and index 0x9100 but for the nonce and CLEAR_STATUS, puts PORT_SEQ at the oldest record, sets everything
else to its reset value but for Traverse state reloaded and not yet adopted, which goes only after a clean halt (log entry
37), and with AO_RST_N released counts as a block reset (under AO_RST_N it does not: log entry 40). What the ports have
shown and the counter of free values, the model's own, stay (log entry 6). Releases only release; the self-test of the ports
brings them up. (R51, R432, R444, R446, R447, R450) -/
def Obligations.Resets_clear_all_but_what_survives : Prop :=
  ∀ (s : State),
    let fell := (if s.ao.pf = .halted then [PortOut.halted false] else [])
      ++ ((if od s 0x8011 0x01 = 1 then [.linkEnable 1 false] else []) ++ ((if od s 0x8010 0x01 = 1 then [.linkEnable 0 false] else []) ++ s.sent))
    exec .aoReset s = .next { State.reset with
      ao := { State.reset.ao with inAoReset := true, inBlkReset := s.ao.inBlkReset }, free := s.free, sent := fell, pending := s.pending }
    ∧ (∃ t, exec .blockReset s = .next t
      ∧ t = { State.reset with ao := t.ao, od := t.od, free := s.free, sent := fell, pending := s.pending,
                               reloads := if s.ao.haltClean then [] else s.reloads }
      ∧ t.ao = { State.reset.ao with
          timeUs := s.ao.timeUs, inAoReset := s.ao.inAoReset, inBlkReset := true, log := s.ao.log, nextSeq := s.ao.nextSeq,
          cairnIn := s.ao.cairnIn, logFault := s.ao.logFault, logTested := s.ao.logTested, logTold := s.ao.logTold,
          bypass := s.ao.bypass, buckets := s.ao.buckets, bucketUs := s.ao.bucketUs, suppressed := s.ao.suppressed,
          rates := s.ao.rates, code0 := s.ao.code0, code1 := s.ao.code1, keyDesignated := s.ao.keyDesignated }
      ∧ od t 0x1000 0x03 = od s 0x1000 0x03
      ∧ (∀ sub, sub < 256 → sub ≠ 0x14 → sub ≠ 0x15 → sub ≠ 0x19 → od t 0x9100 sub = od s 0x9100 sub)
      ∧ (∀ sub, sub = 0x14 ∨ sub = 0x15 ∨ sub = 0x19 → od t 0x9100 sub = od State.reset 0x9100 sub)
      ∧ od t 0x9200 0x02 = (s.ao.log.head?.map recSeq).getD s.ao.nextSeq
      ∧ (∀ i sub, sub < 256 → i ≠ 0x9100 → ¬ (i = 0x1000 ∧ sub = 0x03) → ¬ (i = 0x1200 ∧ (sub = 0x07 ∨ sub = 0x08)) →
          ¬ (i = 0x9200 ∧ sub = 0x02) → od t i sub = od State.reset i sub)
      ∧ (s.ao.inAoReset = false → od t 0x1200 0x07 = 2 ∧ od t 0x1200 0x08 = min (od s 0x1200 0x08 + 1) (2 ^ 32 - 1))
      ∧ (s.ao.inAoReset = true → od t 0x1200 0x07 = od s 0x1200 0x07 ∧ od t 0x1200 0x08 = od s 0x1200 0x08))
    ∧ exec .aoResetRelease s = .next (modAo s (fun a => { a with inAoReset := false }))
    ∧ exec .blockResetRelease s = .next (modAo s (fun a => { a with inBlkReset := false }))
    ∧ (s.ao.inAoReset = false →
      (∀ pass, exec (.selfTestDone .log pass) s = .next (selfTested s .log pass))
      ∧ (s.ao.inBlkReset = false → s.ao.portsUp = false → exec (.selfTestDone .ports true) s
          = .next (emit { modAo s (fun a => { a with portsUp := true }) with keyFirst := true } (.key false 0x18 0 (keyClient s)))))

/-- For 0 <= S < L and 0 <= G <= L the L logical blocks map one to one onto the offsets 0 to L other than G, and the inverse map
undoes it; of a physical address only the block and T change. (R43) -/
def Obligations.Traverse_maps_one_to_one_past_the_gap : Prop :=
  (∀ L S G, 0 < L → S < L → G ≤ L →
    (∀ l, l < L → mapOffset L S G l ≤ L ∧ mapOffset L S G l ≠ G ∧ unmapOffset L S G (mapOffset L S G l) = some l)
    ∧ (∀ o, o ≤ L → o ≠ G → ∃ l, l < L ∧ unmapOffset L S G o = some l ∧ mapOffset L S G l = o)
    ∧ unmapOffset L S G G = none)
  ∧ (∀ (s : State) r f, fT f = true →
    let t := tvOf s r (fBlun f)
    let b := rOd s r 0x03 + mapOffset (winL s r) t.start t.gap (fBlock f)
    b < 32768 →
    let p := physOf s r f
    fT p = false ∧ fBlock p = b ∧ fChan p = fChan f ∧ fLun p = fLun f ∧ fPlane p = fPlane f ∧ fPage p = fPage f ∧ fLine p = fLine f)

/-- For every line of data and meta bits, LC is the remainder over GF(2) of the sum of m_j x^j, j = 0 to 527, divided by x^2 + x
+ 1, bit 0 the coefficient of x^0; it stands at slot bits 529 and 528 above the line; a correction whose LC does not hold is
not accepted. (R144) -/
def Obligations.Line_check_bits_are_the_remainder : Prop :=
  (∀ l : BitVec 528, lcBits l < 4 ∧ (encodeSlot l).setWidth 528 = l ∧ bitsOf (encodeSlot l) 529 528 = lcBits l
    ∧ (∑ j ∈ Finset.range 528, if l.getLsbD j then (Polynomial.X : Polynomial (ZMod 2)) ^ j else 0)
        %ₘ (Polynomial.X ^ 2 + Polynomial.X + 1)
      = (if (lcBits l).testBit 1 then Polynomial.X else 0) + (if (lcBits l).testBit 0 then 1 else 0))
  ∧ (∀ (sl : Slot) v w, bchCorrect 530 sl.toNat = some (v, w) → lcBits (BitVec.ofNat 528 w) ≠ (w >>> 528) % 4 →
    (innerDecode sl).1.ok = false)

/-- For every LUN, its blocks per plane are at most 64 x 2^GROUP_SHIFT, and no smaller shift will do. TALUS_SYNC copies the live
history of the LUNs of ridges in service to the dictionary's copy; that the rebuild of a lost half-erased table ends there
is the model's choice, log entry 27. (R168, R169) -/
def Obligations.Talus_groups_and_their_copy : Prop :=
  (∀ (s : State) (l : Nat), lunBlocks s l ≤ 64 * 2 ^ lunShift s l ∧ ∀ g, g < lunShift s l → 64 * 2 ^ g < lunBlocks s l)
  ∧ (∀ (s : State), s.ao.portsUp = true →
      exec .talusSync s = .next (
        let b := rebuildTables s
        let b := { b with ridges := b.ridges.mapVals {} (fun r => { r with heRebuild := false }) }
        talusRefresh b (fun l => decide ((ridge b (lunRidge l)).svc = .inService))))

/-- Raising a counter of type U8, U16 or U32 saturates, of U64 wraps, and leaves every other entry. (R60, R177, R236) -/
def Obligations.Counters_saturate_or_wrap_by_their_type : Prop :=
  ∀ (s : State) (i sub n : Nat) (r : OdRow), odRow i sub = some r →
    (r.ty = .u8 → od (countBy s i sub n) i sub = min (od s i sub + n) 255)
    ∧ (r.ty = .u16 → od (countBy s i sub n) i sub = min (od s i sub + n) 65535)
    ∧ (r.ty = .u32 → od (countBy s i sub n) i sub = min (od s i sub + n) (2 ^ 32 - 1))
    ∧ (r.ty = .u64 → od (countBy s i sub n) i sub = (od s i sub + n) % 2 ^ 64)
    ∧ (∀ j k, sub < 256 → k < 256 → (j, k) ≠ (i, sub) → od (countBy s i sub n) j k = od s j k)

/-- The fields of a packed flash address read back, and packing the fields of an address without reserved bits gives it back; a
sealed flit passes its CRC check and keeps its fields. (R33, R241, R242) -/
def Obligations.Addresses_and_flits_pack_and_unpack : Prop :=
  ((∀ t ch lun pl blk pg ln, ch < 128 → lun < 16 → pl < 8 → blk < 32768 → pg < 16384 → ln < 256 →
     let f := mkFpa t ch lun pl blk pg ln
     fT f = t ∧ fChan f = ch ∧ fLun f = lun ∧ fPlane f = pl ∧ fBlock f = blk ∧ fPage f = pg ∧ fLine f = ln ∧ fRes f = 0)
   ∧ (∀ f : W64, fRes f = 0 → mkFpa (fT f) (fChan f) (fLun f) (fPlane f) (fBlock f) (fPage f) (fLine f) = f))
  ∧ (∀ f : Flit, flitIntact (sealFlit f) = true ∧ (sealFlit f).setWidth 992 = f.setWidth 992
      ∧ fhKind (sealFlit f) = fhKind f ∧ fhSeq (sealFlit f) = fhSeq f ∧ fhFpa (sealFlit f) = fhFpa f ∧ fhHandle (sealFlit f) = fhHandle f)

/-- For every destination, source, kind, tag and payload within their widths, the frame built for them is whole, passes its CRC
and reads back field by field. A READ or WRITE frame built for index, subindex and value, sent to this node by another while
fewer than eight requests are outstanding (the state after it is counted among them: log entry 41), reads or writes exactly
that entry and is answered with its tag. (R396, R397, R399) -/
def Obligations.Ring_requests_are_read_back : Prop :=
  (∀ dst src kind tag (payload : List (BitVec 16)), dst < 64 → src < 64 → kind < 16 → tag < 256 → payload.length < 256 →
    let f := ringFrame dst src kind tag payload
    symDst f = dst ∧ symSrc f = src ∧ symKind f = kind ∧ symTag f = tag ∧ symLen f = payload.length ∧ symWhole f = true ∧ symIntact f = true
      ∧ ∀ n, n < payload.length → symAt f (2 + n) = payload.getD n 0)
  ∧ (∀ (s : State) src tag i sub v, s.ao.portsUp = true → od s 0x9000 0x01 ≠ 0 → nodeId s < 64 → src < 64 → src ≠ nodeId s → tag < 256 →
    i < 65536 → sub < 256 → v < 2 ^ 64 → s.crest.askedOld + s.crest.asked < 8 →
    let head := [BitVec.ofNat 16 i, BitVec.ofNat 16 (sub * 256)]
    let ask := ringFrame (nodeId s) src 1 tag head
    let put := ringFrame (nodeId s) src 2 tag (head ++ symbolsOf 4 v)
    let rd := dictRead (takeRequest s ask).2 ⟨true, src⟩ i sub
    let wr := dictWrite (takeRequest s put).2 ⟨true, src⟩ i sub v
    exec (.crestRead ask) s
      = .next (sendRing (count rd.2.2 0x9000 0x08) src 8 tag (BitVec.ofNat 16 (rd.1 % 16) :: symbolsOf 4 rd.2.1))
    ∧ exec (.crestWrite put) s
      = .next (sendRing (count wr.2 0x9000 0x08) src 8 tag (BitVec.ofNat 16 (wr.1 % 16) :: symbolsOf 4 0)))

/-- An autonomous notice enters a backlog with room and carries DROPPED_BEFORE; on a full one it is dropped and counted. A free
place goes first to the pending notice of the oldest queue, lowest rank first, then to the oldest stalled queue. (R85, R86,
R87) -/
def Obligations.Backlog_places_go_in_the_order_of_the_classes : Prop :=
  ∀ (s : State) (n : Nat), n < 16 →
    let r := ring s n
    (∀ x, backlogUsed r < 256 → ring (postAuto s n x) n = { r with backlog := r.backlog ++ [{ x with droppedBefore := r.dropped }], dropped := false })
    ∧ (∀ x, 256 ≤ backlogUsed r → ring (postAuto s n x) n = { r with dropped := true }
        ∧ od (postAuto s n x) (0x1110 + n) 0x0D = min (od s (0x1110 + n) 0x0D + 1) (2 ^ 32 - 1))
    ∧ (backlogUsed r < 256 → ∀ first more, r.pendingQ = first :: more → ∃ y ∈ r.pendingQ, y.queue = first.queue
        ∧ (∀ p ∈ r.pendingQ, p.queue = first.queue → queueNoticeRank y.code ≤ queueNoticeRank p.code)
        ∧ ring (ringGive s n) n = { r with backlog := r.backlog ++ [{ y with droppedBefore := r.dropped }], dropped := false,
                                            pendingQ := r.pendingQ.filter (fun p => ¬ (p.queue = y.queue ∧ p.code = y.code)) })
    ∧ (backlogUsed r < 256 → r.pendingQ = [] → ∀ q rest, r.stalled = q :: rest →
        ring (ringGive s n) n = { r with stalled := rest, reserved := r.reserved + 1 } ∧ (queue (ringGive s n) q).stalledNotice = false)
    ∧ (256 ≤ backlogUsed r → ringGive s n = s)

/-- In a class whose pointers agree with its packets, occupancy is the body items unread and the slots reserved, depth those
unread and published; reserving and pushing within room, popping and reading body items keep that; packets leave in the
order they came, and an unwritten head is never popped. (R302, R303, R304) -/
def Obligations.Scree_pointers_follow_the_packets : Prop :=
  ∀ (c : Scree), ScreeInv c →
    c.occupancy = c.unread + reservedSlots c.packets ∧ c.depth = c.unread + Scree.written c.packets
    ∧ (∀ d : Desc, c.room d.items = true → ScreeInv (c.reserve d) ∧ (c.reserve d).c = c.c
        ∧ ScreeInv (c.push d) ∧ (c.push d).packets = c.packets ++ [(d.items, true, d)])
    ∧ (∀ d e, c.pop = some (d, e) → ScreeInv e ∧ ∃ n, c.packets = (n, true, d) :: e.packets ∧ e.unread = c.unread + (n - 1)
        ∧ e.p = (c.p + min 1 n) % 512)
    ∧ (∀ n, ScreeInv (c.readItems n) ∧ (c.readItems n).unread = c.unread - n ∧ (c.readItems n).p = (c.p + min n c.unread) % 512
        ∧ (c.readItems n).packets = c.packets)
    ∧ (∀ n d rest, c.packets = (n, false, d) :: rest → c.pop = none)

/-- Each byte of a merged line is the new one where the mask has its bit, else the old one; a poisoned line holds eight copies
of the word with cause and line. (R171, R186) -/
def Obligations.Merged_and_poisoned_lines_byte_by_byte : Prop :=
  (∀ (mask : W64) (new old : W512) i, i < 64 →
    (mergeBytes mask new old).extractLsb' (8 * i) 8 = if mask.getLsbD i then new.extractLsb' (8 * i) 8 else old.extractLsb' (8 * i) 8)
  ∧ (∀ cause line i, cause < 256 → line < 256 → i < 8 →
    (poisonPattern cause line).extractLsb' (64 * i) 64 = BitVec.ofNat 64 (0xBAD05A1700000000 + cause * 256 + line))

/-- For every command and every state exec answers a next state with the queue unchanged; block time rises by one with a rail
sample outside the always-on reset, is 0 after AO_RESET, and is unchanged by every other command. That the sample is the
tick is log entry 1. (R353, R444) -/
def Obligations.Every_command_completes_and_keeps_the_queue : Prop :=
  ∀ (c : Instr) (s : State), ∃ t, exec c s = .next t ∧ t.pending = s.pending
    ∧ t.ao.timeUs = (match c with
      | .railSample _ => if s.ao.inAoReset then s.ao.timeUs else s.ao.timeUs + 1
      | .aoReset => 0
      | _ => s.ao.timeUs)

/-- ResetQuiet (a reset asserted means the ports are down; under AO_RST_N block time is 0) is kept by every step from every
state that has it. (R444, R446, R447) -/
def Obligations.Asserted_resets_keep_the_ports_down : Prop :=
  ∀ s t : State, ResetQuiet s → step s = .next t → ResetQuiet t

/-- From every state in which, for a queue, the entries fetched and not retired reach no further than from DONE to FETCH, FETCH
no further than DOORBELL, and DOORBELL no further than 2^k from DONE, every step that leaves the queue's ring size keeps
that; a step that reports a failed fetch read does so where the queue's entries stand in index order, reads in order and
none of the failed or a later read admitted. It holds at reset. (R54, R57, R63, R67) -/
def Obligations.Queue_distances_stay_ordered : Prop :=
  (∀ (s t : State) (q : Nat), step s = .next t → (∀ c, s.pending.head? = some c → ¬ FailsFetch s c) →
    od t (0x3000 + q) 0x05 = od s (0x3000 + q) 0x05 → QueueOrdered s q → QueueOrdered t q)
  ∧ (∀ (s t : State) (c : Instr) (tag q rd : Nat) (r : FabReq), Due s tag r (.fetch q rd) →
    c = .fabricTimeout tag ∨ (∃ data, c = .entryFetchResponse tag true data) →
    (∀ (i : Nat) (e : Ent), (queue s q).ents[i]? = some e → e.idx = ((queue s q).done + i) % 65536 ∧ (rd ≤ e.rd → e.order = none)
      ∧ (∀ (j : Nat) (f : Ent), i ≤ j → (queue s q).ents[j]? = some f → e.rd ≤ f.rd)) →
    exec c s = .next t → ∀ u, QueueOrdered s u → QueueOrdered t u)
  ∧ (∀ q, q < 4096 → QueueOrdered State.reset q)

/-- While the ports are down, every command but those of the always-on island, the resets and the self-tests leaves the state as
it is. That such a command leaves no trace is the model's reading, log entry 2. (R444, R447) -/
def Obligations.With_the_ports_down_nothing_is_commanded : Prop :=
  ∀ (c : Instr) (s : State), s.ao.portsUp = false →
    (match c with
      | .railSample _ | .cairnRecord | .nonceExpiry | .clearRemove | .clearWaitTimeout | .aoReset | .blockReset | .aoResetRelease
      | .blockResetRelease | .selfTestDone _ _ => True
      | _ => exec c s = .next s)

/-- TREAD completes with an answer of zeros and nothing else; RESERVED_KIND_MESSAGE and LATE_RESPONSE complete with a counter
raised and nothing else; THRESHOLDS_SET, TALUS_SYNC and FULL_TRAINING_DONE (on the way out of Dormant, every CE passing at
the channel's bin) complete and leave the queues, rings, regions, keys, units, held entries and log, and every other LUN or
channel; the releases of the resets lower their input and nothing else. (R55, R425, R428, R165, R169, R345, R444) -/
def Obligations.Commands_of_one_unit_leave_the_rest : Prop :=
  ∀ (s : State),
    let keeps := fun (t : State) => t.queues = s.queues ∧ t.rings = s.rings ∧ t.regions = s.regions ∧ t.keys = s.keys ∧ t.units = s.units
      ∧ t.hold = s.hold ∧ t.ao.log = s.ao.log
    (s.ao.portsUp = true →
      (∀ off len tag, off < 32768 → 1 ≤ len → len ≤ 16 → ∃ t, exec (.tread off len tag) s = .next t ∧ t = { s with sent := t.sent }
        ∧ t.sent.head? = some (.treadDone tag 0))
      ∧ (∀ kind, kind ∉ [3, 4, 5, 6] → ∃ t, exec (.reservedKindMessage kind) s = .next t ∧ t = { s with od := t.od })
      ∧ (∀ tag, reqOf s tag = none → ∃ t, exec (.lateResponse tag) s = .next t ∧ t = { s with od := t.od })
      ∧ (∀ l y, (lunOf s l).ladder = some y → y.phase = 0 → y.ctx ≠ 64 → ∃ t, exec (.thresholdsSet l) s = .next t ∧ keeps t
        ∧ (∀ j, j ≠ l → lunOf t j = lunOf s j))
      ∧ (∃ t, exec .talusSync s = .next t ∧ keeps t ∧ t.talus = s.talus ∧ t.spurs = s.spurs ∧ t.chans = s.chans)
      ∧ (∀ c eyes, (chan s c).state = 1 → (chan s c).lost = false → (chan s c).untrained = true → (ridge s (c / 8)).waking = true →
        (chan s c).bin ≤ od s 0x4300 0x01 → ifaceBin (chan s c).iface (chan s c).bin = true → (chan s c).bin < 8 →
        (∀ l ∈ foundLuns s, l / 16 = c → (lunOf s l).bins.testBit (chan s c).bin = true) →
        (foundCes s c).all (fun ce => trains eyes ce (chan s c).bin) = true →
        ∃ t, exec (.fullTrainingDone c eyes) s = .next t ∧ keeps t ∧ t.luns = s.luns ∧ t.spurs = s.spurs
          ∧ (chan t c).bin = (chan s c).bin ∧ (chan t c).lost = false ∧ (∀ j, j ≠ c → chan t j = chan s j)))
    ∧ (∃ t, exec .aoResetRelease s = .next t ∧ t = { s with ao := { s.ao with inAoReset := false } })
    ∧ (∃ t, exec .blockResetRelease s = .next t ∧ t = { s with ao := { s.ao with inBlkReset := false } })
end

