-- ==== Sys2Proof/Laws/SMap.lean ====
section
/-! SUPPORT. Laws of the sparse map: a read after a write, and that every operation keeps the canonical form. -/

namespace Sys2Proof.Machine

variable {α : Type}

theorem SMap.find_drop_same (d : α) (l : List (Nat × α)) (k : Nat) : SMap.find d (SMap.drop l k) k = d := by
  induction l with
  | nil => rfl
  | cons e r ih =>
    by_cases h : e.1 = k <;> simp_all [SMap.drop, SMap.find]

theorem SMap.find_drop_other (d : α) (l : List (Nat × α)) (k j : Nat) (h : j ≠ k) :
    SMap.find d (SMap.drop l k) j = SMap.find d l j := by
  induction l with
  | nil => rfl
  | cons e r ih =>
    by_cases h1 : e.1 = k
    · have : e.1 ≠ j := fun h2 => h (h2.symm.trans h1)
      simp_all [SMap.drop, SMap.find]
    · by_cases h2 : e.1 = j <;> simp_all [SMap.drop, SMap.find]

theorem SMap.find_put_same (d : α) (l : List (Nat × α)) (k : Nat) (v : α) (h : ∀ e ∈ l, e.1 ≠ k) :
    SMap.find d (SMap.put l k v) k = v := by
  induction l with
  | nil => simp [SMap.put, SMap.find]
  | cons e r ih =>
    have he := h e (by simp)
    have hr := ih (fun x hx => h x (by simp [hx]))
    by_cases h1 : k < e.1 <;> simp [SMap.put, SMap.find, h1, he, hr]

theorem SMap.find_put_other (d : α) (l : List (Nat × α)) (k j : Nat) (v : α) (h : j ≠ k) :
    SMap.find d (SMap.put l k v) j = SMap.find d l j := by
  induction l with
  | nil => simp [SMap.put, SMap.find, h.symm]
  | cons e r ih =>
    unfold SMap.put
    by_cases h2 : e.1 = j <;> split <;> simp [SMap.find, h2, h.symm, ih]

/-- A read after a write of the same key gives the value written. -/
@[simp] theorem SMap.get_set_same [DecidableEq α] (m : SMap α) (d : α) (k : Nat) (v : α) : (m.set d k v).get d k = v := by
  unfold SMap.set SMap.get
  split
  · next h => rw [h]; exact SMap.find_drop_same d _ k
  · exact SMap.find_put_same d _ k v (fun e he => by simpa using (List.mem_filter.mp he).2)

/-- A write leaves every other key alone. -/
theorem SMap.get_set_other [DecidableEq α] (m : SMap α) (d d' : α) (k j : Nat) (v : α) (h : j ≠ k) :
    (m.set d k v).get d' j = m.get d' j := by
  unfold SMap.set SMap.get
  dsimp only
  split
  · exact SMap.find_drop_other d' _ k j h
  · rw [SMap.find_put_other d' _ k j v h, SMap.find_drop_other d' _ k j h]

@[simp] theorem SMap.get_modify_same [DecidableEq α] (m : SMap α) (d : α) (k : Nat) (f : α → α) :
    (m.modify d k f).get d k = f (m.get d k) := SMap.get_set_same m d k _

theorem SMap.get_modify_other [DecidableEq α] (m : SMap α) (d d' : α) (k j : Nat) (f : α → α) (h : j ≠ k) :
    (m.modify d k f).get d' j = m.get d' j := SMap.get_set_other m d d' k j _ h

@[simp] theorem SMap.get_empty (d : α) (k : Nat) : (SMap.mk [] : SMap α).get d k = d := rfl

/-! ### The canonical form -/

theorem SMap.risingFrom_mono [DecidableEq α] (d : Nat → α) (l : List (Nat × α)) (a b : Nat) (h : a ≤ b)
    (hl : SMap.risingFrom d b l = true) : SMap.risingFrom d a l = true := by
  cases l with
  | nil => rfl
  | cons e r => simp_all [SMap.risingFrom]; omega

theorem SMap.risingFrom_filter [DecidableEq α] (d : Nat → α) (p : Nat × α → Bool) (l : List (Nat × α)) (b : Nat)
    (hl : SMap.risingFrom d b l = true) : SMap.risingFrom d b (l.filter p) = true := by
  induction l generalizing b with
  | nil => rfl
  | cons e r ih =>
    have h1 := ih (e.1 + 1) (by simp_all [SMap.risingFrom])
    have hb : b ≤ e.1 := by simp_all [SMap.risingFrom]
    by_cases hp : p e = true
    · simp_all [SMap.risingFrom]
    · rw [List.filter_cons_of_neg hp]
      exact SMap.risingFrom_mono d _ b (e.1 + 1) (by omega) h1

theorem SMap.risingFrom_put [DecidableEq α] (d : Nat → α) (l : List (Nat × α)) (b k : Nat) (v : α) (hb : b ≤ k)
    (hv : v ≠ d k) (hk : ∀ e ∈ l, e.1 ≠ k) (hl : SMap.risingFrom d b l = true) :
    SMap.risingFrom d b (SMap.put l k v) = true := by
  induction l generalizing b with
  | nil => simp [SMap.put, SMap.risingFrom, hb, hv]
  | cons e r ih =>
    have hne := hk e (by simp)
    have hr : SMap.risingFrom d (e.1 + 1) r = true := by simp_all [SMap.risingFrom]
    by_cases h : k < e.1
    · have : k + 1 ≤ e.1 := h
      simp_all [SMap.put, SMap.risingFrom]
    · have h2 := ih (e.1 + 1) (by omega) (fun x hx => hk x (by simp [hx])) hr
      have hn : ¬ k < e.1 := h
      simp only [SMap.put, hn, if_false]
      simp_all [SMap.risingFrom]

/-- A write keeps the canonical form. -/
theorem SMap.wf_set [DecidableEq α] (d : Nat → α) (m : SMap α) (k : Nat) (v : α) (h : m.wf d = true) :
    (m.set (d k) k v).wf d = true := by
  unfold SMap.wf SMap.set SMap.drop
  split
  · exact SMap.risingFrom_filter d _ _ _ h
  · next hv =>
    exact SMap.risingFrom_put d _ _ _ _ (Nat.zero_le _) hv (fun e he => by simpa using (List.mem_filter.mp he).2)
      (SMap.risingFrom_filter d _ _ _ h)

theorem SMap.wf_modify [DecidableEq α] (d : Nat → α) (m : SMap α) (k : Nat) (f : α → α) (h : m.wf d = true) :
    (m.modify (d k) k f).wf d = true := SMap.wf_set d m k _ h

theorem SMap.wf_filterKeys [DecidableEq α] (d : Nat → α) (m : SMap α) (p : Nat → Bool) (h : m.wf d = true) :
    (m.filterKeys p).wf d = true := SMap.risingFrom_filter d _ _ _ h

theorem SMap.risingFrom_map [DecidableEq α] (d : α) (f : α → α) (l : List (Nat × α)) (b : Nat)
    (hl : SMap.risingFrom (fun _ => d) b l = true) :
    SMap.risingFrom (fun _ => d) b ((l.map (fun e => (e.1, f e.2))).filter (fun e => decide (e.2 ≠ d))) = true := by
  induction l generalizing b with
  | nil => rfl
  | cons e r ih =>
    have hr := ih (e.1 + 1) (by simp_all [SMap.risingFrom])
    have hb : b ≤ e.1 := by simp_all [SMap.risingFrom]
    by_cases hp : f e.2 = d
    · simpa [hp] using SMap.risingFrom_mono _ _ b (e.1 + 1) (by omega) (by simpa using hr)
    · simp_all [SMap.risingFrom]

theorem SMap.wf_mapVals [DecidableEq α] (d : α) (m : SMap α) (f : α → α) (h : m.wf (fun _ => d) = true) :
    (m.mapVals d f).wf (fun _ => d) = true := SMap.risingFrom_map d f _ _ h

end Sys2Proof.Machine
end

