-- ==== Sys2Proof/Laws/State.lean ====
section
/-! SUPPORT. What each named update of the state leaves alone, field by field, and what the numbered records read back. No
later proof unfolds a record update. -/

namespace Sys2Proof.Machine

@[simp] theorem modQueue_frame (s : State) (q : Nat) (f : Queue → Queue) :
    (modQueue s q f).ao = s.ao ∧ (modQueue s q f).od = s.od ∧ (modQueue s q f).sel = s.sel ∧
    (modQueue s q f).badStore = s.badStore ∧ (modQueue s q f).rings = s.rings ∧ (modQueue s q f).arbFirst = s.arbFirst ∧
    (modQueue s q f).arbNext = s.arbNext ∧ (modQueue s q f).credit = s.credit ∧ (modQueue s q f).roundOpen = s.roundOpen ∧
    (modQueue s q f).hold = s.hold ∧ (modQueue s q f).holdWait = s.holdWait ∧ (modQueue s q f).nextHold = s.nextHold ∧
    (modQueue s q f).admitNo = s.admitNo ∧ (modQueue s q f).turns = s.turns ∧ (modQueue s q f).fab = s.fab ∧
    (modQueue s q f).regions = s.regions ∧ (modQueue s q f).tv = s.tv ∧ (modQueue s q f).moves = s.moves ∧
    (modQueue s q f).reloads = s.reloads ∧ (modQueue s q f).keys = s.keys ∧ (modQueue s q f).keyJob = s.keyJob ∧
    (modQueue s q f).keyQueue = s.keyQueue ∧ (modQueue s q f).keyResult = s.keyResult ∧
    (modQueue s q f).keyReady = s.keyReady ∧ (modQueue s q f).ridges = s.ridges ∧ (modQueue s q f).spurs = s.spurs ∧
    (modQueue s q f).spares = s.spares ∧ (modQueue s q f).chans = s.chans ∧ (modQueue s q f).luns = s.luns ∧
    (modQueue s q f).talus = s.talus ∧ (modQueue s q f).talusCopy = s.talusCopy ∧ (modQueue s q f).cornice = s.cornice ∧
    (modQueue s q f).units = s.units ∧ (modQueue s q f).stages = s.stages ∧ (modQueue s q f).decs = s.decs ∧
    (modQueue s q f).col = s.col ∧ (modQueue s q f).crest = s.crest ∧ (modQueue s q f).image = s.image ∧
    (modQueue s q f).sensors = s.sensors ∧ (modQueue s q f).inject = s.inject ∧ (modQueue s q f).free = s.free ∧
    (modQueue s q f).sent = s.sent ∧ (modQueue s q f).pending = s.pending :=
  by and_intros <;> rfl

@[simp] theorem modRing_frame (s : State) (n : Nat) (f : Ring → Ring) :
    (modRing s n f).ao = s.ao ∧ (modRing s n f).od = s.od ∧ (modRing s n f).sel = s.sel ∧
    (modRing s n f).badStore = s.badStore ∧ (modRing s n f).queues = s.queues ∧ (modRing s n f).arbFirst = s.arbFirst ∧
    (modRing s n f).arbNext = s.arbNext ∧ (modRing s n f).credit = s.credit ∧ (modRing s n f).roundOpen = s.roundOpen ∧
    (modRing s n f).hold = s.hold ∧ (modRing s n f).holdWait = s.holdWait ∧ (modRing s n f).nextHold = s.nextHold ∧
    (modRing s n f).admitNo = s.admitNo ∧ (modRing s n f).turns = s.turns ∧ (modRing s n f).fab = s.fab ∧
    (modRing s n f).regions = s.regions ∧ (modRing s n f).tv = s.tv ∧ (modRing s n f).moves = s.moves ∧
    (modRing s n f).reloads = s.reloads ∧ (modRing s n f).keys = s.keys ∧ (modRing s n f).keyJob = s.keyJob ∧
    (modRing s n f).keyQueue = s.keyQueue ∧ (modRing s n f).keyResult = s.keyResult ∧
    (modRing s n f).keyReady = s.keyReady ∧ (modRing s n f).ridges = s.ridges ∧ (modRing s n f).spurs = s.spurs ∧
    (modRing s n f).spares = s.spares ∧ (modRing s n f).chans = s.chans ∧ (modRing s n f).luns = s.luns ∧
    (modRing s n f).talus = s.talus ∧ (modRing s n f).talusCopy = s.talusCopy ∧ (modRing s n f).cornice = s.cornice ∧
    (modRing s n f).units = s.units ∧ (modRing s n f).stages = s.stages ∧ (modRing s n f).decs = s.decs ∧
    (modRing s n f).col = s.col ∧ (modRing s n f).crest = s.crest ∧ (modRing s n f).image = s.image ∧
    (modRing s n f).sensors = s.sensors ∧ (modRing s n f).inject = s.inject ∧ (modRing s n f).free = s.free ∧
    (modRing s n f).sent = s.sent ∧ (modRing s n f).pending = s.pending :=
  by and_intros <;> rfl

@[simp] theorem modRegion_frame (s : State) (r : Nat) (f : Region → Region) :
    (modRegion s r f).ao = s.ao ∧ (modRegion s r f).od = s.od ∧ (modRegion s r f).sel = s.sel ∧
    (modRegion s r f).badStore = s.badStore ∧ (modRegion s r f).queues = s.queues ∧ (modRegion s r f).rings = s.rings ∧
    (modRegion s r f).arbFirst = s.arbFirst ∧ (modRegion s r f).arbNext = s.arbNext ∧ (modRegion s r f).credit = s.credit ∧
    (modRegion s r f).roundOpen = s.roundOpen ∧ (modRegion s r f).hold = s.hold ∧ (modRegion s r f).holdWait = s.holdWait ∧
    (modRegion s r f).nextHold = s.nextHold ∧ (modRegion s r f).admitNo = s.admitNo ∧ (modRegion s r f).turns = s.turns ∧
    (modRegion s r f).fab = s.fab ∧ (modRegion s r f).tv = s.tv ∧ (modRegion s r f).moves = s.moves ∧
    (modRegion s r f).reloads = s.reloads ∧ (modRegion s r f).keys = s.keys ∧ (modRegion s r f).keyJob = s.keyJob ∧
    (modRegion s r f).keyQueue = s.keyQueue ∧ (modRegion s r f).keyResult = s.keyResult ∧
    (modRegion s r f).keyReady = s.keyReady ∧ (modRegion s r f).ridges = s.ridges ∧ (modRegion s r f).spurs = s.spurs ∧
    (modRegion s r f).spares = s.spares ∧ (modRegion s r f).chans = s.chans ∧ (modRegion s r f).luns = s.luns ∧
    (modRegion s r f).talus = s.talus ∧ (modRegion s r f).talusCopy = s.talusCopy ∧ (modRegion s r f).cornice = s.cornice ∧
    (modRegion s r f).units = s.units ∧ (modRegion s r f).stages = s.stages ∧ (modRegion s r f).decs = s.decs ∧
    (modRegion s r f).col = s.col ∧ (modRegion s r f).crest = s.crest ∧ (modRegion s r f).image = s.image ∧
    (modRegion s r f).sensors = s.sensors ∧ (modRegion s r f).inject = s.inject ∧ (modRegion s r f).free = s.free ∧
    (modRegion s r f).sent = s.sent ∧ (modRegion s r f).pending = s.pending :=
  by and_intros <;> rfl

@[simp] theorem modTv_frame (s : State) (r lun : Nat) (f : Tv → Tv) :
    (modTv s r lun f).ao = s.ao ∧ (modTv s r lun f).od = s.od ∧ (modTv s r lun f).sel = s.sel ∧
    (modTv s r lun f).badStore = s.badStore ∧ (modTv s r lun f).queues = s.queues ∧ (modTv s r lun f).rings = s.rings ∧
    (modTv s r lun f).arbFirst = s.arbFirst ∧ (modTv s r lun f).arbNext = s.arbNext ∧ (modTv s r lun f).credit = s.credit ∧
    (modTv s r lun f).roundOpen = s.roundOpen ∧ (modTv s r lun f).hold = s.hold ∧ (modTv s r lun f).holdWait = s.holdWait ∧
    (modTv s r lun f).nextHold = s.nextHold ∧ (modTv s r lun f).admitNo = s.admitNo ∧ (modTv s r lun f).turns = s.turns ∧
    (modTv s r lun f).fab = s.fab ∧ (modTv s r lun f).regions = s.regions ∧ (modTv s r lun f).moves = s.moves ∧
    (modTv s r lun f).reloads = s.reloads ∧ (modTv s r lun f).keys = s.keys ∧ (modTv s r lun f).keyJob = s.keyJob ∧
    (modTv s r lun f).keyQueue = s.keyQueue ∧ (modTv s r lun f).keyResult = s.keyResult ∧
    (modTv s r lun f).keyReady = s.keyReady ∧ (modTv s r lun f).ridges = s.ridges ∧ (modTv s r lun f).spurs = s.spurs ∧
    (modTv s r lun f).spares = s.spares ∧ (modTv s r lun f).chans = s.chans ∧ (modTv s r lun f).luns = s.luns ∧
    (modTv s r lun f).talus = s.talus ∧ (modTv s r lun f).talusCopy = s.talusCopy ∧ (modTv s r lun f).cornice = s.cornice ∧
    (modTv s r lun f).units = s.units ∧ (modTv s r lun f).stages = s.stages ∧ (modTv s r lun f).decs = s.decs ∧
    (modTv s r lun f).col = s.col ∧ (modTv s r lun f).crest = s.crest ∧ (modTv s r lun f).image = s.image ∧
    (modTv s r lun f).sensors = s.sensors ∧ (modTv s r lun f).inject = s.inject ∧ (modTv s r lun f).free = s.free ∧
    (modTv s r lun f).sent = s.sent ∧ (modTv s r lun f).pending = s.pending :=
  by and_intros <;> rfl

@[simp] theorem modKey_frame (s : State) (k : Nat) (f : KeySlot → KeySlot) :
    (modKey s k f).ao = s.ao ∧ (modKey s k f).od = s.od ∧ (modKey s k f).sel = s.sel ∧
    (modKey s k f).badStore = s.badStore ∧ (modKey s k f).queues = s.queues ∧ (modKey s k f).rings = s.rings ∧
    (modKey s k f).arbFirst = s.arbFirst ∧ (modKey s k f).arbNext = s.arbNext ∧ (modKey s k f).credit = s.credit ∧
    (modKey s k f).roundOpen = s.roundOpen ∧ (modKey s k f).hold = s.hold ∧ (modKey s k f).holdWait = s.holdWait ∧
    (modKey s k f).nextHold = s.nextHold ∧ (modKey s k f).admitNo = s.admitNo ∧ (modKey s k f).turns = s.turns ∧
    (modKey s k f).fab = s.fab ∧ (modKey s k f).regions = s.regions ∧ (modKey s k f).tv = s.tv ∧
    (modKey s k f).moves = s.moves ∧ (modKey s k f).reloads = s.reloads ∧ (modKey s k f).keyJob = s.keyJob ∧
    (modKey s k f).keyQueue = s.keyQueue ∧ (modKey s k f).keyResult = s.keyResult ∧ (modKey s k f).keyReady = s.keyReady ∧
    (modKey s k f).ridges = s.ridges ∧ (modKey s k f).spurs = s.spurs ∧ (modKey s k f).spares = s.spares ∧
    (modKey s k f).chans = s.chans ∧ (modKey s k f).luns = s.luns ∧ (modKey s k f).talus = s.talus ∧
    (modKey s k f).talusCopy = s.talusCopy ∧ (modKey s k f).cornice = s.cornice ∧ (modKey s k f).units = s.units ∧
    (modKey s k f).stages = s.stages ∧ (modKey s k f).decs = s.decs ∧ (modKey s k f).col = s.col ∧
    (modKey s k f).crest = s.crest ∧ (modKey s k f).image = s.image ∧ (modKey s k f).sensors = s.sensors ∧
    (modKey s k f).inject = s.inject ∧ (modKey s k f).free = s.free ∧ (modKey s k f).sent = s.sent ∧
    (modKey s k f).pending = s.pending :=
  by and_intros <;> rfl

@[simp] theorem modRidge_frame (s : State) (r : Nat) (f : Ridge → Ridge) :
    (modRidge s r f).ao = s.ao ∧ (modRidge s r f).od = s.od ∧ (modRidge s r f).sel = s.sel ∧
    (modRidge s r f).badStore = s.badStore ∧ (modRidge s r f).queues = s.queues ∧ (modRidge s r f).rings = s.rings ∧
    (modRidge s r f).arbFirst = s.arbFirst ∧ (modRidge s r f).arbNext = s.arbNext ∧ (modRidge s r f).credit = s.credit ∧
    (modRidge s r f).roundOpen = s.roundOpen ∧ (modRidge s r f).hold = s.hold ∧ (modRidge s r f).holdWait = s.holdWait ∧
    (modRidge s r f).nextHold = s.nextHold ∧ (modRidge s r f).admitNo = s.admitNo ∧ (modRidge s r f).turns = s.turns ∧
    (modRidge s r f).fab = s.fab ∧ (modRidge s r f).regions = s.regions ∧ (modRidge s r f).tv = s.tv ∧
    (modRidge s r f).moves = s.moves ∧ (modRidge s r f).reloads = s.reloads ∧ (modRidge s r f).keys = s.keys ∧
    (modRidge s r f).keyJob = s.keyJob ∧ (modRidge s r f).keyQueue = s.keyQueue ∧ (modRidge s r f).keyResult = s.keyResult ∧
    (modRidge s r f).keyReady = s.keyReady ∧ (modRidge s r f).spurs = s.spurs ∧ (modRidge s r f).spares = s.spares ∧
    (modRidge s r f).chans = s.chans ∧ (modRidge s r f).luns = s.luns ∧ (modRidge s r f).talus = s.talus ∧
    (modRidge s r f).talusCopy = s.talusCopy ∧ (modRidge s r f).cornice = s.cornice ∧ (modRidge s r f).units = s.units ∧
    (modRidge s r f).stages = s.stages ∧ (modRidge s r f).decs = s.decs ∧ (modRidge s r f).col = s.col ∧
    (modRidge s r f).crest = s.crest ∧ (modRidge s r f).image = s.image ∧ (modRidge s r f).sensors = s.sensors ∧
    (modRidge s r f).inject = s.inject ∧ (modRidge s r f).free = s.free ∧ (modRidge s r f).sent = s.sent ∧
    (modRidge s r f).pending = s.pending :=
  by and_intros <;> rfl

@[simp] theorem modSpur_frame (s : State) (p : Nat) (f : Spur → Spur) :
    (modSpur s p f).ao = s.ao ∧ (modSpur s p f).od = s.od ∧ (modSpur s p f).sel = s.sel ∧
    (modSpur s p f).badStore = s.badStore ∧ (modSpur s p f).queues = s.queues ∧ (modSpur s p f).rings = s.rings ∧
    (modSpur s p f).arbFirst = s.arbFirst ∧ (modSpur s p f).arbNext = s.arbNext ∧ (modSpur s p f).credit = s.credit ∧
    (modSpur s p f).roundOpen = s.roundOpen ∧ (modSpur s p f).hold = s.hold ∧ (modSpur s p f).holdWait = s.holdWait ∧
    (modSpur s p f).nextHold = s.nextHold ∧ (modSpur s p f).admitNo = s.admitNo ∧ (modSpur s p f).turns = s.turns ∧
    (modSpur s p f).fab = s.fab ∧ (modSpur s p f).regions = s.regions ∧ (modSpur s p f).tv = s.tv ∧
    (modSpur s p f).moves = s.moves ∧ (modSpur s p f).reloads = s.reloads ∧ (modSpur s p f).keys = s.keys ∧
    (modSpur s p f).keyJob = s.keyJob ∧ (modSpur s p f).keyQueue = s.keyQueue ∧ (modSpur s p f).keyResult = s.keyResult ∧
    (modSpur s p f).keyReady = s.keyReady ∧ (modSpur s p f).ridges = s.ridges ∧ (modSpur s p f).spares = s.spares ∧
    (modSpur s p f).chans = s.chans ∧ (modSpur s p f).luns = s.luns ∧ (modSpur s p f).talus = s.talus ∧
    (modSpur s p f).talusCopy = s.talusCopy ∧ (modSpur s p f).cornice = s.cornice ∧ (modSpur s p f).units = s.units ∧
    (modSpur s p f).stages = s.stages ∧ (modSpur s p f).decs = s.decs ∧ (modSpur s p f).col = s.col ∧
    (modSpur s p f).crest = s.crest ∧ (modSpur s p f).image = s.image ∧ (modSpur s p f).sensors = s.sensors ∧
    (modSpur s p f).inject = s.inject ∧ (modSpur s p f).free = s.free ∧ (modSpur s p f).sent = s.sent ∧
    (modSpur s p f).pending = s.pending :=
  by and_intros <;> rfl

@[simp] theorem modSpare_frame (s : State) (g : Nat) (f : Spare → Spare) :
    (modSpare s g f).ao = s.ao ∧ (modSpare s g f).od = s.od ∧ (modSpare s g f).sel = s.sel ∧
    (modSpare s g f).badStore = s.badStore ∧ (modSpare s g f).queues = s.queues ∧ (modSpare s g f).rings = s.rings ∧
    (modSpare s g f).arbFirst = s.arbFirst ∧ (modSpare s g f).arbNext = s.arbNext ∧ (modSpare s g f).credit = s.credit ∧
    (modSpare s g f).roundOpen = s.roundOpen ∧ (modSpare s g f).hold = s.hold ∧ (modSpare s g f).holdWait = s.holdWait ∧
    (modSpare s g f).nextHold = s.nextHold ∧ (modSpare s g f).admitNo = s.admitNo ∧ (modSpare s g f).turns = s.turns ∧
    (modSpare s g f).fab = s.fab ∧ (modSpare s g f).regions = s.regions ∧ (modSpare s g f).tv = s.tv ∧
    (modSpare s g f).moves = s.moves ∧ (modSpare s g f).reloads = s.reloads ∧ (modSpare s g f).keys = s.keys ∧
    (modSpare s g f).keyJob = s.keyJob ∧ (modSpare s g f).keyQueue = s.keyQueue ∧ (modSpare s g f).keyResult = s.keyResult ∧
    (modSpare s g f).keyReady = s.keyReady ∧ (modSpare s g f).ridges = s.ridges ∧ (modSpare s g f).spurs = s.spurs ∧
    (modSpare s g f).chans = s.chans ∧ (modSpare s g f).luns = s.luns ∧ (modSpare s g f).talus = s.talus ∧
    (modSpare s g f).talusCopy = s.talusCopy ∧ (modSpare s g f).cornice = s.cornice ∧ (modSpare s g f).units = s.units ∧
    (modSpare s g f).stages = s.stages ∧ (modSpare s g f).decs = s.decs ∧ (modSpare s g f).col = s.col ∧
    (modSpare s g f).crest = s.crest ∧ (modSpare s g f).image = s.image ∧ (modSpare s g f).sensors = s.sensors ∧
    (modSpare s g f).inject = s.inject ∧ (modSpare s g f).free = s.free ∧ (modSpare s g f).sent = s.sent ∧
    (modSpare s g f).pending = s.pending :=
  by and_intros <;> rfl

@[simp] theorem modChan_frame (s : State) (c : Nat) (f : Chan → Chan) :
    (modChan s c f).ao = s.ao ∧ (modChan s c f).od = s.od ∧ (modChan s c f).sel = s.sel ∧
    (modChan s c f).badStore = s.badStore ∧ (modChan s c f).queues = s.queues ∧ (modChan s c f).rings = s.rings ∧
    (modChan s c f).arbFirst = s.arbFirst ∧ (modChan s c f).arbNext = s.arbNext ∧ (modChan s c f).credit = s.credit ∧
    (modChan s c f).roundOpen = s.roundOpen ∧ (modChan s c f).hold = s.hold ∧ (modChan s c f).holdWait = s.holdWait ∧
    (modChan s c f).nextHold = s.nextHold ∧ (modChan s c f).admitNo = s.admitNo ∧ (modChan s c f).turns = s.turns ∧
    (modChan s c f).fab = s.fab ∧ (modChan s c f).regions = s.regions ∧ (modChan s c f).tv = s.tv ∧
    (modChan s c f).moves = s.moves ∧ (modChan s c f).reloads = s.reloads ∧ (modChan s c f).keys = s.keys ∧
    (modChan s c f).keyJob = s.keyJob ∧ (modChan s c f).keyQueue = s.keyQueue ∧ (modChan s c f).keyResult = s.keyResult ∧
    (modChan s c f).keyReady = s.keyReady ∧ (modChan s c f).ridges = s.ridges ∧ (modChan s c f).spurs = s.spurs ∧
    (modChan s c f).spares = s.spares ∧ (modChan s c f).luns = s.luns ∧ (modChan s c f).talus = s.talus ∧
    (modChan s c f).talusCopy = s.talusCopy ∧ (modChan s c f).cornice = s.cornice ∧ (modChan s c f).units = s.units ∧
    (modChan s c f).stages = s.stages ∧ (modChan s c f).decs = s.decs ∧ (modChan s c f).col = s.col ∧
    (modChan s c f).crest = s.crest ∧ (modChan s c f).image = s.image ∧ (modChan s c f).sensors = s.sensors ∧
    (modChan s c f).inject = s.inject ∧ (modChan s c f).free = s.free ∧ (modChan s c f).sent = s.sent ∧
    (modChan s c f).pending = s.pending :=
  by and_intros <;> rfl

@[simp] theorem modLun_frame (s : State) (l : Nat) (f : Lun → Lun) :
    (modLun s l f).ao = s.ao ∧ (modLun s l f).od = s.od ∧ (modLun s l f).sel = s.sel ∧
    (modLun s l f).badStore = s.badStore ∧ (modLun s l f).queues = s.queues ∧ (modLun s l f).rings = s.rings ∧
    (modLun s l f).arbFirst = s.arbFirst ∧ (modLun s l f).arbNext = s.arbNext ∧ (modLun s l f).credit = s.credit ∧
    (modLun s l f).roundOpen = s.roundOpen ∧ (modLun s l f).hold = s.hold ∧ (modLun s l f).holdWait = s.holdWait ∧
    (modLun s l f).nextHold = s.nextHold ∧ (modLun s l f).admitNo = s.admitNo ∧ (modLun s l f).turns = s.turns ∧
    (modLun s l f).fab = s.fab ∧ (modLun s l f).regions = s.regions ∧ (modLun s l f).tv = s.tv ∧
    (modLun s l f).moves = s.moves ∧ (modLun s l f).reloads = s.reloads ∧ (modLun s l f).keys = s.keys ∧
    (modLun s l f).keyJob = s.keyJob ∧ (modLun s l f).keyQueue = s.keyQueue ∧ (modLun s l f).keyResult = s.keyResult ∧
    (modLun s l f).keyReady = s.keyReady ∧ (modLun s l f).ridges = s.ridges ∧ (modLun s l f).spurs = s.spurs ∧
    (modLun s l f).spares = s.spares ∧ (modLun s l f).chans = s.chans ∧ (modLun s l f).talus = s.talus ∧
    (modLun s l f).talusCopy = s.talusCopy ∧ (modLun s l f).cornice = s.cornice ∧ (modLun s l f).units = s.units ∧
    (modLun s l f).stages = s.stages ∧ (modLun s l f).decs = s.decs ∧ (modLun s l f).col = s.col ∧
    (modLun s l f).crest = s.crest ∧ (modLun s l f).image = s.image ∧ (modLun s l f).sensors = s.sensors ∧
    (modLun s l f).inject = s.inject ∧ (modLun s l f).free = s.free ∧ (modLun s l f).sent = s.sent ∧
    (modLun s l f).pending = s.pending :=
  by and_intros <;> rfl

@[simp] theorem modCorn_frame (s : State) (e : Nat) (f : Corn → Corn) :
    (modCorn s e f).ao = s.ao ∧ (modCorn s e f).od = s.od ∧ (modCorn s e f).sel = s.sel ∧
    (modCorn s e f).badStore = s.badStore ∧ (modCorn s e f).queues = s.queues ∧ (modCorn s e f).rings = s.rings ∧
    (modCorn s e f).arbFirst = s.arbFirst ∧ (modCorn s e f).arbNext = s.arbNext ∧ (modCorn s e f).credit = s.credit ∧
    (modCorn s e f).roundOpen = s.roundOpen ∧ (modCorn s e f).hold = s.hold ∧ (modCorn s e f).holdWait = s.holdWait ∧
    (modCorn s e f).nextHold = s.nextHold ∧ (modCorn s e f).admitNo = s.admitNo ∧ (modCorn s e f).turns = s.turns ∧
    (modCorn s e f).fab = s.fab ∧ (modCorn s e f).regions = s.regions ∧ (modCorn s e f).tv = s.tv ∧
    (modCorn s e f).moves = s.moves ∧ (modCorn s e f).reloads = s.reloads ∧ (modCorn s e f).keys = s.keys ∧
    (modCorn s e f).keyJob = s.keyJob ∧ (modCorn s e f).keyQueue = s.keyQueue ∧ (modCorn s e f).keyResult = s.keyResult ∧
    (modCorn s e f).keyReady = s.keyReady ∧ (modCorn s e f).ridges = s.ridges ∧ (modCorn s e f).spurs = s.spurs ∧
    (modCorn s e f).spares = s.spares ∧ (modCorn s e f).chans = s.chans ∧ (modCorn s e f).luns = s.luns ∧
    (modCorn s e f).talus = s.talus ∧ (modCorn s e f).talusCopy = s.talusCopy ∧ (modCorn s e f).units = s.units ∧
    (modCorn s e f).stages = s.stages ∧ (modCorn s e f).decs = s.decs ∧ (modCorn s e f).col = s.col ∧
    (modCorn s e f).crest = s.crest ∧ (modCorn s e f).image = s.image ∧ (modCorn s e f).sensors = s.sensors ∧
    (modCorn s e f).inject = s.inject ∧ (modCorn s e f).free = s.free ∧ (modCorn s e f).sent = s.sent ∧
    (modCorn s e f).pending = s.pending :=
  by and_intros <;> rfl

@[simp] theorem modUnit_frame (s : State) (u : Nat) (f : Led → Led) :
    (modUnit s u f).ao = s.ao ∧ (modUnit s u f).od = s.od ∧ (modUnit s u f).sel = s.sel ∧
    (modUnit s u f).badStore = s.badStore ∧ (modUnit s u f).queues = s.queues ∧ (modUnit s u f).rings = s.rings ∧
    (modUnit s u f).arbFirst = s.arbFirst ∧ (modUnit s u f).arbNext = s.arbNext ∧ (modUnit s u f).credit = s.credit ∧
    (modUnit s u f).roundOpen = s.roundOpen ∧ (modUnit s u f).hold = s.hold ∧ (modUnit s u f).holdWait = s.holdWait ∧
    (modUnit s u f).nextHold = s.nextHold ∧ (modUnit s u f).admitNo = s.admitNo ∧ (modUnit s u f).turns = s.turns ∧
    (modUnit s u f).fab = s.fab ∧ (modUnit s u f).regions = s.regions ∧ (modUnit s u f).tv = s.tv ∧
    (modUnit s u f).moves = s.moves ∧ (modUnit s u f).reloads = s.reloads ∧ (modUnit s u f).keys = s.keys ∧
    (modUnit s u f).keyJob = s.keyJob ∧ (modUnit s u f).keyQueue = s.keyQueue ∧ (modUnit s u f).keyResult = s.keyResult ∧
    (modUnit s u f).keyReady = s.keyReady ∧ (modUnit s u f).ridges = s.ridges ∧ (modUnit s u f).spurs = s.spurs ∧
    (modUnit s u f).spares = s.spares ∧ (modUnit s u f).chans = s.chans ∧ (modUnit s u f).luns = s.luns ∧
    (modUnit s u f).talus = s.talus ∧ (modUnit s u f).talusCopy = s.talusCopy ∧ (modUnit s u f).cornice = s.cornice ∧
    (modUnit s u f).stages = s.stages ∧ (modUnit s u f).decs = s.decs ∧ (modUnit s u f).col = s.col ∧
    (modUnit s u f).crest = s.crest ∧ (modUnit s u f).image = s.image ∧ (modUnit s u f).sensors = s.sensors ∧
    (modUnit s u f).inject = s.inject ∧ (modUnit s u f).free = s.free ∧ (modUnit s u f).sent = s.sent ∧
    (modUnit s u f).pending = s.pending :=
  by and_intros <;> rfl

@[simp] theorem modDec_frame (s : State) (d : Nat) (f : DecIsland → DecIsland) :
    (modDec s d f).ao = s.ao ∧ (modDec s d f).od = s.od ∧ (modDec s d f).sel = s.sel ∧
    (modDec s d f).badStore = s.badStore ∧ (modDec s d f).queues = s.queues ∧ (modDec s d f).rings = s.rings ∧
    (modDec s d f).arbFirst = s.arbFirst ∧ (modDec s d f).arbNext = s.arbNext ∧ (modDec s d f).credit = s.credit ∧
    (modDec s d f).roundOpen = s.roundOpen ∧ (modDec s d f).hold = s.hold ∧ (modDec s d f).holdWait = s.holdWait ∧
    (modDec s d f).nextHold = s.nextHold ∧ (modDec s d f).admitNo = s.admitNo ∧ (modDec s d f).turns = s.turns ∧
    (modDec s d f).fab = s.fab ∧ (modDec s d f).regions = s.regions ∧ (modDec s d f).tv = s.tv ∧
    (modDec s d f).moves = s.moves ∧ (modDec s d f).reloads = s.reloads ∧ (modDec s d f).keys = s.keys ∧
    (modDec s d f).keyJob = s.keyJob ∧ (modDec s d f).keyQueue = s.keyQueue ∧ (modDec s d f).keyResult = s.keyResult ∧
    (modDec s d f).keyReady = s.keyReady ∧ (modDec s d f).ridges = s.ridges ∧ (modDec s d f).spurs = s.spurs ∧
    (modDec s d f).spares = s.spares ∧ (modDec s d f).chans = s.chans ∧ (modDec s d f).luns = s.luns ∧
    (modDec s d f).talus = s.talus ∧ (modDec s d f).talusCopy = s.talusCopy ∧ (modDec s d f).cornice = s.cornice ∧
    (modDec s d f).units = s.units ∧ (modDec s d f).stages = s.stages ∧ (modDec s d f).col = s.col ∧
    (modDec s d f).crest = s.crest ∧ (modDec s d f).image = s.image ∧ (modDec s d f).sensors = s.sensors ∧
    (modDec s d f).inject = s.inject ∧ (modDec s d f).free = s.free ∧ (modDec s d f).sent = s.sent ∧
    (modDec s d f).pending = s.pending :=
  by and_intros <;> rfl

@[simp] theorem modAo_frame (s : State) (f : Ao → Ao) :
    (modAo s f).od = s.od ∧ (modAo s f).sel = s.sel ∧ (modAo s f).badStore = s.badStore ∧ (modAo s f).queues = s.queues ∧
    (modAo s f).rings = s.rings ∧ (modAo s f).arbFirst = s.arbFirst ∧ (modAo s f).arbNext = s.arbNext ∧
    (modAo s f).credit = s.credit ∧ (modAo s f).roundOpen = s.roundOpen ∧ (modAo s f).hold = s.hold ∧
    (modAo s f).holdWait = s.holdWait ∧ (modAo s f).nextHold = s.nextHold ∧ (modAo s f).admitNo = s.admitNo ∧
    (modAo s f).turns = s.turns ∧ (modAo s f).fab = s.fab ∧ (modAo s f).regions = s.regions ∧ (modAo s f).tv = s.tv ∧
    (modAo s f).moves = s.moves ∧ (modAo s f).reloads = s.reloads ∧ (modAo s f).keys = s.keys ∧
    (modAo s f).keyJob = s.keyJob ∧ (modAo s f).keyQueue = s.keyQueue ∧ (modAo s f).keyResult = s.keyResult ∧
    (modAo s f).keyReady = s.keyReady ∧ (modAo s f).ridges = s.ridges ∧ (modAo s f).spurs = s.spurs ∧
    (modAo s f).spares = s.spares ∧ (modAo s f).chans = s.chans ∧ (modAo s f).luns = s.luns ∧ (modAo s f).talus = s.talus ∧
    (modAo s f).talusCopy = s.talusCopy ∧ (modAo s f).cornice = s.cornice ∧ (modAo s f).units = s.units ∧
    (modAo s f).stages = s.stages ∧ (modAo s f).decs = s.decs ∧ (modAo s f).col = s.col ∧ (modAo s f).crest = s.crest ∧
    (modAo s f).image = s.image ∧ (modAo s f).sensors = s.sensors ∧ (modAo s f).inject = s.inject ∧
    (modAo s f).free = s.free ∧ (modAo s f).sent = s.sent ∧ (modAo s f).pending = s.pending :=
  by and_intros <;> rfl

@[simp] theorem setOd_frame (s : State) (i sub v : Nat) :
    (setOd s i sub v).ao = s.ao ∧ (setOd s i sub v).sel = s.sel ∧ (setOd s i sub v).badStore = s.badStore ∧
    (setOd s i sub v).queues = s.queues ∧ (setOd s i sub v).rings = s.rings ∧ (setOd s i sub v).arbFirst = s.arbFirst ∧
    (setOd s i sub v).arbNext = s.arbNext ∧ (setOd s i sub v).credit = s.credit ∧
    (setOd s i sub v).roundOpen = s.roundOpen ∧ (setOd s i sub v).hold = s.hold ∧ (setOd s i sub v).holdWait = s.holdWait ∧
    (setOd s i sub v).nextHold = s.nextHold ∧ (setOd s i sub v).admitNo = s.admitNo ∧ (setOd s i sub v).turns = s.turns ∧
    (setOd s i sub v).fab = s.fab ∧ (setOd s i sub v).regions = s.regions ∧ (setOd s i sub v).tv = s.tv ∧
    (setOd s i sub v).moves = s.moves ∧ (setOd s i sub v).reloads = s.reloads ∧ (setOd s i sub v).keys = s.keys ∧
    (setOd s i sub v).keyJob = s.keyJob ∧ (setOd s i sub v).keyQueue = s.keyQueue ∧
    (setOd s i sub v).keyResult = s.keyResult ∧ (setOd s i sub v).keyReady = s.keyReady ∧
    (setOd s i sub v).ridges = s.ridges ∧ (setOd s i sub v).spurs = s.spurs ∧ (setOd s i sub v).spares = s.spares ∧
    (setOd s i sub v).chans = s.chans ∧ (setOd s i sub v).luns = s.luns ∧ (setOd s i sub v).talus = s.talus ∧
    (setOd s i sub v).talusCopy = s.talusCopy ∧ (setOd s i sub v).cornice = s.cornice ∧ (setOd s i sub v).units = s.units ∧
    (setOd s i sub v).stages = s.stages ∧ (setOd s i sub v).decs = s.decs ∧ (setOd s i sub v).col = s.col ∧
    (setOd s i sub v).crest = s.crest ∧ (setOd s i sub v).image = s.image ∧ (setOd s i sub v).sensors = s.sensors ∧
    (setOd s i sub v).inject = s.inject ∧ (setOd s i sub v).free = s.free ∧ (setOd s i sub v).sent = s.sent ∧
    (setOd s i sub v).pending = s.pending :=
  by and_intros <;> rfl

@[simp] theorem setSel_frame (s : State) (r i sub v : Nat) :
    (setSel s r i sub v).ao = s.ao ∧ (setSel s r i sub v).od = s.od ∧ (setSel s r i sub v).badStore = s.badStore ∧
    (setSel s r i sub v).queues = s.queues ∧ (setSel s r i sub v).rings = s.rings ∧
    (setSel s r i sub v).arbFirst = s.arbFirst ∧ (setSel s r i sub v).arbNext = s.arbNext ∧
    (setSel s r i sub v).credit = s.credit ∧ (setSel s r i sub v).roundOpen = s.roundOpen ∧
    (setSel s r i sub v).hold = s.hold ∧ (setSel s r i sub v).holdWait = s.holdWait ∧
    (setSel s r i sub v).nextHold = s.nextHold ∧ (setSel s r i sub v).admitNo = s.admitNo ∧
    (setSel s r i sub v).turns = s.turns ∧ (setSel s r i sub v).fab = s.fab ∧ (setSel s r i sub v).regions = s.regions ∧
    (setSel s r i sub v).tv = s.tv ∧ (setSel s r i sub v).moves = s.moves ∧ (setSel s r i sub v).reloads = s.reloads ∧
    (setSel s r i sub v).keys = s.keys ∧ (setSel s r i sub v).keyJob = s.keyJob ∧
    (setSel s r i sub v).keyQueue = s.keyQueue ∧ (setSel s r i sub v).keyResult = s.keyResult ∧
    (setSel s r i sub v).keyReady = s.keyReady ∧ (setSel s r i sub v).ridges = s.ridges ∧
    (setSel s r i sub v).spurs = s.spurs ∧ (setSel s r i sub v).spares = s.spares ∧ (setSel s r i sub v).chans = s.chans ∧
    (setSel s r i sub v).luns = s.luns ∧ (setSel s r i sub v).talus = s.talus ∧
    (setSel s r i sub v).talusCopy = s.talusCopy ∧ (setSel s r i sub v).cornice = s.cornice ∧
    (setSel s r i sub v).units = s.units ∧ (setSel s r i sub v).stages = s.stages ∧ (setSel s r i sub v).decs = s.decs ∧
    (setSel s r i sub v).col = s.col ∧ (setSel s r i sub v).crest = s.crest ∧ (setSel s r i sub v).image = s.image ∧
    (setSel s r i sub v).sensors = s.sensors ∧ (setSel s r i sub v).inject = s.inject ∧ (setSel s r i sub v).free = s.free ∧
    (setSel s r i sub v).sent = s.sent ∧ (setSel s r i sub v).pending = s.pending :=
  by and_intros <;> rfl

@[simp] theorem emit_frame (s : State) (o : PortOut) :
    (emit s o).ao = s.ao ∧ (emit s o).od = s.od ∧ (emit s o).sel = s.sel ∧ (emit s o).badStore = s.badStore ∧
    (emit s o).queues = s.queues ∧ (emit s o).rings = s.rings ∧ (emit s o).arbFirst = s.arbFirst ∧
    (emit s o).arbNext = s.arbNext ∧ (emit s o).credit = s.credit ∧ (emit s o).roundOpen = s.roundOpen ∧
    (emit s o).hold = s.hold ∧ (emit s o).holdWait = s.holdWait ∧ (emit s o).nextHold = s.nextHold ∧
    (emit s o).admitNo = s.admitNo ∧ (emit s o).turns = s.turns ∧ (emit s o).fab = s.fab ∧ (emit s o).regions = s.regions ∧
    (emit s o).tv = s.tv ∧ (emit s o).moves = s.moves ∧ (emit s o).reloads = s.reloads ∧ (emit s o).keys = s.keys ∧
    (emit s o).keyJob = s.keyJob ∧ (emit s o).keyQueue = s.keyQueue ∧ (emit s o).keyResult = s.keyResult ∧
    (emit s o).keyReady = s.keyReady ∧ (emit s o).ridges = s.ridges ∧ (emit s o).spurs = s.spurs ∧
    (emit s o).spares = s.spares ∧ (emit s o).chans = s.chans ∧ (emit s o).luns = s.luns ∧ (emit s o).talus = s.talus ∧
    (emit s o).talusCopy = s.talusCopy ∧ (emit s o).cornice = s.cornice ∧ (emit s o).units = s.units ∧
    (emit s o).stages = s.stages ∧ (emit s o).decs = s.decs ∧ (emit s o).col = s.col ∧ (emit s o).crest = s.crest ∧
    (emit s o).image = s.image ∧ (emit s o).sensors = s.sensors ∧ (emit s o).inject = s.inject ∧ (emit s o).free = s.free ∧
    (emit s o).pending = s.pending :=
  by and_intros <;> rfl

@[simp] theorem modQueue_queues (s : State) (q : Nat) (f : Queue → Queue) : (modQueue s q f).queues = s.queues.modify {} q f := rfl
@[simp] theorem modRing_rings (s : State) (n : Nat) (f : Ring → Ring) : (modRing s n f).rings = s.rings.modify {} n f := rfl
@[simp] theorem modRegion_regions (s : State) (r : Nat) (f : Region → Region) : (modRegion s r f).regions = s.regions.modify {} r f := rfl
@[simp] theorem modKey_keys (s : State) (k : Nat) (f : KeySlot → KeySlot) : (modKey s k f).keys = s.keys.modify {} k f := rfl
@[simp] theorem modRidge_ridges (s : State) (r : Nat) (f : Ridge → Ridge) : (modRidge s r f).ridges = s.ridges.modify {} r f := rfl
@[simp] theorem modSpur_spurs (s : State) (p : Nat) (f : Spur → Spur) : (modSpur s p f).spurs = s.spurs.modify {} p f := rfl
@[simp] theorem modSpare_spares (s : State) (g : Nat) (f : Spare → Spare) : (modSpare s g f).spares = s.spares.modify {} g f := rfl
@[simp] theorem modChan_chans (s : State) (c : Nat) (f : Chan → Chan) : (modChan s c f).chans = s.chans.modify {} c f := rfl
@[simp] theorem modLun_luns (s : State) (l : Nat) (f : Lun → Lun) : (modLun s l f).luns = s.luns.modify {} l f := rfl
@[simp] theorem modCorn_cornice (s : State) (e : Nat) (f : Corn → Corn) : (modCorn s e f).cornice = s.cornice.modify {} e f := rfl
@[simp] theorem modUnit_units (s : State) (u : Nat) (f : Led → Led) : (modUnit s u f).units = s.units.modify {} u f := rfl
@[simp] theorem modDec_decs (s : State) (d : Nat) (f : DecIsland → DecIsland) : (modDec s d f).decs = s.decs.modify {} d f := rfl

/-! ### Reading a record back -/

@[simp] theorem queue_modQueue (s : State) (q : Nat) (f : Queue → Queue) : queue (modQueue s q f) q = f (queue s q) := SMap.get_modify_same _ _ _ _
theorem queue_modQueue_other (s : State) (q j : Nat) (f : Queue → Queue) (h : j ≠ q) : queue (modQueue s q f) j = queue s j :=
  SMap.get_modify_other _ _ _ _ _ _ h

@[simp] theorem ring_modRing (s : State) (n : Nat) (f : Ring → Ring) : ring (modRing s n f) n = f (ring s n) := SMap.get_modify_same _ _ _ _
theorem ring_modRing_other (s : State) (n j : Nat) (f : Ring → Ring) (h : j ≠ n) : ring (modRing s n f) j = ring s j :=
  SMap.get_modify_other _ _ _ _ _ _ h

@[simp] theorem region_modRegion (s : State) (r : Nat) (f : Region → Region) : region (modRegion s r f) r = f (region s r) := SMap.get_modify_same _ _ _ _
theorem region_modRegion_other (s : State) (r j : Nat) (f : Region → Region) (h : j ≠ r) : region (modRegion s r f) j = region s j :=
  SMap.get_modify_other _ _ _ _ _ _ h

@[simp] theorem keySlot_modKey (s : State) (k : Nat) (f : KeySlot → KeySlot) : keySlot (modKey s k f) k = f (keySlot s k) := SMap.get_modify_same _ _ _ _
theorem keySlot_modKey_other (s : State) (k j : Nat) (f : KeySlot → KeySlot) (h : j ≠ k) : keySlot (modKey s k f) j = keySlot s j :=
  SMap.get_modify_other _ _ _ _ _ _ h

@[simp] theorem ridge_modRidge (s : State) (r : Nat) (f : Ridge → Ridge) : ridge (modRidge s r f) r = f (ridge s r) := SMap.get_modify_same _ _ _ _
theorem ridge_modRidge_other (s : State) (r j : Nat) (f : Ridge → Ridge) (h : j ≠ r) : ridge (modRidge s r f) j = ridge s j :=
  SMap.get_modify_other _ _ _ _ _ _ h

@[simp] theorem spur_modSpur (s : State) (p : Nat) (f : Spur → Spur) : spur (modSpur s p f) p = f (spur s p) := SMap.get_modify_same _ _ _ _
theorem spur_modSpur_other (s : State) (p j : Nat) (f : Spur → Spur) (h : j ≠ p) : spur (modSpur s p f) j = spur s j :=
  SMap.get_modify_other _ _ _ _ _ _ h

@[simp] theorem spare_modSpare (s : State) (g : Nat) (f : Spare → Spare) : spare (modSpare s g f) g = f (spare s g) := SMap.get_modify_same _ _ _ _
theorem spare_modSpare_other (s : State) (g j : Nat) (f : Spare → Spare) (h : j ≠ g) : spare (modSpare s g f) j = spare s j :=
  SMap.get_modify_other _ _ _ _ _ _ h

@[simp] theorem chan_modChan (s : State) (c : Nat) (f : Chan → Chan) : chan (modChan s c f) c = f (chan s c) := SMap.get_modify_same _ _ _ _
theorem chan_modChan_other (s : State) (c j : Nat) (f : Chan → Chan) (h : j ≠ c) : chan (modChan s c f) j = chan s j :=
  SMap.get_modify_other _ _ _ _ _ _ h

@[simp] theorem lunOf_modLun (s : State) (l : Nat) (f : Lun → Lun) : lunOf (modLun s l f) l = f (lunOf s l) := SMap.get_modify_same _ _ _ _
theorem lunOf_modLun_other (s : State) (l j : Nat) (f : Lun → Lun) (h : j ≠ l) : lunOf (modLun s l f) j = lunOf s j :=
  SMap.get_modify_other _ _ _ _ _ _ h

@[simp] theorem corn_modCorn (s : State) (e : Nat) (f : Corn → Corn) : corn (modCorn s e f) e = f (corn s e) := SMap.get_modify_same _ _ _ _
theorem corn_modCorn_other (s : State) (e j : Nat) (f : Corn → Corn) (h : j ≠ e) : corn (modCorn s e f) j = corn s j :=
  SMap.get_modify_other _ _ _ _ _ _ h

@[simp] theorem unit_modUnit (s : State) (u : Nat) (f : Led → Led) : unit (modUnit s u f) u = f (unit s u) := SMap.get_modify_same _ _ _ _
theorem unit_modUnit_other (s : State) (u j : Nat) (f : Led → Led) (h : j ≠ u) : unit (modUnit s u f) j = unit s j :=
  SMap.get_modify_other _ _ _ _ _ _ h

@[simp] theorem dec_modDec (s : State) (d : Nat) (f : DecIsland → DecIsland) : dec (modDec s d f) d = f (dec s d) := SMap.get_modify_same _ _ _ _
theorem dec_modDec_other (s : State) (d j : Nat) (f : DecIsland → DecIsland) (h : j ≠ d) : dec (modDec s d f) j = dec s j :=
  SMap.get_modify_other _ _ _ _ _ _ h

/-- A dictionary entry reads what was last stored in it. -/
@[simp] theorem od_setOd (s : State) (i sub v : Nat) : od (setOd s i sub v) i sub = v := SMap.get_set_same _ _ _ _
/-- Storing one entry leaves every other alone. -/
theorem od_setOd_other (s : State) (i sub v j t : Nat) (h : odKey j t ≠ odKey i sub) : od (setOd s i sub v) j t = od s j t :=
  SMap.get_set_other _ _ _ _ _ _ h

/-! ### Two states that agree on a field read alike -/

theorem queue_congr (s t : State) (q : Nat) (h : t.queues = s.queues) : queue t q = queue s q := by simp only [queue, h]
theorem ring_congr (s t : State) (n : Nat) (h : t.rings = s.rings) : ring t n = ring s n := by simp only [ring, h]
theorem region_congr (s t : State) (r : Nat) (h : t.regions = s.regions) : region t r = region s r := by simp only [region, h]
theorem keySlot_congr (s t : State) (k : Nat) (h : t.keys = s.keys) : keySlot t k = keySlot s k := by simp only [keySlot, h]
theorem ridge_congr (s t : State) (r : Nat) (h : t.ridges = s.ridges) : ridge t r = ridge s r := by simp only [ridge, h]
theorem spur_congr (s t : State) (p : Nat) (h : t.spurs = s.spurs) : spur t p = spur s p := by simp only [spur, h]
theorem spare_congr (s t : State) (g : Nat) (h : t.spares = s.spares) : spare t g = spare s g := by simp only [spare, h]
theorem chan_congr (s t : State) (c : Nat) (h : t.chans = s.chans) : chan t c = chan s c := by simp only [chan, h]
theorem lunOf_congr (s t : State) (l : Nat) (h : t.luns = s.luns) : lunOf t l = lunOf s l := by simp only [lunOf, h]
theorem corn_congr (s t : State) (e : Nat) (h : t.cornice = s.cornice) : corn t e = corn s e := by simp only [corn, h]
theorem unit_congr (s t : State) (u : Nat) (h : t.units = s.units) : unit t u = unit s u := by simp only [unit, h]
theorem dec_congr (s t : State) (d : Nat) (h : t.decs = s.decs) : dec t d = dec s d := by simp only [dec, h]
theorem link_congr (s t : State) (l : Nat) (h : t.col = s.col) : link t l = link s l := by simp only [link, h]
theorem od_congr (s t : State) (i sub : Nat) (h : t.od = s.od) : od t i sub = od s i sub := by simp only [od, h]

end Sys2Proof.Machine
end

