-- ==== Sys2Proof/Laws/Dictionary.lean ====
section
/-! SUPPORT. Where the dictionary finds the rows of its numbered units, and what a control-port write does once it passes. -/

namespace Sys2Proof.Machine

theorem odRows_queue (q : Nat) (h : q < 4096) : odRows (0x3000 + q) = od3000 := by
  unfold odRows
  repeat rw [if_neg (by omega)]
  rw [if_pos (by omega)]
theorem odRows_ring (q : Nat) (h : q < 16) : odRows (0x1110 + q) = od1110 := by
  unfold odRows
  repeat rw [if_neg (by omega)]
  rw [if_pos (by omega)]
theorem odRows_region (q : Nat) (h : q < 256) : odRows (0x2000 + q) = od2000 := by
  unfold odRows
  repeat rw [if_neg (by omega)]
  rw [if_pos (by omega)]
theorem odRows_link (q : Nat) (h : q < 2) : odRows (0x8010 + q) = od8010 := by
  unfold odRows
  repeat rw [if_neg (by omega)]
  rw [if_pos (by omega)]
theorem odRows_mirror (q : Nat) (h : q < 256) : odRows (0x8100 + q) = od8100 := by
  unfold odRows
  repeat rw [if_neg (by omega)]
  rw [if_pos (by omega)]

/-- A write passes when its entry may be written now by this master and holds the value (R386, R387). -/
theorem writeCode_ok (s : State) (mid i sub v : Nat) (r : OdRow) (hm : mid ≠ 0) (hr : odRow i sub = some r) (ha : r.acc = .rw ∨ r.acc = .wo)
    (ho : onceWritten s i sub = false) (hn : needsStop r i sub = false) (hb : odBusy s i sub = false) (hw : ownerOnly i sub = false)
    (hv : valueOk s r i sub v = true) : writeCode s ⟨false, mid⟩ i sub v = 0 := by
  simp [writeCode, pathOk, hm, hr, hn, hb, hw, hv, ho]
  rcases ha with h | h <;> simp [h]

/-- A write that passes has its effect, makes the entry's storage good and is answered OK (R420, R430). -/
theorem ctlWrite_ok (s : State) (mid i sub v : Nat) (h : writeCode s ⟨false, mid⟩ i sub v = 0) (ht : isTvState i sub = false) :
    ctlWrite s mid i sub v = emit (acceptWrite (applyWrite s ⟨false, mid⟩ i sub v) i sub) (.ctl mid 0 0) := by
  simp only [ctlWrite, dictWrite, h, ht]
  rfl

end Sys2Proof.Machine
end

