-- ==== Sys2Proof/Laws/KeepsOps.lean ====
section
/-! SUPPORT. What the operations of notices, queues, retirement, the Col port and the Ledge keep: the queue of commands, the block time, the
resets, the port state, and where every submission queue stands, or the order of its indices (R54). -/

namespace Sys2Proof.Machine

/-! ### Ops -/

/-- Where the indices of a queue stand and how many entries it holds (R54). -/
def Queue.place (x : Queue) : Nat × Nat × Nat × Nat := (x.done, x.fetch, x.doorbell, x.ents.length)
/-- The places of all queues. -/
def places (m : SMap Queue) (q : Nat) : Nat × Nat × Nat × Nat := (m.get {} q).place
@[simp] theorem min_add_sub (k n : Nat) : min k n + (n - k) = n := by omega
@[simp] theorem places_modify (m : SMap Queue) (q : Nat) (f : Queue → Queue) (hd : ∀ x, (f x).done = x.done) (hf : ∀ x, (f x).fetch = x.fetch)
    (hb : ∀ x, (f x).doorbell = x.doorbell) (he : ∀ x, (f x).ents.length = x.ents.length) : places (m.modify {} q f) = places m := by
  funext j
  by_cases hj : j = q
  · subst hj; simp [places, Queue.place, hd, hf, hb, he]
  · simp [places, SMap.get_modify_other _ _ _ _ _ _ hj]

/-- The distance from DONE to an index, of a ring of 2^k entries (R54). -/
def ahead (k d a : Nat) : Nat := (a % 2 ^ (k + 1) + 2 ^ (k + 1) - d % 2 ^ (k + 1)) % 2 ^ (k + 1)
/-- A place in order, for a ring of 2^k entries (R54): the entries held reach no further than FETCH, FETCH no further than DOORBELL,
DOORBELL no further than 2^k. -/
def Ordered (k : Nat) (p : Nat × Nat × Nat × Nat) : Prop :=
  k ≤ 15 ∧ p.2.2.2 ≤ ahead k p.1 p.2.1 ∧ ahead k p.1 p.2.1 ≤ ahead k p.1 p.2.2.1 ∧ ahead k p.1 p.2.2.1 ≤ 2 ^ k
/-- Every queue in order in s, for a ring of any size, is in order in t for one of that size. -/
def OrderKept (t s : State) : Prop := ∀ k q, Ordered k (places s.queues q) → Ordered k (places t.queues q)
theorem orderKept_of {t s : State} (h : places t.queues = places s.queues) : OrderKept t s := fun k q ho => by rw [h]; exact ho
theorem orderKept_trans {u t s : State} (h : OrderKept u t) (h' : OrderKept t s) : OrderKept u s := fun k q ho => h k q (h' k q ho)
/-- A change of one queue keeps the order if it keeps it in that queue. -/
theorem orderKept_modQueue (s : State) (q : Nat) (f : Queue → Queue) (h : ∀ k, Ordered k (queue s q).place → Ordered k (f (queue s q)).place) :
    OrderKept (modQueue s q f) s := by
  intro k j ho
  by_cases hj : j = q
  · subst hj; simp only [places, modQueue, SMap.get_modify_same]; exact h k ho
  · simp only [places, modQueue, SMap.get_modify_other _ _ _ _ _ _ hj]; exact ho
theorem ordered_start {k : Nat} {p : Nat × Nat × Nat × Nat} (h : Ordered k p) : Ordered k (0, 0, 0, 0) := by
  simp [Ordered, ahead, h.1]
theorem ahead_eq (m x y : Nat) (hx : x < m) (hy : y < m) : (x + m - y) % m = if y ≤ x then x - y else x + m - y := by
  split
  · rw [show x + m - y = x - y + m by omega, Nat.add_mod_right, Nat.mod_eq_of_lt (by omega)]
  · rw [Nat.mod_eq_of_lt (by omega)]
/-- An index ahead of DONE is one nearer once DONE has advanced. -/
theorem ahead_succ (k d a : Nat) (hk : k ≤ 15) (h : 1 ≤ ahead k d a) : ahead k ((d + 1) % 65536) a = ahead k d a - 1 := by
  have hm : 2 ≤ 2 ^ (k + 1) := by rw [Nat.pow_succ]; have := Nat.one_le_two_pow (n := k); omega
  have hd : (d + 1) % 65536 % 2 ^ (k + 1) = (d % 2 ^ (k + 1) + 1) % 2 ^ (k + 1) := by
    rw [Nat.mod_mod_of_dvd _ (Nat.pow_dvd_pow 2 (show k + 1 ≤ 16 by omega)), Nat.add_mod, Nat.mod_eq_of_lt (show 1 < 2 ^ (k + 1) by omega)]
  unfold ahead at *
  rw [hd]
  generalize 2 ^ (k + 1) = m at *
  have ha := Nat.mod_lt a (show 0 < m by omega)
  have hr := Nat.mod_lt d (show 0 < m by omega)
  generalize a % m = x at *
  generalize d % m = y at *
  rw [ahead_eq m x y ha hr] at h ⊢
  by_cases hy : y + 1 = m
  · rw [hy, Nat.mod_self, ahead_eq m x 0 ha (by omega)]
    split at h <;> simp <;> split <;> omega
  · rw [Nat.mod_eq_of_lt (show y + 1 < m by omega), ahead_eq m x (y + 1) ha (by omega)]
    split at h <;> (repeat' split) <;> omega
/-- DONE passes an entry. -/
theorem ordered_advance {k d f b n : Nat} (h : Ordered k (d, f, b, n + 1)) : Ordered k ((d + 1) % 65536, f, b, n) := by
  obtain ⟨hk, h1, h2, h3⟩ := h
  refine ⟨hk, ?_, ?_, ?_⟩ <;> simp only at h1 h2 h3 ⊢ <;> rw [ahead_succ k d _ hk (by omega)] <;> (try rw [ahead_succ k d _ hk (by omega)]) <;> omega

/-- State t has the queue of commands, the block time, the resets and the port state of s. -/
abbrev KeepsClk (t s : State) : Prop :=
  t.pending = s.pending ∧ t.ao.toClk = s.ao.toClk
/-- State t has these of s, and keeps the order of the indices of every submission queue (R54). -/
abbrev KeepsOrder (t s : State) : Prop :=
  t.pending = s.pending ∧ t.ao.toClk = s.ao.toClk ∧ OrderKept t s
/-- State t has these of s, and every submission queue stands where it stood. -/
abbrev Keeps (t s : State) : Prop :=
  t.pending = s.pending ∧ t.ao.toClk = s.ao.toClk ∧ places t.queues = places s.queues

@[simp] theorem ite_pending (c : Prop) [Decidable c] (a b : State) : (if c then a else b).pending = if c then a.pending else b.pending := apply_ite (fun s : State => s.pending) c a b
@[simp] theorem ite_fst_pending {β : Type} (c : Prop) [Decidable c] (a b : State × β) : (if c then a else b).1.pending = if c then a.1.pending else b.1.pending := apply_ite (fun s : State × β => s.1.pending) c a b
@[simp] theorem foldl_pending {α : Type} (f : State → α → State) (h : ∀ s x, (f s x).pending = s.pending) (l : List α) (s : State) :
    (l.foldl f s).pending = s.pending := by
  induction l generalizing s with
  | nil => rfl
  | cons x l ih => rw [List.foldl_cons, ih, h]
@[simp] theorem foldl_fst_pending {α β : Type} (f : State × β → α → State × β) (h : ∀ s x, (f s x).1.pending = s.1.pending) (l : List α) (s : State × β) :
    (l.foldl f s).1.pending = s.1.pending := by
  induction l generalizing s with
  | nil => rfl
  | cons x l ih => rw [List.foldl_cons, ih, h]
@[simp] theorem ite_clk (c : Prop) [Decidable c] (a b : State) : (if c then a else b).ao.toClk = if c then a.ao.toClk else b.ao.toClk := apply_ite (fun s : State => s.ao.toClk) c a b
@[simp] theorem ite_fst_clk {β : Type} (c : Prop) [Decidable c] (a b : State × β) : (if c then a else b).1.ao.toClk = if c then a.1.ao.toClk else b.1.ao.toClk := apply_ite (fun s : State × β => s.1.ao.toClk) c a b
@[simp] theorem foldl_clk {α : Type} (f : State → α → State) (h : ∀ s x, (f s x).ao.toClk = s.ao.toClk) (l : List α) (s : State) :
    (l.foldl f s).ao.toClk = s.ao.toClk := by
  induction l generalizing s with
  | nil => rfl
  | cons x l ih => rw [List.foldl_cons, ih, h]
@[simp] theorem foldl_fst_clk {α β : Type} (f : State × β → α → State × β) (h : ∀ s x, (f s x).1.ao.toClk = s.1.ao.toClk) (l : List α) (s : State × β) :
    (l.foldl f s).1.ao.toClk = s.1.ao.toClk := by
  induction l generalizing s with
  | nil => rfl
  | cons x l ih => rw [List.foldl_cons, ih, h]
@[simp] theorem ite_places (c : Prop) [Decidable c] (a b : State) : places (if c then a else b).queues = if c then places a.queues else places b.queues := apply_ite (fun s : State => places s.queues) c a b
@[simp] theorem ite_fst_places {β : Type} (c : Prop) [Decidable c] (a b : State × β) : places (if c then a else b).1.queues = if c then places a.1.queues else places b.1.queues := apply_ite (fun s : State × β => places s.1.queues) c a b
@[simp] theorem foldl_places {α : Type} (f : State → α → State) (h : ∀ s x, places (f s x).queues = places s.queues) (l : List α) (s : State) :
    places (l.foldl f s).queues = places s.queues := by
  induction l generalizing s with
  | nil => rfl
  | cons x l ih => rw [List.foldl_cons, ih, h]
@[simp] theorem foldl_fst_places {α β : Type} (f : State × β → α → State × β) (h : ∀ s x, places (f s x).1.queues = places s.1.queues) (l : List α) (s : State × β) :
    places (l.foldl f s).1.queues = places s.1.queues := by
  induction l generalizing s with
  | nil => rfl
  | cons x l ih => rw [List.foldl_cons, ih, h]
theorem keepsOrder_trans {u t s : State} (h : KeepsOrder u t) (h' : KeepsOrder t s) : KeepsOrder u s :=
  ⟨h.1.trans h'.1, h.2.1.trans h'.2.1, orderKept_trans h.2.2 h'.2.2⟩
theorem keeps_order {t s : State} (h : Keeps t s) : KeepsOrder t s := ⟨h.1, h.2.1, orderKept_of h.2.2⟩
theorem keeps_trans {u t s : State} (h : Keeps u t) (h' : Keeps t s) : Keeps u s := ⟨h.1.trans h'.1, h.2.1.trans h'.2.1, h.2.2.trans h'.2.2⟩
theorem keeps_foldl {α : Type} (f : State → α → State) (h : ∀ s x, Keeps (f s x) s) (l : List α) (s : State) : Keeps (l.foldl f s) s := by
  induction l generalizing s with
  | nil => exact ⟨rfl, rfl, rfl⟩
  | cons x l ih => exact keeps_trans (ih (f s x)) (h s x)
theorem keeps_ite (c : Prop) [Decidable c] {a b s : State} (ha : Keeps a s) (hb : Keeps b s) : Keeps (if c then a else b) s := by
  split <;> assumption
@[simp] theorem kept_modAo (s : State) (f : Ao → Ao) : (modAo s f).pending = s.pending ∧ (modAo s f).ao = f s.ao ∧ (modAo s f).queues = s.queues := ⟨rfl, rfl, rfl⟩
@[simp] theorem kept_setOd (s : State) (i sub v : Nat) :
    Keeps (setOd s i sub v) s := by
  unfold setOd; refine ⟨?_, ?_, ?_⟩ <;> (try dsimp only) <;> (repeat' split) <;> simp_all

@[simp] theorem kept_countBy (s : State) (i sub n : Nat) :
    Keeps (countBy s i sub n) s := by
  unfold countBy; refine ⟨?_, ?_, ?_⟩ <;> (try dsimp only) <;> (repeat' split) <;> simp_all

@[simp] theorem kept_count (s : State) (i sub : Nat) :
    Keeps (count s i sub) s := by
  unfold count; refine ⟨?_, ?_, ?_⟩ <;> (try dsimp only) <;> (repeat' split) <;> simp_all

@[simp] theorem kept_setSel (s : State) (req i sub v : Nat) :
    Keeps (setSel s req i sub v) s := by
  unfold setSel; refine ⟨?_, ?_, ?_⟩ <;> (try dsimp only) <;> (repeat' split) <;> simp_all

@[simp] theorem kept_modQueue (s : State) (q : Nat) (f : Queue → Queue) :
    KeepsClk (modQueue s q f) s := ⟨rfl, rfl⟩

@[simp] theorem kept_modRing (s : State) (n : Nat) (f : Ring → Ring) :
    Keeps (modRing s n f) s := by
  unfold modRing; refine ⟨?_, ?_, ?_⟩ <;> (try dsimp only) <;> (repeat' split) <;> simp_all

@[simp] theorem kept_modRegion (s : State) (r : Nat) (f : Region → Region) :
    Keeps (modRegion s r f) s := by
  unfold modRegion; refine ⟨?_, ?_, ?_⟩ <;> (try dsimp only) <;> (repeat' split) <;> simp_all

@[simp] theorem kept_modTv (s : State) (r lun : Nat) (f : Tv → Tv) :
    Keeps (modTv s r lun f) s := by
  unfold modTv; refine ⟨?_, ?_, ?_⟩ <;> (try dsimp only) <;> (repeat' split) <;> simp_all

@[simp] theorem kept_modKey (s : State) (k : Nat) (f : KeySlot → KeySlot) :
    Keeps (modKey s k f) s := by
  unfold modKey; refine ⟨?_, ?_, ?_⟩ <;> (try dsimp only) <;> (repeat' split) <;> simp_all

@[simp] theorem kept_modRidge (s : State) (r : Nat) (f : Ridge → Ridge) :
    Keeps (modRidge s r f) s := by
  unfold modRidge; refine ⟨?_, ?_, ?_⟩ <;> (try dsimp only) <;> (repeat' split) <;> simp_all

@[simp] theorem kept_modSpur (s : State) (p : Nat) (f : Spur → Spur) :
    Keeps (modSpur s p f) s := by
  unfold modSpur; refine ⟨?_, ?_, ?_⟩ <;> (try dsimp only) <;> (repeat' split) <;> simp_all

@[simp] theorem kept_modSpare (s : State) (g : Nat) (f : Spare → Spare) :
    Keeps (modSpare s g f) s := by
  unfold modSpare; refine ⟨?_, ?_, ?_⟩ <;> (try dsimp only) <;> (repeat' split) <;> simp_all

@[simp] theorem kept_modChan (s : State) (c : Nat) (f : Chan → Chan) :
    Keeps (modChan s c f) s := by
  unfold modChan; refine ⟨?_, ?_, ?_⟩ <;> (try dsimp only) <;> (repeat' split) <;> simp_all

@[simp] theorem kept_modLun (s : State) (l : Nat) (f : Lun → Lun) :
    Keeps (modLun s l f) s := by
  unfold modLun; refine ⟨?_, ?_, ?_⟩ <;> (try dsimp only) <;> (repeat' split) <;> simp_all

@[simp] theorem kept_modCorn (s : State) (e : Nat) (f : Corn → Corn) :
    Keeps (modCorn s e f) s := by
  unfold modCorn; refine ⟨?_, ?_, ?_⟩ <;> (try dsimp only) <;> (repeat' split) <;> simp_all

@[simp] theorem kept_modUnit (s : State) (u : Nat) (f : Led → Led) :
    Keeps (modUnit s u f) s := by
  unfold modUnit; refine ⟨?_, ?_, ?_⟩ <;> (try dsimp only) <;> (repeat' split) <;> simp_all

@[simp] theorem kept_modDec (s : State) (d : Nat) (f : DecIsland → DecIsland) :
    Keeps (modDec s d f) s := by
  unfold modDec; refine ⟨?_, ?_, ?_⟩ <;> (try dsimp only) <;> (repeat' split) <;> simp_all

@[simp] theorem kept_modLink (s : State) (l : Nat) (f : Link → Link) :
    Keeps (modLink s l f) s := by
  unfold modLink; refine ⟨?_, ?_, ?_⟩ <;> (try dsimp only) <;> (repeat' split) <;> simp_all

@[simp] theorem kept_modCtx (s : State) (p c : Nat) (f : Ctx → Ctx) :
    Keeps (modCtx s p c f) s := by
  unfold modCtx; refine ⟨?_, ?_, ?_⟩ <;> (try dsimp only) <;> (repeat' split) <;> simp_all

@[simp] theorem kept_modPort (s : State) (p k : Nat) (f : Port → Port) :
    Keeps (modPort s p k f) s := by
  unfold modPort; refine ⟨?_, ?_, ?_⟩ <;> (try dsimp only) <;> (repeat' split) <;> simp_all

@[simp] theorem kept_emit (s : State) (o : PortOut) :
    Keeps (emit s o) s := by
  unfold emit; refine ⟨?_, ?_, ?_⟩ <;> (try dsimp only) <;> (repeat' split) <;> simp_all

@[simp] theorem kept_dieReport (s : State) : Keeps (dieReport s).2 s := ⟨rfl, rfl, rfl⟩

@[simp] theorem kept_pick (s : State) :
    Keeps (pick s).2 s := by
  unfold pick; refine ⟨?_, ?_, ?_⟩ <;> (try dsimp only) <;> (repeat' split) <;> simp_all

@[simp] theorem kept_modEnt (s : State) (q i : Nat) (f : Ent → Ent) :
    Keeps (modEnt s q i f) s := by
  unfold modEnt; refine ⟨?_, ?_, ?_⟩ <;> (try dsimp only) <;> (repeat' split) <;> simp_all

@[simp] theorem kept_fabIssueAt (s : State) (cls : Nat) (write : Bool) (addr len : Nat) (data : List W512) (p : Purpose) :
    Keeps (fabIssueAt s cls write addr len data p) s := by
  unfold fabIssueAt; refine ⟨?_, ?_, ?_⟩ <;> (try dsimp only) <;> (repeat' split) <;> simp_all

@[simp] theorem kept_fabIssue (s : State) (write : Bool) (addr len : Nat) (data : List W512) (p : Purpose) :
    Keeps (fabIssue s write addr len data p) s := by
  unfold fabIssue; refine ⟨?_, ?_, ?_⟩ <;> (try dsimp only) <;> (repeat' split) <;> simp_all

@[simp] theorem kept_fabSmall (s : State) (addr len v : Nat) (p : Purpose) :
    Keeps (fabSmall s addr len v p) s := by
  unfold fabSmall; refine ⟨?_, ?_, ?_⟩ <;> (try dsimp only) <;> (repeat' split) <;> simp_all

@[simp] theorem kept_orphan (s : State) (f : Purpose → Bool) :
    Keeps (orphan s f) s := by
  unfold orphan; refine ⟨?_, ?_, ?_⟩ <;> (try dsimp only) <;> (repeat' split) <;> simp_all

@[simp] theorem kept_fabDrain (s : State) :
    Keeps (fabDrain s) s := by
  unfold fabDrain; refine ⟨?_, ?_, ?_⟩ <;> (try dsimp only) <;> (repeat' split) <;> simp_all

@[simp] theorem kept_fabTake (s : State) (r : FabReq) (err : Bool) :
    Keeps (fabTake s r err) s := by
  unfold fabTake; refine ⟨?_, ?_, ?_⟩ <;> (try dsimp only) <;> (repeat' split) <;> simp_all

@[simp] theorem kept_lateTag (s : State) :
    Keeps (lateTag s) s := by
  unfold lateTag; refine ⟨?_, ?_, ?_⟩ <;> (try dsimp only) <;> (repeat' split) <;> simp_all

@[simp] theorem kept_cairn (s : State) (code unit region detail : Nat) (fpa : W64) (arg0 arg1 arg2 : Nat) :
    Keeps (cairn s code unit region detail fpa arg0 arg1 arg2) s := by
  unfold cairn; refine ⟨?_, ?_, ?_⟩ <;> (try dsimp only) <;> (repeat' split) <;> simp_all

@[simp] theorem kept_cairnLoud (s : State) (code unit region detail : Nat) (fpa : W64) (arg0 arg1 arg2 : Nat) :
    Keeps (cairnLoud s code unit region detail fpa arg0 arg1 arg2) s := by
  unfold cairnLoud; refine ⟨?_, ?_, ?_⟩ <;> (try dsimp only) <;> (repeat' split) <;> simp_all

@[simp] theorem kept_postAuto (s : State) (n : Nat) (x : Notice) :
    Keeps (postAuto s n x) s := by
  unfold postAuto; refine ⟨?_, ?_, ?_⟩ <;> (try dsimp only) <;> (repeat' split) <;> simp_all

@[simp] theorem kept_regionNotice (s : State) (r code detail extra : Nat) (fpa : W64) :
    Keeps (regionNotice s r code detail extra fpa) s := by
  unfold regionNotice; refine ⟨?_, ?_, ?_⟩ <;> (try dsimp only) <;> (repeat' split) <;> simp_all

@[simp] theorem kept_blockNotice (s : State) (code detail extra : Nat) :
    Keeps (blockNotice s code detail extra) s := by
  unfold blockNotice; refine ⟨?_, ?_, ?_⟩ <;> (try dsimp only) <;> (repeat' split) <;> simp_all

@[simp] theorem kept_queueNotice (s : State) (q code detail extra : Nat) :
    Keeps (queueNotice s q code detail extra) s := by
  unfold queueNotice; refine ⟨?_, ?_, ?_⟩ <;> (try dsimp only) <;> (repeat' split) <;> simp_all

@[simp] theorem kept_ringGive (s : State) (n : Nat) :
    Keeps (ringGive s n) s := by
  unfold ringGive; refine ⟨?_, ?_, ?_⟩ <;> (try dsimp only) <;> (repeat' split) <;> simp_all

@[simp] theorem kept_ringGiveAll (s : State) (n : Nat) (k : Nat) :
    Keeps (ringGiveAll s n k) s := by
  induction k generalizing s with
  | zero => exact ⟨rfl, rfl, rfl⟩
  | succ k ih =>
    unfold ringGiveAll
    refine ⟨?_, ?_, ?_⟩ <;> (try dsimp only) <;> (repeat' split) <;> simp_all

@[simp] theorem kept_readyChange (s : State) (kind n : Nat) (ready : Bool) (cause : Nat) :
    Keeps (readyChange s kind n ready cause) s := by
  unfold readyChange; refine ⟨?_, ?_, ?_⟩ <;> (try dsimp only) <;> (repeat' split) <;> simp_all

@[simp] theorem kept_notePeak (s : State) (d : Nat) :
    Keeps (notePeak s d) s := by
  unfold notePeak; refine ⟨?_, ?_, ?_⟩ <;> (try dsimp only) <;> (repeat' split) <;> simp_all

@[simp] theorem kept_peakDemand (s : State) :
    Keeps (peakDemand s) s := by
  unfold peakDemand; refine ⟨?_, ?_, ?_⟩ <;> (try dsimp only) <;> (repeat' split) <;> simp_all

@[simp] theorem kept_railNotice (s : State) (event extra : Nat) :
    Keeps (railNotice s event extra) s := by
  unfold railNotice; refine ⟨?_, ?_, ?_⟩ <;> (try dsimp only) <;> (repeat' split) <;> simp_all

@[simp] theorem kept_deny (s : State) :
    Keeps (deny s) s := by
  unfold deny; refine ⟨?_, ?_, ?_⟩ <;> (try dsimp only) <;> (repeat' split) <;> simp_all

@[simp] theorem kept_spend (s : State) (c : Nat) :
    Keeps (spend s c) s := by
  unfold spend; refine ⟨?_, ?_, ?_⟩ <;> (try dsimp only) <;> (repeat' split) <;> simp_all

@[simp] theorem kept_addUser (s : State) (k g : Nat) :
    Keeps (addUser s k g) s := by
  unfold addUser; refine ⟨?_, ?_, ?_⟩ <;> (try dsimp only) <;> (repeat' split) <;> simp_all

@[simp] theorem kept_keyNotice (s : State) (k event cause : Nat) :
    Keeps (keyNotice s k event cause) s := by
  unfold keyNotice; refine ⟨?_, ?_, ?_⟩ <;> (try dsimp only) <;> (repeat' split) <;> simp_all

@[simp] theorem kept_dropUser (s : State) (k g : Nat) :
    Keeps (dropUser s k g) s := by
  unfold dropUser; refine ⟨?_, ?_, ?_⟩ <;> (try dsimp only) <;> (repeat' split) <;> simp_all

@[simp] theorem kept_askKey (s : State) (rg : Nat) (key : Option (Nat × Nat)) :
    Keeps (askKey s rg key) s := by
  unfold askKey; refine ⟨?_, ?_, ?_⟩ <;> (try dsimp only) <;> (repeat' split) <;> simp_all

/-! ### Scree -/

@[simp] theorem kept_modScree (s : State) (p k : Nat) (f : Scree → Scree) :
    Keeps (modScree s p k f) s := by
  unfold modScree; refine ⟨?_, ?_, ?_⟩ <;> (try dsimp only) <;> (repeat' split) <;> simp_all

@[simp] theorem kept_readBodies (s : State) (p k n : Nat) :
    Keeps (readBodies s p k n) s := by
  unfold readBodies; refine ⟨?_, ?_, ?_⟩ <;> (try dsimp only) <;> (repeat' split) <;> simp_all

@[simp] theorem kept_takePlaces (s : State) :
    Keeps (takePlaces s) s := by
  unfold takePlaces; refine ⟨?_, ?_, ?_⟩ <;> (try dsimp only) <;> (repeat' split) <;> simp_all

@[simp] theorem kept_holdAs (s : State) (n : Nat) (cause : HoldCause) (d : Desc) :
    Keeps (holdAs s n cause d) s := by
  unfold holdAs; refine ⟨?_, ?_, ?_⟩ <;> (try dsimp only) <;> (repeat' split) <;> simp_all

@[simp] theorem kept_hold (s : State) (cause : HoldCause) (d : Desc) :
    Keeps (hold s cause d) s := by
  unfold hold; refine ⟨?_, ?_, ?_⟩ <;> (try dsimp only) <;> (repeat' split) <;> simp_all

@[simp] theorem kept_unhold (s : State) (id : Nat) :
    Keeps (unhold s id) s := by
  unfold unhold; refine ⟨?_, ?_, ?_⟩ <;> (try dsimp only) <;> (repeat' split) <;> simp_all

@[simp] theorem kept_rehold (s : State) (id : Nat) (cause : HoldCause) :
    Keeps (rehold s id cause) s := by
  unfold rehold; refine ⟨?_, ?_, ?_⟩ <;> (try dsimp only) <;> (repeat' split) <;> simp_all

@[simp] theorem kept_pushDesc (s : State) (d : Desc) :
    Keeps (pushDesc s d) s := by
  unfold pushDesc; refine ⟨?_, ?_, ?_⟩ <;> (try dsimp only) <;> (repeat' split) <;> simp_all

@[simp] theorem kept_pushHeld (s : State) (h : Held) :
    Keeps (pushHeld s h) s := by
  unfold pushHeld; refine ⟨?_, ?_, ?_⟩ <;> (try dsimp only) <;> (repeat' split) <;> simp_all

@[simp] theorem kept_pushAll (s : State) (l : List Desc) :
    Keeps (pushAll s l) s := by
  unfold pushAll; refine ⟨?_, ?_, ?_⟩ <;> (try dsimp only) <;> (repeat' split) <;> simp_all

@[simp] theorem kept_screeDrain (s : State) (p k : Nat) :
    Keeps (screeDrain s p k) s := by
  unfold screeDrain; refine ⟨?_, ?_, ?_⟩ <;> (try dsimp only) <;> (repeat' split) <;> simp_all

@[simp] theorem kept_holdSpur (s : State) (p : Nat) :
    Keeps (holdSpur s p) s := by
  unfold holdSpur; refine ⟨?_, ?_, ?_⟩ <;> (try dsimp only) <;> (repeat' split) <;> simp_all

@[simp] theorem kept_flushRefresh (s : State) (r : Nat) :
    Keeps (flushRefresh s r) s := by
  unfold flushRefresh; refine ⟨?_, ?_, ?_⟩ <;> (try dsimp only) <;> (repeat' split) <;> simp_all

@[simp] theorem kept_scrubAdvance (s : State) (r : Nat) :
    Keeps (scrubAdvance s r) s := by
  unfold scrubAdvance; refine ⟨?_, ?_, ?_⟩ <;> (try dsimp only) <;> (repeat' split) <;> simp_all

@[simp] theorem kept_scrubStep (s : State) (r : Nat) :
    Keeps (scrubStep s r) s := by
  unfold scrubStep; refine ⟨?_, ?_, ?_⟩ <;> (try dsimp only) <;> (repeat' split) <;> simp_all

@[simp] theorem kept_scrubDone (s : State) (r : Nat) :
    Keeps (scrubDone s r) s := by
  unfold scrubDone; refine ⟨?_, ?_, ?_⟩ <;> (try dsimp only) <;> (repeat' split) <;> simp_all

@[simp] theorem kept_scrubTimeout (s : State) (r : Nat) :
    Keeps (scrubTimeout s r) s := by
  unfold scrubTimeout; refine ⟨?_, ?_, ?_⟩ <;> (try dsimp only) <;> (repeat' split) <;> simp_all

@[simp] theorem kept_finalise (s : State) (q i : Nat) (st : Status) (fpa : W64) :
    Keeps (finalise s q i st fpa) s := by
  unfold finalise; refine ⟨?_, ?_, ?_⟩ <;> (try dsimp only) <;> (repeat' split) <;> simp_all

@[simp] theorem kept_settle (s : State) (q i : Nat) :
    Keeps (settle s q i) s := by
  unfold settle; refine ⟨?_, ?_, ?_⟩ <;> (try dsimp only) <;> (repeat' split) <;> simp_all

@[simp] theorem kept_mergeStatus (s : State) (q i : Nat) (st : Status) (fpa : W64) (line : Nat) :
    Keeps (mergeStatus s q i st fpa line) s := by
  unfold mergeStatus; refine ⟨?_, ?_, ?_⟩ <;> (try dsimp only) <;> (repeat' split) <;> simp_all

@[simp] theorem kept_report (s : State) (q i : Nat) (st : Status) (fpa : W64) (line : Nat) :
    Keeps (report s q i st fpa line) s := by
  unfold report; refine ⟨?_, ?_, ?_⟩ <;> (try dsimp only) <;> (repeat' split) <;> simp_all

@[simp] theorem kept_reportDesc (s : State) (d : Desc) (st : Status) :
    Keeps (reportDesc s d st) s := by
  unfold reportDesc; refine ⟨?_, ?_, ?_⟩ <;> (try dsimp only) <;> (repeat' split) <;> simp_all

@[simp] theorem kept_dataFail (s : State) (q i addr : Nat) :
    Keeps (dataFail s q i addr) s := by
  unfold dataFail; refine ⟨?_, ?_, ?_⟩ <;> (try dsimp only) <;> (repeat' split) <;> simp_all

/-! ### Queues -/

@[simp] theorem kept_setQerr (s : State) (q bit : Nat) :
    Keeps (setQerr s q bit) s := by
  unfold setQerr; refine ⟨?_, ?_, ?_⟩ <;> (try dsimp only) <;> (repeat' split) <;> simp_all

@[simp] theorem kept_haltQueue (s : State) (q cause addr : Nat) :
    Keeps (haltQueue s q cause addr) s := by
  unfold haltQueue; refine ⟨?_, ?_, ?_⟩ <;> (try dsimp only) <;> (repeat' split) <;> simp_all

@[simp] theorem kept_evalWatermark (s : State) (q : Nat) :
    Keeps (evalWatermark s q) s := by
  unfold evalWatermark; refine ⟨?_, ?_, ?_⟩ <;> (try dsimp only) <;> (repeat' split) <;> simp_all

@[simp] theorem kept_ringDoorbell (s : State) (q v : Nat) :
    KeepsClk (ringDoorbell s q v) s := by
  unfold ringDoorbell; refine ⟨?_, ?_⟩ <;> (try dsimp only) <;> (repeat' split) <;> simp_all

@[simp] theorem kept_writeDone (s : State) (q v : Nat) :
    Keeps (writeDone s q v) s := by
  unfold writeDone; refine ⟨?_, ?_, ?_⟩ <;> (try dsimp only) <;> (repeat' split) <;> simp_all

@[simp] theorem kept_enableQueue (s : State) (q : Nat) :
    KeepsClk (enableQueue s q) s := by
  unfold enableQueue; refine ⟨?_, ?_⟩ <;> (try dsimp only) <;> (repeat' split) <;> simp_all

@[simp] theorem kept_disableQueue (s : State) (q : Nat) :
    Keeps (disableQueue s q) s := by
  unfold disableQueue; refine ⟨?_, ?_, ?_⟩ <;> (try dsimp only) <;> (repeat' split) <;> simp_all

@[simp] theorem kept_offQueue (s : State) (q : Nat) :
    KeepsClk (offQueue s q) s := by
  unfold offQueue; refine ⟨?_, ?_⟩ <;> (try dsimp only) <;> (repeat' split) <;> simp_all

theorem order_enableQueue (s : State) (q : Nat) : OrderKept (enableQueue s q) s := by
  have h0 : OrderKept (modQueue s q (fun _ => { state := .running })) s := orderKept_modQueue _ _ _ (fun k h => ordered_start h)
  unfold enableQueue
  dsimp only
  split
  · exact orderKept_of rfl
  · exact orderKept_of (by simp)
  · exact orderKept_of (by simp)
  · split
    · exact orderKept_of (by simp)
    · split
      · exact h0
      · exact orderKept_trans (orderKept_of (by simp)) h0
theorem kept_switchQueue (s : State) (q v : Nat) : KeepsOrder (switchQueue s q v) s := by
  unfold switchQueue
  split
  · exact ⟨(kept_enableQueue s q).1, (kept_enableQueue s q).2, order_enableQueue s q⟩
  · exact keeps_order (kept_disableQueue s q)
theorem order_offQueue (s : State) (q : Nat) : OrderKept (offQueue s q) s := by
  unfold offQueue
  dsimp only
  split
  · refine orderKept_trans (orderKept_of (by simp)) (t := modQueue (orphan s (Purpose.ofQueue q)) q (fun x =>
      { ({} : Queue) with refusal := x.refusal, doorbell := x.doorbell, fetch := x.fetch, done := x.done })) ?_
    exact orderKept_trans (orderKept_modQueue _ _ _ (fun k h => ⟨h.1, Nat.zero_le _, h.2.2⟩)) (orderKept_of rfl)
  · exact orderKept_of rfl

/-! ### Retire -/

@[simp] theorem kept_enableRing (s : State) (n : Nat) :
    Keeps (enableRing s n) s := by
  unfold enableRing; refine ⟨?_, ?_, ?_⟩ <;> (try dsimp only) <;> (repeat' split) <;> simp_all

@[simp] theorem kept_disableRing (s : State) (n : Nat) :
    Keeps (disableRing s n) s := by
  unfold disableRing; refine ⟨?_, ?_, ?_⟩ <;> (try dsimp only) <;> (repeat' split) <;> simp_all

@[simp] theorem kept_ringFault (s : State) (n addr : Nat) :
    Keeps (ringFault s n addr) s := by
  unfold ringFault; refine ⟨?_, ?_, ?_⟩ <;> (try dsimp only) <;> (repeat' split) <;> simp_all

@[simp] theorem kept_messageDue (s : State) (n : Nat) :
    Keeps (messageDue s n) s := by
  unfold messageDue; refine ⟨?_, ?_, ?_⟩ <;> (try dsimp only) <;> (repeat' split) <;> simp_all

@[simp] theorem kept_tailDue (s : State) (n : Nat) :
    Keeps (tailDue s n) s := by
  unfold tailDue; refine ⟨?_, ?_, ?_⟩ <;> (try dsimp only) <;> (repeat' split) <;> simp_all

@[simp] theorem kept_ringRetire (s : State) (n : Nat) :
    Keeps (ringRetire s n) s := by
  unfold ringRetire; refine ⟨?_, ?_, ?_⟩ <;> (try dsimp only) <;> (repeat' split) <;> simp_all

@[simp] theorem kept_recordAnswer (s : State) (q : FabReq) (n k : Nat) (err : Bool) :
    Keeps (recordAnswer s q n k err) s := by
  unfold recordAnswer; refine ⟨?_, ?_, ?_⟩ <;> (try dsimp only) <;> (repeat' split) <;> simp_all

@[simp] theorem kept_tailAnswer (s : State) (q : FabReq) (n : Nat) (err : Bool) :
    Keeps (tailAnswer s q n err) s := by
  unfold tailAnswer; refine ⟨?_, ?_, ?_⟩ <;> (try dsimp only) <;> (repeat' split) <;> simp_all

@[simp] theorem kept_messageAnswer (s : State) (q : FabReq) (n : Nat) (err : Bool) :
    Keeps (messageAnswer s q n err) s := by
  unfold messageAnswer; refine ⟨?_, ?_, ?_⟩ <;> (try dsimp only) <;> (repeat' split) <;> simp_all

@[simp] theorem kept_headAnswer (s : State) (q : FabReq) (n : Nat) (err : Bool) (v : W64) :
    Keeps (headAnswer s q n err v) s := by
  unfold headAnswer; refine ⟨?_, ?_, ?_⟩ <;> (try dsimp only) <;> (repeat' split) <;> simp_all

@[simp] theorem kept_writeStatus (s : State) (q : Nat) (e : Ent) (st : Status) :
    Keeps (writeStatus s q e st) s := by
  unfold writeStatus; refine ⟨?_, ?_, ?_⟩ <;> (try dsimp only) <;> (repeat' split) <;> simp_all

@[simp] theorem kept_noticeStall (s : State) (q : Nat) :
    Keeps (noticeStall s q) s := by
  unfold noticeStall; refine ⟨?_, ?_, ?_⟩ <;> (try dsimp only) <;> (repeat' split) <;> simp_all

@[simp] theorem kept_postCompletion (s : State) (q : Nat) (e : Ent) (st : Status) (fpa : W64) :
    Keeps (postCompletion s q e st fpa) s := by
  unfold postCompletion; refine ⟨?_, ?_, ?_⟩ <;> (try dsimp only) <;> (repeat' split) <;> simp_all

@[simp] theorem kept_advanceDone (s : State) (q : Nat) (k : Nat) :
    KeepsClk (advanceDone s q k) s := by
  induction k generalizing s with
  | zero => exact ⟨rfl, rfl⟩
  | succ k ih =>
    unfold advanceDone
    refine ⟨?_, ?_⟩ <;> (try dsimp only) <;> (repeat' split) <;> simp_all

theorem order_advanceDone (s : State) (q : Nat) (k : Nat) : OrderKept (advanceDone s q k) s := by
  induction k generalizing s with
  | zero => exact orderKept_of rfl
  | succ k ih =>
    unfold advanceDone
    split
    · next e rest he =>
      split
      · split
        · refine orderKept_trans (ih _) (orderKept_trans (orderKept_of (s := modQueue s q (fun x =>
            { x with ents := rest, done := (x.done + 1) % 65536 })) (by simp)) (orderKept_modQueue _ _ _ (fun k h => ?_)))
          simp only [Queue.place, he, List.length_cons] at h ⊢
          exact ordered_advance h
        · exact orderKept_of rfl
      · exact orderKept_of rfl
    · exact orderKept_of rfl

@[simp] theorem kept_publish (s : State) (q : Nat) :
    Keeps (publish s q) s := by
  unfold publish; refine ⟨?_, ?_, ?_⟩ <;> (try dsimp only) <;> (repeat' split) <;> simp_all

@[simp] theorem kept_publishMany (s : State) (q : Nat) :
    Keeps (publishMany s q) s := by
  unfold publishMany; refine ⟨?_, ?_, ?_⟩ <;> (try dsimp only) <;> (repeat' split) <;> simp_all

@[simp] theorem kept_releasePlaces (s : State) (q k : Nat) :
    Keeps (releasePlaces s q k) s := by
  unfold releasePlaces; refine ⟨?_, ?_, ?_⟩ <;> (try dsimp only) <;> (repeat' split) <;> simp_all

@[simp] theorem kept_freezeQueue (s : State) (q k addr : Nat) :
    Keeps (freezeQueue s q k addr) s := by
  unfold freezeQueue; refine ⟨?_, ?_, ?_⟩ <;> (try dsimp only) <;> (repeat' split) <;> simp_all

@[simp] theorem kept_statusAnswer (s : State) (r : FabReq) (q i : Nat) (err : Bool) :
    KeepsClk (statusAnswer s r q i err) s := by
  unfold statusAnswer; refine ⟨?_, ?_⟩ <;> (try dsimp only) <;> (repeat' split) <;> simp_all

theorem order_statusAnswer (s : State) (r : FabReq) (q i : Nat) (err : Bool) : OrderKept (statusAnswer s r q i err) s := by
  unfold statusAnswer
  dsimp only
  split
  · exact orderKept_of (by simp)
  · split
    · exact orderKept_of (by simp)
    · split
      · exact orderKept_of (by simp)
      · exact orderKept_trans (orderKept_of (kept_publishMany _ _).2.2) (orderKept_trans (order_advanceDone _ _ _) (orderKept_of (by simp)))

@[simp] theorem kept_doneAnswer (s : State) (r : FabReq) (q : Nat) (err : Bool) :
    Keeps (doneAnswer s r q err) s := by
  unfold doneAnswer; refine ⟨?_, ?_, ?_⟩ <;> (try dsimp only) <;> (repeat' split) <;> simp_all

/-! ### ColOps -/

@[simp] theorem kept_emitFrame (s : State) (l : Nat) (f : TxFrame) :
    Keeps (emitFrame s l f) s := by
  unfold emitFrame; refine ⟨?_, ?_, ?_⟩ <;> (try dsimp only) <;> (repeat' split) <;> simp_all

@[simp] theorem kept_linkIssue (s : State) (l : Nat) (k : Nat) :
    Keeps (linkIssue s l k) s := by
  induction k generalizing s with
  | zero => exact ⟨rfl, rfl, rfl⟩
  | succ k ih =>
    unfold linkIssue
    refine ⟨?_, ?_, ?_⟩ <;> (try dsimp only) <;> (repeat' split) <;> simp_all

@[simp] theorem kept_sendServed (s : State) (l : Nat) (h : Flit) (rest : List (Nat × Flit)) (reg : Nat) (serve : Option (Desc × Status)) :
    Keeps (sendServed s l h rest reg serve) s := by
  unfold sendServed; refine ⟨?_, ?_, ?_⟩ <;> (try dsimp only) <;> (repeat' split) <;> simp_all

@[simp] theorem kept_sendFrame (s : State) (l : Nat) (h : Flit) (rest : List (Nat × Flit)) (reg : Nat) :
    Keeps (sendFrame s l h rest reg) s := by
  unfold sendFrame; refine ⟨?_, ?_, ?_⟩ <;> (try dsimp only) <;> (repeat' split) <;> simp_all

@[simp] theorem kept_sendAck (s : State) (l : Nat) (nakSeq nakHops nakCause : Nat) (retry : Bool) :
    Keeps (sendAck s l nakSeq nakHops nakCause retry) s := by
  unfold sendAck
  dsimp only
  split
  · exact kept_emit _ _
  · exact ⟨rfl, rfl, rfl⟩

@[simp] theorem kept_sendOwned (s : State) (r : Nat) (h : Flit) (rest : List (Nat × Flit)) (serve : Option (Desc × Status)) :
    Keeps (sendOwned s r h rest serve) s := by
  unfold sendOwned; refine ⟨?_, ?_, ?_⟩ <;> (try dsimp only) <;> (repeat' split) <;> simp_all

@[simp] theorem kept_sendOwn (s : State) (r kind : Nat) (fpa : W64) (h : BitVec 32) (b20 : Nat) (more : Flit) (rest : List (Nat × Flit)) :
    Keeps (sendOwn s r kind fpa h b20 more rest) s := by
  unfold sendOwn; refine ⟨?_, ?_, ?_⟩ <;> (try dsimp only) <;> (repeat' split) <;> simp_all

@[simp] theorem kept_sendDown (s : State) (r kind : Nat) (fpa : W64) (h : BitVec 32) (b20 : Nat) (more : Flit) (rest : List (Nat × Flit)) :
    Keeps (sendDown s r kind fpa h b20 more rest) s := by
  unfold sendDown; refine ⟨?_, ?_, ?_⟩ <;> (try dsimp only) <;> (repeat' split) <;> simp_all

@[simp] theorem kept_sendTimed (s : State) (r kind : Nat) (fpa : W64) (h : BitVec 32) (b20 : Nat) (more : Flit) (rest : List (Nat × Flit))     (q idx u : Nat) :
    Keeps (sendTimed s r kind fpa h b20 more rest q idx u) s := by
  unfold sendTimed; refine ⟨?_, ?_, ?_⟩ <;> (try dsimp only) <;> (repeat' split) <;> simp_all

@[simp] theorem kept_degradedWrite (s : State) (r q idx : Nat) (fpa : W64) :
    Keeps (degradedWrite s r q idx fpa) s := by
  unfold degradedWrite; refine ⟨?_, ?_, ?_⟩ <;> (try dsimp only) <;> (repeat' split) <;> simp_all

@[simp] theorem kept_mirrorNotice (s : State) (r l pos cause : Nat) :
    Keeps (mirrorNotice s r l pos cause) s := by
  unfold mirrorNotice; refine ⟨?_, ?_, ?_⟩ <;> (try dsimp only) <;> (repeat' split) <;> simp_all

@[simp] theorem kept_ackOn (s : State) (l nakSeq nakHops nakCause : Nat) (retry : Bool) :
    Keeps (ackOn s l nakSeq nakHops nakCause retry) s := by
  unfold ackOn; refine ⟨?_, ?_, ?_⟩ <;> (try dsimp only) <;> (repeat' split) <;> simp_all

@[simp] theorem kept_nowHeld (s : State) (l : Nat) (qs : List Nat) :
    Keeps (nowHeld s l qs) s := by
  unfold nowHeld; refine ⟨?_, ?_, ?_⟩ <;> (try dsimp only) <;> (repeat' split) <;> simp_all

@[simp] theorem kept_forwardOne (s : State) (l : Nat) (e : LaterFrame) :
    Keeps (forwardOne s l e) s := by
  unfold forwardOne; refine ⟨?_, ?_, ?_⟩ <;> (try dsimp only) <;> (repeat' split) <;> simp_all

@[simp] theorem kept_forwardSome (l k : Nat) (s : State) :
    Keeps (forwardSome s l k) s := by
  induction k generalizing s with
  | zero => exact ⟨rfl, rfl, rfl⟩
  | succ k ih =>
    unfold forwardSome
    split
    · exact keeps_ite _ ⟨rfl, rfl, rfl⟩ (keeps_trans (ih _) ⟨by simp, by simp, by simp⟩)
    · exact ⟨rfl, rfl, rfl⟩

@[simp] theorem kept_forwardLater (s : State) (l : Nat) :
    Keeps (forwardLater s l) s := by
  unfold forwardLater; refine ⟨?_, ?_, ?_⟩ <;> (try dsimp only) <;> (repeat' split) <;> simp_all

@[simp] theorem kept_refuseLater (s : State) (l seq : Nat) :
    Keeps (refuseLater s l seq) s := by
  unfold refuseLater; refine ⟨?_, ?_, ?_⟩ <;> (try dsimp only) <;> (repeat' split) <;> simp_all

@[simp] theorem kept_repairNotice (s : State) (r event requester extra : Nat) (fpa : W64) (l id : Nat) :
    Keeps (repairNotice s r event requester extra fpa l id) s := by
  unfold repairNotice; refine ⟨?_, ?_, ?_⟩ <;> (try dsimp only) <;> (repeat' split) <;> simp_all

@[simp] theorem kept_sendRepairReq (s : State) (r : Nat) (fpa : W64) (id : BitVec 32) (up down : Bool) :
    Keeps (sendRepairReq s r fpa id up down) s := by
  unfold sendRepairReq; refine ⟨?_, ?_, ?_⟩ <;> (try dsimp only) <;> (repeat' split) <;> simp_all

@[simp] theorem kept_requestRepair (s : State) (r : Nat) (f : W64) :
    Keeps (requestRepair s r f) s := by
  unfold requestRepair; refine ⟨?_, ?_, ?_⟩ <;> (try dsimp only) <;> (repeat' split) <;> simp_all

/-! ### Ledge -/

@[simp] theorem kept_openUnit (s : State) (u : Nat) (kind : UKind) (region : Nat) (f : W64) (planesM1 : Nat) (reserved : Bool) :
    Keeps (openUnit s u kind region f planesM1 reserved) s := by
  unfold openUnit; refine ⟨?_, ?_, ?_⟩ <;> (try dsimp only) <;> (repeat' split) <;> simp_all

@[simp] theorem kept_freeUnit (s : State) (u : Nat) :
    Keeps (freeUnit s u) s := by
  unfold freeUnit; refine ⟨?_, ?_, ?_⟩ <;> (try dsimp only) <;> (repeat' split) <;> simp_all

@[simp] theorem kept_dropReservation (s : State) (u : Nat) :
    Keeps (dropReservation s u) s := by
  unfold dropReservation; refine ⟨?_, ?_, ?_⟩ <;> (try dsimp only) <;> (repeat' split) <;> simp_all

@[simp] theorem kept_setCharge (s : State) (u : Nat) (c : Charge) :
    Keeps (setCharge s u c) s := by
  unfold setCharge; refine ⟨?_, ?_, ?_⟩ <;> (try dsimp only) <;> (repeat' split) <;> simp_all

@[simp] theorem kept_toDone (s : State) (u : Nat) :
    Keeps (toDone s u) s := by
  unfold toDone; refine ⟨?_, ?_, ?_⟩ <;> (try dsimp only) <;> (repeat' split) <;> simp_all

@[simp] theorem kept_gcmStart (s : State) (r : Nat) :
    Keeps (gcmStart s r) s := by
  unfold gcmStart; refine ⟨?_, ?_, ?_⟩ <;> (try dsimp only) <;> (repeat' split) <;> simp_all

@[simp] theorem kept_gcmAdd (s : State) (r : Nat) (j : GcmJob) :
    Keeps (gcmAdd s r j) s := by
  unfold gcmAdd; refine ⟨?_, ?_, ?_⟩ <;> (try dsimp only) <;> (repeat' split) <;> simp_all

@[simp] theorem kept_fillHole (u : Nat) (s : State) (h : Nat × Nat) :
    Keeps (fillHole u s h) s := by
  unfold fillHole; refine ⟨?_, ?_, ?_⟩ <;> (try dsimp only) <;> (repeat' split) <;> simp_all

@[simp] theorem kept_noteComplete (s : State) (u : Nat) :
    Keeps (noteComplete s u) s := by
  unfold noteComplete; refine ⟨?_, ?_, ?_⟩ <;> (try dsimp only) <;> (repeat' split) <;> simp_all

@[simp] theorem kept_fillSome (s : State) (u : Nat) (p : Nat × Nat → Bool) :
    Keeps (fillSome s u p) s := by
  unfold fillSome; refine ⟨?_, ?_, ?_⟩ <;> (try dsimp only) <;> (repeat' split) <;> simp_all

@[simp] theorem kept_fillGroup (s : State) (u : Nat) :
    Keeps (fillGroup s u) s := by
  unfold fillGroup; refine ⟨?_, ?_, ?_⟩ <;> (try dsimp only) <;> (repeat' split) <;> simp_all

@[simp] theorem kept_toCommitted (s : State) (u : Nat) :
    Keeps (toCommitted s u) s := by
  unfold toCommitted; refine ⟨?_, ?_, ?_⟩ <;> (try dsimp only) <;> (repeat' split) <;> simp_all

@[simp] theorem kept_fillGroups (s : State) (p : Led → Bool) :
    Keeps (fillGroups s p) s := by
  unfold fillGroups; refine ⟨?_, ?_, ?_⟩ <;> (try dsimp only) <;> (repeat' split) <;> simp_all

@[simp] theorem kept_startSealing (s : State) (u : Nat) :
    Keeps (startSealing s u) s := by
  unfold startSealing; refine ⟨?_, ?_, ?_⟩ <;> (try dsimp only) <;> (repeat' split) <;> simp_all

@[simp] theorem kept_commitReady (s : State) (u : Nat) :
    Keeps (commitReady s u) s := by
  unfold commitReady; refine ⟨?_, ?_, ?_⟩ <;> (try dsimp only) <;> (repeat' split) <;> simp_all

@[simp] theorem kept_commitNow (s : State) (u : Nat) :
    Keeps (commitNow s u) s := by
  unfold commitNow; refine ⟨?_, ?_, ?_⟩ <;> (try dsimp only) <;> (repeat' split) <;> simp_all

@[simp] theorem kept_commitGo (s : State) (u : Nat) :
    Keeps (commitGo s u) s := by
  unfold commitGo; refine ⟨?_, ?_, ?_⟩ <;> (try dsimp only) <;> (repeat' split) <;> simp_all

@[simp] theorem kept_memberGo (s : State) (u : Nat) :
    Keeps (memberGo s u) s := by
  unfold memberGo; refine ⟨?_, ?_, ?_⟩ <;> (try dsimp only) <;> (repeat' split) <;> simp_all

@[simp] theorem kept_closedRecord (s : State) (u detail : Nat) :
    Keeps (closedRecord s u detail) s := by
  unfold closedRecord; refine ⟨?_, ?_, ?_⟩ <;> (try dsimp only) <;> (repeat' split) <;> simp_all

@[simp] theorem kept_closeUnit (s : State) (u : Nat) :
    Keeps (closeUnit s u) s := by
  unfold closeUnit; refine ⟨?_, ?_, ?_⟩ <;> (try dsimp only) <;> (repeat' split) <;> simp_all

@[simp] theorem kept_closeLate (s : State) (u : Nat) :
    Keeps (closeLate s u) s := by
  unfold closeLate; refine ⟨?_, ?_, ?_⟩ <;> (try dsimp only) <;> (repeat' split) <;> simp_all

@[simp] theorem kept_closeUnits (s : State) (p : Led → Bool) :
    Keeps (closeUnits s p) s := by
  unfold closeUnits; refine ⟨?_, ?_, ?_⟩ <;> (try dsimp only) <;> (repeat' split) <;> simp_all

end Sys2Proof.Machine
end

