-- ==== Sys2Proof/Laws/KeepsRead.lean ====
section
/-! SUPPORT. What the operations of the Gate, reads, gap moves and the retry ladder keep: the queue, the block time, the resets and the port state. -/

namespace Sys2Proof.Machine

/-! ### Gate -/

@[simp] theorem kept_bindOpen (s : State) (q i : Nat) (e : W512) :
    Keeps (bindOpen s q i e) s := by
  unfold bindOpen; refine ⟨?_, ?_, ?_⟩ <;> (try dsimp only) <;> (repeat' split) <;> simp_all

@[simp] theorem kept_takeOrder (s : State) (q i : Nat) :
    Keeps (takeOrder s q i) s := by
  unfold takeOrder; refine ⟨?_, ?_, ?_⟩ <;> (try dsimp only) <;> (repeat' split) <;> simp_all

@[simp] theorem kept_refuseEntry (s : State) (q i : Nat) (st : Status) (fpa : W64) :
    Keeps (refuseEntry s q i st fpa) s := by
  unfold refuseEntry; refine ⟨?_, ?_, ?_⟩ <;> (try dsimp only) <;> (repeat' split) <;> simp_all

@[simp] theorem kept_bindEntry (s : State) (q i : Nat) (e : W512) :
    Keeps (bindEntry s q i e) s := by
  unfold bindEntry; refine ⟨?_, ?_, ?_⟩ <;> (try dsimp only) <;> (repeat' split) <;> simp_all

@[simp] theorem kept_pushEntry (s : State) (q i : Nat) (l : List Desc) :
    Keeps (pushEntry s q i l) s := by
  unfold pushEntry; refine ⟨?_, ?_, ?_⟩ <;> (try dsimp only) <;> (repeat' split) <;> simp_all

@[simp] theorem kept_askData (s : State) (q : Nat) (x : Ent) :
    Keeps (askData s q x) s := by
  unfold askData; refine ⟨?_, ?_, ?_⟩ <;> (try dsimp only) <;> (repeat' split) <;> simp_all

@[simp] theorem kept_askFrags (s : State) (q : Nat) (x : Ent) :
    Keeps (askFrags s q x) s := by
  unfold askFrags; refine ⟨?_, ?_, ?_⟩ <;> (try dsimp only) <;> (repeat' split) <;> simp_all

@[simp] theorem kept_admitPlain (s : State) (q : Nat) (x : Ent) (arg : Nat) :
    Keeps (admitPlain s q x arg) s := by
  unfold admitPlain; refine ⟨?_, ?_, ?_⟩ <;> (try dsimp only) <;> (repeat' split) <;> simp_all

@[simp] theorem kept_admitGather (s : State) (q : Nat) (x : Ent) :
    Keeps (admitGather s q x) s := by
  unfold admitGather; refine ⟨?_, ?_, ?_⟩ <;> (try dsimp only) <;> (repeat' split) <;> simp_all

@[simp] theorem kept_pushMerge (s : State) (q : Nat) (x : Ent) :
    Keeps (pushMerge s q x) s := by
  unfold pushMerge; refine ⟨?_, ?_, ?_⟩ <;> (try dsimp only) <;> (repeat' split) <;> simp_all

@[simp] theorem kept_admitLineWrite (s : State) (q : Nat) (x : Ent) :
    Keeps (admitLineWrite s q x) s := by
  unfold admitLineWrite; refine ⟨?_, ?_, ?_⟩ <;> (try dsimp only) <;> (repeat' split) <;> simp_all

@[simp] theorem kept_bindUnit (s : State) (u r : Nat) :
    Keeps (bindUnit s u r) s := by
  unfold bindUnit; refine ⟨?_, ?_, ?_⟩ <;> (try dsimp only) <;> (repeat' split) <;> simp_all

@[simp] theorem kept_countRefused (s : State) (f : W64) (st : Status) :
    Keeps (countRefused s f st) s := by
  unfold countRefused; refine ⟨?_, ?_, ?_⟩ <;> (try dsimp only) <;> (repeat' split) <;> simp_all

@[simp] theorem kept_takeKey (s : State) (q i u : Nat) :
    Keeps (takeKey s q i u) s := by
  unfold takeKey; refine ⟨?_, ?_, ?_⟩ <;> (try dsimp only) <;> (repeat' split) <;> simp_all

@[simp] theorem kept_admitUnitOpen (s : State) (q : Nat) (x : Ent) :
    Keeps (admitUnitOpen s q x) s := by
  unfold admitUnitOpen; refine ⟨?_, ?_, ?_⟩ <;> (try dsimp only) <;> (repeat' split) <;> simp_all

@[simp] theorem kept_admitUnitCommit (s : State) (q : Nat) (x : Ent) :
    Keeps (admitUnitCommit s q x) s := by
  unfold admitUnitCommit; refine ⟨?_, ?_, ?_⟩ <;> (try dsimp only) <;> (repeat' split) <;> simp_all

@[simp] theorem kept_admitPageProgram (s : State) (q : Nat) (x : Ent) :
    Keeps (admitPageProgram s q x) s := by
  unfold admitPageProgram; refine ⟨?_, ?_, ?_⟩ <;> (try dsimp only) <;> (repeat' split) <;> simp_all

@[simp] theorem kept_admitCopyback (s : State) (q : Nat) (x : Ent) :
    Keeps (admitCopyback s q x) s := by
  unfold admitCopyback; refine ⟨?_, ?_, ?_⟩ <;> (try dsimp only) <;> (repeat' split) <;> simp_all

@[simp] theorem kept_admitErase (s : State) (q : Nat) (x : Ent) :
    Keeps (admitErase s q x) s := by
  unfold admitErase; refine ⟨?_, ?_, ?_⟩ <;> (try dsimp only) <;> (repeat' split) <;> simp_all

@[simp] theorem kept_admitFeature (s : State) (q : Nat) (x : Ent) :
    Keeps (admitFeature s q x) s := by
  unfold admitFeature; refine ⟨?_, ?_, ?_⟩ <;> (try dsimp only) <;> (repeat' split) <;> simp_all

@[simp] theorem kept_admitIntegrator (s : State) (q : Nat) (x : Ent) :
    Keeps (admitIntegrator s q x) s := by
  unfold admitIntegrator; refine ⟨?_, ?_, ?_⟩ <;> (try dsimp only) <;> (repeat' split) <;> simp_all

@[simp] theorem kept_noteUnframed (s : State) (q i r : Nat) :
    Keeps (noteUnframed s q i r) s := by
  unfold noteUnframed; refine ⟨?_, ?_, ?_⟩ <;> (try dsimp only) <;> (repeat' split) <;> simp_all

@[simp] theorem kept_perform (s : State) (q i charge : Nat) : Keeps (perform s q i charge) s := by
  unfold perform
  split
  · exact ⟨rfl, rfl, rfl⟩
  · dsimp only
    generalize ht : noteUnframed _ q i _ = t
    have h : Keeps t s := ⟨by subst ht; simp, by subst ht; simp⟩
    refine keeps_trans ?_ h
    clear ht h
    split
    · exact ⟨rfl, rfl, rfl⟩
    · refine keeps_ite _ (kept_admitGather _ _ _) (keeps_ite _ (kept_admitLineWrite _ _ _) (keeps_ite _ (kept_admitUnitOpen _ _ _)
        (keeps_ite _ (kept_admitUnitCommit _ _ _) (keeps_ite _ (kept_admitPageProgram _ _ _) (keeps_ite _ (kept_admitErase _ _ _)
        (keeps_ite _ (kept_admitCopyback _ _ _) (keeps_ite _ ⟨rfl, rfl, rfl⟩ (keeps_ite _ (kept_admitFeature _ _ _)
        (keeps_ite _ (kept_admitIntegrator _ _ _) (kept_admitPlain _ _ _ _))))))))))

@[simp] theorem kept_ledgerStall (s : State) (q : Nat) :
    Keeps (ledgerStall s q) s := by
  unfold ledgerStall; refine ⟨?_, ?_, ?_⟩ <;> (try dsimp only) <;> (repeat' split) <;> simp_all

@[simp] theorem kept_holdBound (s : State) (q : Nat) (x : Ent) (c : HoldCause) :
    Keeps (holdBound s q x c) s := by
  unfold holdBound; refine ⟨?_, ?_, ?_⟩ <;> (try dsimp only) <;> (repeat' split) <;> simp_all

@[simp] theorem kept_admitEnt (s : State) (q : Nat) (x : Ent) :
    Keeps (admitEnt s q x) s := by
  unfold admitEnt; refine ⟨?_, ?_, ?_⟩ <;> (try dsimp only) <;> (repeat' split) <;> simp_all

@[simp] theorem kept_refuseLoop (s : State) (q : Nat) (k : Nat) :
    Keeps (refuseLoop s q k) s := by
  induction k generalizing s with
  | zero => exact ⟨rfl, rfl, rfl⟩
  | succ k ih =>
    unfold refuseLoop
    refine ⟨?_, ?_, ?_⟩ <;> (try dsimp only) <;> (repeat' split) <;> simp_all

@[simp] theorem kept_admitRow (p : W512 → Bool) (q : Nat) (s : State) :
    Keeps (admitRow p q s) s := by
  unfold admitRow; refine ⟨?_, ?_, ?_⟩ <;> (try dsimp only) <;> (repeat' split) <;> simp_all

@[simp] theorem kept_retryHeld (s : State) (h : Held) :
    Keeps (retryHeld s h) s := by
  unfold retryHeld; refine ⟨?_, ?_, ?_⟩ <;> (try dsimp only) <;> (repeat' split) <;> simp_all

@[simp] theorem kept_releaseHeld (s : State) (p : HoldCause → Bool) :
    Keeps (releaseHeld s p) s := by
  unfold releaseHeld; refine ⟨?_, ?_, ?_⟩ <;> (try dsimp only) <;> (repeat' split) <;> simp_all

@[simp] theorem kept_releaseMoves (s : State) :
    Keeps (releaseMoves s) s := by
  unfold releaseMoves; refine ⟨?_, ?_, ?_⟩ <;> (try dsimp only) <;> (repeat' split) <;> simp_all

@[simp] theorem kept_storeEntries (s : State) (q rd : Nat) (data : List W512) :
    Keeps (storeEntries s q rd data) s := by
  unfold storeEntries; refine ⟨?_, ?_, ?_⟩ <;> (try dsimp only) <;> (repeat' split) <;> simp_all

@[simp] theorem kept_fetchFault (s : State) (q rd addr : Nat) :
    KeepsClk (fetchFault s q rd addr) s := by
  unfold fetchFault; refine ⟨?_, ?_⟩ <;> (try dsimp only) <;> (repeat' split) <;> simp_all

@[simp] theorem kept_fetchAnswer (s : State) (r : FabReq) (q rd : Nat) (err : Bool) (data : List W512) :
    KeepsClk (fetchAnswer s r q rd err data) s := by
  unfold fetchAnswer; refine ⟨?_, ?_⟩ <;> (try dsimp only) <;> (repeat' split) <;> simp_all

/-! ### Fetch -/

@[simp] theorem kept_setCredit (s : State) (q c : Nat) :
    Keeps (setCredit s q c) s := by
  unfold setCredit; refine ⟨?_, ?_, ?_⟩ <;> (try dsimp only) <;> (repeat' split) <;> simp_all

@[simp] theorem kept_startRound (s : State) :
    Keeps (startRound s) s := by
  unfold startRound; refine ⟨?_, ?_, ?_⟩ <;> (try dsimp only) <;> (repeat' split) <;> simp_all

@[simp] theorem kept_fetchPiece (q : Nat) (s : State) (piece : Nat × Nat) :
    KeepsClk (fetchPiece q s piece) s := by
  unfold fetchPiece; refine ⟨?_, ?_⟩ <;> (try dsimp only) <;> (repeat' split) <;> simp_all

@[simp] theorem kept_poolPeak (s : State) :
    Keeps (poolPeak s) s := by
  unfold poolPeak; refine ⟨?_, ?_, ?_⟩ <;> (try dsimp only) <;> (repeat' split) <;> simp_all

@[simp] theorem kept_fetchTurn (s : State) (q : Nat) :
    KeepsClk (fetchTurn s q) s := by
  unfold fetchTurn; refine ⟨?_, ?_⟩ <;> (try dsimp only) <;> (repeat' split) <;> simp_all

/-! ### Deliver -/

@[simp] theorem kept_poisonInsert (s : State) (r : Nat) (f : W64) (mask : BitVec 256) (source : Nat) :
    Keeps (poisonInsert s r f mask source) s := by
  unfold poisonInsert; refine ⟨?_, ?_, ?_⟩ <;> (try dsimp only) <;> (repeat' split) <;> simp_all

@[simp] theorem kept_poisonErase (s : State) (r : Nat) (f : W64) (plane : Nat) :
    Keeps (poisonErase s r f plane) s := by
  unfold poisonErase; refine ⟨?_, ?_, ?_⟩ <;> (try dsimp only) <;> (repeat' split) <;> simp_all

@[simp] theorem kept_writeLine (s : State) (p c : Nat) (w : Want) (d : W512) :
    Keeps (writeLine s p c w d) s := by
  unfold writeLine; refine ⟨?_, ?_, ?_⟩ <;> (try dsimp only) <;> (repeat' split) <;> simp_all

@[simp] theorem kept_dropWant (s : State) (p c : Nat) (w : Want) :
    Keeps (dropWant s p c w) s := by
  unfold dropWant; refine ⟨?_, ?_, ?_⟩ <;> (try dsimp only) <;> (repeat' split) <;> simp_all

@[simp] theorem kept_mergeDone (s : State) (d : Desc) (kind : Nat) (l : BitVec 528) (st : Status) :
    Keeps (mergeDone s d kind l st) s := by
  unfold mergeDone; refine ⟨?_, ?_, ?_⟩ <;> (try dsimp only) <;> (repeat' split) <;> simp_all

@[simp] theorem kept_dropSector (s : State) (p c k : Nat) :
    Keeps (dropSector s p c k) s := by
  unfold dropSector; refine ⟨?_, ?_, ?_⟩ <;> (try dsimp only) <;> (repeat' split) <;> simp_all

@[simp] theorem kept_passSector (s : State) (p c k : Nat) (lines : List (Nat × BitVec 528)) :
    Keeps (passSector s p c k lines) s := by
  unfold passSector; refine ⟨?_, ?_, ?_⟩ <;> (try dsimp only) <;> (repeat' split) <;> simp_all

@[simp] theorem kept_loseSector (s : State) (p c k : Nat) :
    Keeps (loseSector s p c k) s := by
  unfold loseSector; refine ⟨?_, ?_, ?_⟩ <;> (try dsimp only) <;> (repeat' split) <;> simp_all

@[simp] theorem kept_sealCheck (s : State) (p c : Nat) (w : Want) :
    Keeps (sealCheck s p c w) s := by
  unfold sealCheck; refine ⟨?_, ?_, ?_⟩ <;> (try dsimp only) <;> (repeat' split) <;> simp_all

@[simp] theorem kept_sealLine (s : State) (p c : Nat) (w : Want) (x : LineRes) : Keeps (sealLine s p c w x) s := by
  refine keeps_trans (kept_sealCheck _ _ _ _) ?_
  have hw : ∀ f v, Keeps (writeLine (modCtx s p c f) p c w v) s := fun _ _ => keeps_trans (kept_writeLine _ _ _ _ _) (kept_modCtx _ _ _ _)
  have hm : ∀ f g, Keeps (modCtx (modCtx s p c f) p c g) s := fun _ _ => keeps_trans (kept_modCtx _ _ _ _) (kept_modCtx _ _ _ _)
  cases x with
  | line l a b => exact keeps_ite _ (hw _ _) (keeps_ite _ (hw _ _) (hm _ _))
  | blank => exact hm _ _
  | lost => exact hw _ _
  | mapped => exact hw _ _

@[simp] theorem kept_mergeLine (s : State) (d : Desc) (plain : W512) (x : LineRes) :
    Keeps (mergeLine s d plain x) s := by
  unfold mergeLine; refine ⟨?_, ?_, ?_⟩ <;> (try dsimp only) <;> (repeat' split) <;> simp_all

@[simp] theorem kept_modAcc (s : State) (p c page : Nat) (g : Acc → Acc) :
    Keeps (modAcc s p c page g) s := by
  unfold modAcc; refine ⟨?_, ?_, ?_⟩ <;> (try dsimp only) <;> (repeat' split) <;> simp_all

@[simp] theorem kept_noteResult (s : State) (p c : Nat) (w : Want) (x : LineRes) :
    Keeps (noteResult s p c w x) s := by
  unfold noteResult; refine ⟨?_, ?_, ?_⟩ <;> (try dsimp only) <;> (repeat' split) <;> simp_all

@[simp] theorem kept_keepLine (s : State) (p c : Nat) (w : Want) (op : Nat) (x : LineRes) :
    Keeps (keepLine s p c w op x) s := by
  unfold keepLine; refine ⟨?_, ?_, ?_⟩ <;> (try dsimp only) <;> (repeat' split) <;> simp_all

@[simp] theorem kept_deliver (s : State) (p c : Nat) (w : Want) (x : LineRes) : Keeps (deliver s p c w x) s := by
  unfold deliver
  dsimp only
  generalize plainLine _ _ w x = pl
  refine ⟨?_, ?_⟩ <;> (repeat' split) <;> simp

/-! ### Cycles -/

@[simp] theorem kept_bus (s : State) (lun : Nat) (cs : List BusCyc) :
    Keeps (bus s lun cs) s := by
  unfold bus; refine ⟨?_, ?_, ?_⟩ <;> (try dsimp only) <;> (repeat' split) <;> simp_all

/-! ### Port -/

@[simp] theorem kept_missPulls (s : State) (e : Nat) :
    Keeps (missPulls s e) s := by
  unfold missPulls; refine ⟨?_, ?_, ?_⟩ <;> (try dsimp only) <;> (repeat' split) <;> simp_all

@[simp] theorem kept_invalidateEntry (s : State) (e : Nat) :
    Keeps (invalidateEntry s e) s := by
  unfold invalidateEntry; refine ⟨?_, ?_, ?_⟩ <;> (try dsimp only) <;> (repeat' split) <;> simp_all

@[simp] theorem kept_invalidatePlanes (s : State) (l : Nat) (planes : List Nat) :
    Keeps (invalidatePlanes s l planes) s := by
  unfold invalidatePlanes; refine ⟨?_, ?_, ?_⟩ <;> (try dsimp only) <;> (repeat' split) <;> simp_all

@[simp] theorem kept_invalidateLun (s : State) (l : Nat) :
    Keeps (invalidateLun s l) s := by
  unfold invalidateLun; refine ⟨?_, ?_, ?_⟩ <;> (try dsimp only) <;> (repeat' split) <;> simp_all

@[simp] theorem kept_invalidateLuns (s : State) (ls : List Nat) :
    Keeps (invalidateLuns s ls) s := by
  unfold invalidateLuns; refine ⟨?_, ?_, ?_⟩ <;> (try dsimp only) <;> (repeat' split) <;> simp_all

@[simp] theorem kept_stamp (s : State) :
    Keeps (stamp s) s := by
  unfold stamp; refine ⟨?_, ?_, ?_⟩ <;> (try dsimp only) <;> (repeat' split) <;> simp_all

@[simp] theorem kept_postPhase (s : State) (p k : Nat) (ph : Phase) :
    Keeps (postPhase s p k ph) s := by
  unfold postPhase; refine ⟨?_, ?_, ?_⟩ <;> (try dsimp only) <;> (repeat' split) <;> simp_all

@[simp] theorem kept_postUnits (s : State) (p c : Nat) (f : W64) (units : List Nat) (soft : Nat) (whole : Bool) (owed : List Nat) :
    Keeps (postUnits s p c f units soft whole owed) s := by
  unfold postUnits; refine ⟨?_, ?_, ?_⟩ <;> (try dsimp only) <;> (repeat' split) <;> simp_all

@[simp] theorem kept_postPull (s : State) (p c : Nat) (f : W64) (units : List Nat) (soft : Nat) :
    Keeps (postPull s p c f units soft) s := by
  unfold postPull; refine ⟨?_, ?_, ?_⟩ <;> (try dsimp only) <;> (repeat' split) <;> simp_all

@[simp] theorem kept_countPhase (s : State) (p k cls : Nat) :
    Keeps (countPhase s p k cls) s := by
  unfold countPhase; refine ⟨?_, ?_, ?_⟩ <;> (try dsimp only) <;> (repeat' split) <;> simp_all

@[simp] theorem kept_tookTurn (s : State) (l k : Nat) :
    Keeps (tookTurn s l k) s := by
  unfold tookTurn; refine ⟨?_, ?_, ?_⟩ <;> (try dsimp only) <;> (repeat' split) <;> simp_all

@[simp] theorem kept_startTransfer (s : State) (p k : Nat) (ph : Phase) :
    Keeps (startTransfer s p k ph) s := by
  unfold startTransfer; refine ⟨?_, ?_, ?_⟩ <;> (try dsimp only) <;> (repeat' split) <;> simp_all

@[simp] theorem kept_beginLoad (pg step : Nat) (s : State) (f : W64) :
    Keeps (beginLoad pg step s f) s := by
  unfold beginLoad; refine ⟨?_, ?_, ?_⟩ <;> (try dsimp only) <;> (repeat' split) <;> simp_all

@[simp] theorem kept_loadRows (s : State) (l : Nat) (rows : List W64) (step c : Nat) (hold : List Nat) :
    Keeps (loadRows s l rows step c hold) s := by
  unfold loadRows; refine ⟨?_, ?_, ?_⟩ <;> (try dsimp only) <;> (repeat' split) <;> simp_all

@[simp] theorem kept_issueRead (s : State) (l : Nat) (rows : List W64) (step c : Nat) (hold : List Nat) :
    Keeps (issueRead s l rows step c hold) s := by
  unfold issueRead; refine ⟨?_, ?_, ?_⟩ <;> (try dsimp only) <;> (repeat' split) <;> simp_all

@[simp] theorem kept_ladderRead (s : State) (l : Nat) (y : Ladder) :
    Keeps (ladderRead s l y) s := by
  unfold ladderRead; refine ⟨?_, ?_, ?_⟩ <;> (try dsimp only) <;> (repeat' split) <;> simp_all

@[simp] theorem kept_startProbe (s : State) (r : Nat) (f : W64) (planes : List Nat) :
    Keeps (startProbe s r f planes) s := by
  unfold startProbe; refine ⟨?_, ?_, ?_⟩ <;> (try dsimp only) <;> (repeat' split) <;> simp_all

@[simp] theorem kept_probeNext (s : State) (l : Nat) :
    Keeps (probeNext s l) s := by
  unfold probeNext; refine ⟨?_, ?_, ?_⟩ <;> (try dsimp only) <;> (repeat' split) <;> simp_all

@[simp] theorem kept_judgeRead (s : State) (p c : Nat) (f : W64) :
    Keeps (judgeRead s p c f) s := by
  unfold judgeRead; refine ⟨?_, ?_, ?_⟩ <;> (try dsimp only) <;> (repeat' split) <;> simp_all

@[simp] theorem kept_judgeWaiting (s : State) (l : Nat) :
    Keeps (judgeWaiting s l) s := by
  unfold judgeWaiting; refine ⟨?_, ?_, ?_⟩ <;> (try dsimp only) <;> (repeat' split) <;> simp_all

@[simp] theorem kept_beginSusp (s : State) (l : Nat) (reads : List Nat) :
    Keeps (beginSusp s l reads) s := by
  unfold beginSusp; refine ⟨?_, ?_, ?_⟩ <;> (try dsimp only) <;> (repeat' split) <;> simp_all

@[simp] theorem kept_issueSuspend (s : State) (l : Nat) :
    Keeps (issueSuspend s l) s := by
  unfold issueSuspend; refine ⟨?_, ?_, ?_⟩ <;> (try dsimp only) <;> (repeat' split) <;> simp_all

@[simp] theorem kept_modErase (s : State) (l : Nat) (f : EraseJob → EraseJob) :
    Keeps (modErase s l f) s := by
  unfold modErase; refine ⟨?_, ?_, ?_⟩ <;> (try dsimp only) <;> (repeat' split) <;> simp_all

@[simp] theorem kept_cancelLoads (s : State) (l : Nat) :
    Keeps (cancelLoads s l) s := by
  unfold cancelLoads; refine ⟨?_, ?_, ?_⟩ <;> (try dsimp only) <;> (repeat' split) <;> simp_all

@[simp] theorem kept_resumed (s : State) (l : Nat) (b : Busy) :
    Keeps (resumed s l b) s := by
  unfold resumed; refine ⟨?_, ?_, ?_⟩ <;> (try dsimp only) <;> (repeat' split) <;> simp_all

@[simp] theorem kept_routineReads (s : State) (l c : Nat) (rows : List W64) :
    Keeps (routineReads s l c rows) s := by
  unfold routineReads; refine ⟨?_, ?_, ?_⟩ <;> (try dsimp only) <;> (repeat' split) <;> simp_all

@[simp] theorem kept_routineRuns (s : State) (l c region kind : Nat) (rows : List W64) :
    Keeps (routineRuns s l c region kind rows) s := by
  unfold routineRuns; refine ⟨?_, ?_, ?_⟩ <;> (try dsimp only) <;> (repeat' split) <;> simp_all

@[simp] theorem kept_routineReset (s : State) (l c : Nat) :
    Keeps (routineReset s l c) s := by
  unfold routineReset; refine ⟨?_, ?_, ?_⟩ <;> (try dsimp only) <;> (repeat' split) <;> simp_all

theorem keeps_fst_ite {β : Type} (c : Prop) [Decidable c] {a b : State × β} {s : State} (ha : Keeps a.1 s) (hb : Keeps b.1 s) :
    Keeps (if c then a else b).1 s := by
  split <;> assumption

/-- A command byte of a routine keeps what every work of the block keeps. -/
theorem kept_routineCmd (s : State) (l c region n : Nat) (rows : List W64) : Keeps (routineCmd s l c region n rows).1 s := by
  have e : Keeps s s := ⟨rfl, rfl, rfl⟩
  have h : ∀ (x : State) (y : Bool × List W64), Keeps x s → Keeps (x, y).1 s := fun _ _ h => h
  unfold routineCmd
  refine keeps_fst_ite _ (h _ _ e) ?_
  refine keeps_fst_ite _ (h _ _ (keeps_ite _ (kept_routineRuns _ _ _ _ _ _) e)) ?_
  refine keeps_fst_ite _ (h _ _ e) ?_
  refine keeps_fst_ite _ (h _ _ (kept_routineReads _ _ _ _)) ?_
  refine keeps_fst_ite _ (h _ _ (kept_routineRuns _ _ _ _ _ _)) ?_
  refine keeps_fst_ite _ (h _ _ (kept_routineRuns _ _ _ _ _ _)) ?_
  refine keeps_fst_ite _ (h _ _ (kept_invalidateLuns _ _)) ?_
  refine keeps_fst_ite _ (h _ _ (kept_invalidateLun _ _)) ?_
  refine keeps_fst_ite _ (h _ _ (kept_routineReset _ _ _)) ?_
  refine keeps_fst_ite _ (h _ _ (keeps_trans (kept_routineReset _ _ _) (kept_routineReset _ _ _))) ?_
  refine keeps_fst_ite _ (h _ _ (kept_beginSusp _ _ _)) ?_
  exact keeps_fst_ite _ (h _ _ (kept_resumed _ _ _)) (h _ _ e)

theorem kept_routineCyc (l c region : Nat) (a : State × Bool × List W64) (b : BusCyc) : Keeps (routineCyc l c region a b).1 a.1 := by
  unfold routineCyc
  (repeat' split) <;> first | exact kept_routineCmd _ _ _ _ _ _ | exact ⟨rfl, rfl, rfl⟩ | exact kept_modLun _ _ _

@[simp] theorem kept_routineEffect (s : State) (p : Nat) (ph : Phase) : Keeps (routineEffect s p ph) s := by
  unfold routineEffect
  dsimp only
  generalize (if ph.ctx < 63 then ph.ctx else 64) = c
  generalize (ctxOf s p ph.ctx).desc.region = r
  suffices h : ∀ (cs : List BusCyc) (a : State × Bool × List W64), Keeps (cs.foldl (routineCyc ph.lun c r) a).1 a.1 from h _ (s, false, [])
  intro cs
  induction cs with
  | nil => exact fun _ => ⟨rfl, rfl, rfl⟩
  | cons b cs ih => exact fun a => keeps_trans (ih _) (kept_routineCyc _ _ _ _ _)

@[simp] theorem kept_literalIssued (s : State) (p k : Nat) (ph : Phase) :
    Keeps (literalIssued s p k ph) s := by
  unfold literalIssued; refine ⟨?_, ?_, ?_⟩ <;> (try dsimp only) <;> (repeat' split) <;> simp_all

@[simp] theorem kept_runPhase (s : State) (p k i : Nat) :
    Keeps (runPhase s p k i) s := by
  unfold runPhase; refine ⟨?_, ?_, ?_⟩ <;> (try dsimp only) <;> (repeat' split) <;> simp_all

@[simp] theorem kept_postPage (s : State) (p c : Nat) (ws : List Want) (due : Nat → Bool) (k : Nat) :
    Keeps (postPage s p c ws due k) s := by
  unfold postPage; refine ⟨?_, ?_, ?_⟩ <;> (try dsimp only) <;> (repeat' split) <;> simp_all

@[simp] theorem kept_postWants (s : State) (p c : Nat) (ws : List Want) :
    Keeps (postWants s p c ws) s := by
  unfold postWants; refine ⟨?_, ?_, ?_⟩ <;> (try dsimp only) <;> (repeat' split) <;> simp_all

@[simp] theorem kept_postAgain (s : State) (p c : Nat) (ws : List Want) (due : List Nat) :
    Keeps (postAgain s p c ws due) s := by
  unfold postAgain; refine ⟨?_, ?_, ?_⟩ <;> (try dsimp only) <;> (repeat' split) <;> simp_all

@[simp] theorem kept_dropPhases (s : State) (p c : Nat) :
    Keeps (dropPhases s p c) s := by
  unfold dropPhases; refine ⟨?_, ?_, ?_⟩ <;> (try dsimp only) <;> (repeat' split) <;> simp_all

/-! ### Move -/

@[simp] theorem kept_leaveSusp (s : State) (l c : Nat) :
    Keeps (leaveSusp s l c) s := by
  unfold leaveSusp; refine ⟨?_, ?_, ?_⟩ <;> (try dsimp only) <;> (repeat' split) <;> simp_all

@[simp] theorem kept_leaveLun (c : Nat) (s : State) (l : Nat) :
    Keeps (leaveLun c s l) s := by
  unfold leaveLun; refine ⟨?_, ?_, ?_⟩ <;> (try dsimp only) <;> (repeat' split) <;> simp_all

@[simp] theorem kept_leaveLuns (s : State) (p c : Nat) :
    Keeps (leaveLuns s p c) s := by
  unfold leaveLuns; refine ⟨?_, ?_, ?_⟩ <;> (try dsimp only) <;> (repeat' split) <;> simp_all

@[simp] theorem kept_freeCtx (s : State) (p c : Nat) :
    Keeps (freeCtx s p c) s := by
  unfold freeCtx; refine ⟨?_, ?_, ?_⟩ <;> (try dsimp only) <;> (repeat' split) <;> simp_all

@[simp] theorem kept_halfInsert (s : State) (l blk planes cause : Nat) :
    Keeps (halfInsert s l blk planes cause) s := by
  unfold halfInsert; refine ⟨?_, ?_, ?_⟩ <;> (try dsimp only) <;> (repeat' split) <;> simp_all

@[simp] theorem kept_halfClear (s : State) (l blk plane : Nat) :
    Keeps (halfClear s l blk plane) s := by
  unfold halfClear; refine ⟨?_, ?_, ?_⟩ <;> (try dsimp only) <;> (repeat' split) <;> simp_all

@[simp] theorem kept_lockRetry (s : State) (l : Nat) :
    Keeps (lockRetry s l) s := by
  unfold lockRetry; refine ⟨?_, ?_, ?_⟩ <;> (try dsimp only) <;> (repeat' split) <;> simp_all

@[simp] theorem kept_freshAdd (s : State) (l blk planes : Nat) :
    Keeps (freshAdd s l blk planes) s := by
  unfold freshAdd; refine ⟨?_, ?_, ?_⟩ <;> (try dsimp only) <;> (repeat' split) <;> simp_all

@[simp] theorem kept_countPages (s : State) (rg n : Nat) :
    Keeps (countPages s rg n) s := by
  unfold countPages; refine ⟨?_, ?_, ?_⟩ <;> (try dsimp only) <;> (repeat' split) <;> simp_all

@[simp] theorem kept_markerPage (s : State) (l fb page region : Nat) (records : List W512) :
    Keeps (markerPage s l fb page region records) s := by
  unfold markerPage; refine ⟨?_, ?_, ?_⟩ <;> (try dsimp only) <;> (repeat' split) <;> simp_all

@[simp] theorem kept_markerRecordOf (s : State) (l fb page byte kind region : Nat) :
    Keeps (markerRecordOf s l fb page byte kind region) s := by
  unfold markerRecordOf; refine ⟨?_, ?_, ?_⟩ <;> (try dsimp only) <;> (repeat' split) <;> simp_all

@[simp] theorem kept_switchCharge (s : State) :
    Keeps (switchCharge s) s := by
  unfold switchCharge; refine ⟨?_, ?_, ?_⟩ <;> (try dsimp only) <;> (repeat' split) <;> simp_all

@[simp] theorem kept_switchPages (l fb n page : Nat) (s : State) : Keeps (switchPages l fb n page s).1 s := by
  induction n generalizing page s with
  | zero => exact ⟨rfl, rfl, rfl⟩
  | succ n ih =>
    unfold switchPages
    dsimp only
    split
    · exact ⟨rfl, rfl, rfl⟩
    · split
      · constructor <;> simp
      · exact keeps_trans (ih _ _) (by constructor <;> simp)

@[simp] theorem kept_flagAttempt (s : State) (l : Nat) (w : Switch) :
    Keeps (flagAttempt s l w).1 s := by
  unfold flagAttempt; refine ⟨?_, ?_, ?_⟩ <;> (try dsimp only) <;> (repeat' split) <;> simp_all

@[simp] theorem kept_switchLeft (l : Nat) (w : Switch) (r : State × SwitchEnd × Nat) :
    Keeps (switchLeft l w r).1 r.1 := by
  unfold switchLeft; refine ⟨?_, ?_, ?_⟩ <;> (try dsimp only) <;> (repeat' split) <;> simp_all

@[simp] theorem kept_flagSwitch (s : State) (l : Nat) :
    Keeps (flagSwitch s l).1 s := by
  unfold flagSwitch; refine ⟨?_, ?_, ?_⟩ <;> (try dsimp only) <;> (repeat' split) <;> simp_all

@[simp] theorem kept_eraseShort (s : State) (l : Nat) :
    Keeps (eraseShort s l) s := by
  unfold eraseShort; refine ⟨?_, ?_, ?_⟩ <;> (try dsimp only) <;> (repeat' split) <;> simp_all

@[simp] theorem kept_programMarker (s : State) (l : Nat) (j : EraseJob) (kind : Nat) :
    Keeps (programMarker s l j kind) s := by
  unfold programMarker; refine ⟨?_, ?_, ?_⟩ <;> (try dsimp only) <;> (repeat' split) <;> simp_all

@[simp] theorem kept_markerEnd (s : State) (l : Nat) (j : EraseJob) :
    Keeps (markerEnd s l j) s := by
  unfold markerEnd; refine ⟨?_, ?_, ?_⟩ <;> (try dsimp only) <;> (repeat' split) <;> simp_all

@[simp] theorem kept_eraseOn (s : State) (l : Nat) (j : EraseJob) (planes : List Nat) :
    Keeps (eraseOn s l j planes) s := by
  unfold eraseOn; refine ⟨?_, ?_, ?_⟩ <;> (try dsimp only) <;> (repeat' split) <;> simp_all

@[simp] theorem kept_issueErase (s : State) (l : Nat) (j : EraseJob) :
    Keeps (issueErase s l j) s := by
  unfold issueErase; refine ⟨?_, ?_, ?_⟩ <;> (try dsimp only) <;> (repeat' split) <;> simp_all

@[simp] theorem kept_nextErase (s : State) (l : Nat) (j : EraseJob) (k : Nat) (left : List Nat) :
    Keeps (nextErase s l j k left) s := by
  unfold nextErase; refine ⟨?_, ?_, ?_⟩ <;> (try dsimp only) <;> (repeat' split) <;> simp_all

@[simp] theorem kept_takeSeq (s : State) (l : Nat) :
    Keeps (takeSeq s l) s := by
  unfold takeSeq; refine ⟨?_, ?_, ?_⟩ <;> (try dsimp only) <;> (repeat' split) <;> simp_all

@[simp] theorem kept_startErase (s : State) (l : Nat) :
    Keeps (startErase s l) s := by
  unfold startErase; refine ⟨?_, ?_, ?_⟩ <;> (try dsimp only) <;> (repeat' split) <;> simp_all

@[simp] theorem kept_startMarked (s : State) (l : Nat) :
    Keeps (startMarked s l) s := by
  unfold startMarked; refine ⟨?_, ?_, ?_⟩ <;> (try dsimp only) <;> (repeat' split) <;> simp_all

@[simp] theorem kept_startDone (s : State) (l : Nat) :
    Keeps (startDone s l) s := by
  unfold startDone; refine ⟨?_, ?_, ?_⟩ <;> (try dsimp only) <;> (repeat' split) <;> simp_all

@[simp] theorem kept_startNext (s : State) (l : Nat) :
    Keeps (startNext s l) s := by
  unfold startNext; refine ⟨?_, ?_, ?_⟩ <;> (try dsimp only) <;> (repeat' split) <;> simp_all

@[simp] theorem kept_eraseGo (s : State) (l : Nat) :
    Keeps (eraseGo s l) s := by
  unfold eraseGo; refine ⟨?_, ?_, ?_⟩ <;> (try dsimp only) <;> (repeat' split) <;> simp_all

@[simp] theorem kept_modMove (s : State) (r l : Nat) (f : Move → Move) :
    Keeps (modMove s r l f) s := by
  unfold modMove; refine ⟨?_, ?_, ?_⟩ <;> (try dsimp only) <;> (repeat' split) <;> simp_all

@[simp] theorem kept_maybeMove (s : State) (r l : Nat) :
    Keeps (maybeMove s r l) s := by
  unfold maybeMove; refine ⟨?_, ?_, ?_⟩ <;> (try dsimp only) <;> (repeat' split) <;> simp_all

@[simp] theorem kept_testMoves (s : State) (l : Nat) :
    Keeps (testMoves s l) s := by
  unfold testMoves; refine ⟨?_, ?_, ?_⟩ <;> (try dsimp only) <;> (repeat' split) <;> simp_all

@[simp] theorem kept_eraseCounted (s : State) (r l : Nat) :
    Keeps (eraseCounted s r l) s := by
  unfold eraseCounted; refine ⟨?_, ?_, ?_⟩ <;> (try dsimp only) <;> (repeat' split) <;> simp_all

@[simp] theorem kept_moveTakeUnit (s : State) (m : Move) :
    Keeps (moveTakeUnit s m) s := by
  unfold moveTakeUnit; refine ⟨?_, ?_, ?_⟩ <;> (try dsimp only) <;> (repeat' split) <;> simp_all

@[simp] theorem kept_moveLook (s : State) (m : Move) (p c : Nat) :
    Keeps (moveLook s m p c) s := by
  unfold moveLook; refine ⟨?_, ?_, ?_⟩ <;> (try dsimp only) <;> (repeat' split) <;> simp_all

@[simp] theorem kept_postHeaders (s : State) (p c : Nat) :
    Keeps (postHeaders s p c) s := by
  unfold postHeaders; refine ⟨?_, ?_, ?_⟩ <;> (try dsimp only) <;> (repeat' split) <;> simp_all

@[simp] theorem kept_moveRead (s : State) (m : Move) (p c : Nat) :
    Keeps (moveRead s m p c) s := by
  unfold moveRead; refine ⟨?_, ?_, ?_⟩ <;> (try dsimp only) <;> (repeat' split) <;> simp_all

@[simp] theorem kept_moveGo (s : State) (m : Move) :
    Keeps (moveGo s m) s := by
  unfold moveGo; refine ⟨?_, ?_, ?_⟩ <;> (try dsimp only) <;> (repeat' split) <;> simp_all

@[simp] theorem kept_moveRetry (s : State) (rg : Nat) :
    Keeps (moveRetry s rg) s := by
  unfold moveRetry; refine ⟨?_, ?_, ?_⟩ <;> (try dsimp only) <;> (repeat' split) <;> simp_all

@[simp] theorem kept_dropMoveUnits (s : State) (m : Move) :
    Keeps (dropMoveUnits s m) s := by
  unfold dropMoveUnits; refine ⟨?_, ?_, ?_⟩ <;> (try dsimp only) <;> (repeat' split) <;> simp_all

@[simp] theorem kept_moveStall (s : State) (m : Move) (blk : Nat) :
    Keeps (moveStall s m blk) s := by
  unfold moveStall; refine ⟨?_, ?_, ?_⟩ <;> (try dsimp only) <;> (repeat' split) <;> simp_all

@[simp] theorem kept_moveFound (s : State) (m : Move) (p c : Nat) :
    Keeps (moveFound s m p c) s := by
  unfold moveFound; refine ⟨?_, ?_, ?_⟩ <;> (try dsimp only) <;> (repeat' split) <;> simp_all

@[simp] theorem kept_releaseAbandoned (s : State) :
    Keeps (releaseAbandoned s) s := by
  unfold releaseAbandoned; refine ⟨?_, ?_, ?_⟩ <;> (try dsimp only) <;> (repeat' split) <;> simp_all

@[simp] theorem kept_abandonMove (s : State) (m : Move) :
    Keeps (abandonMove s m) s := by
  unfold abandonMove; refine ⟨?_, ?_, ?_⟩ <;> (try dsimp only) <;> (repeat' split) <;> simp_all

@[simp] theorem kept_abandonMoves (s : State) :
    Keeps (abandonMoves s) s := by
  unfold abandonMoves; refine ⟨?_, ?_, ?_⟩ <;> (try dsimp only) <;> (repeat' split) <;> simp_all

@[simp] theorem kept_moveNext (s : State) (m : Move) :
    Keeps (moveNext s m) s := by
  unfold moveNext; refine ⟨?_, ?_, ?_⟩ <;> (try dsimp only) <;> (repeat' split) <;> simp_all

@[simp] theorem kept_planeErased (s : State) (l : Nat) (j : EraseJob) (k : Nat) :
    Keeps (planeErased s l j k) s := by
  unfold planeErased; refine ⟨?_, ?_, ?_⟩ <;> (try dsimp only) <;> (repeat' split) <;> simp_all

@[simp] theorem kept_popErase (s : State) (l : Nat) :
    Keeps (popErase s l) s := by
  unfold popErase; refine ⟨?_, ?_, ?_⟩ <;> (try dsimp only) <;> (repeat' split) <;> simp_all

@[simp] theorem kept_endErase (s : State) (l : Nat) (j : EraseJob) (st : Status) :
    Keeps (endErase s l j st) s := by
  unfold endErase; refine ⟨?_, ?_, ?_⟩ <;> (try dsimp only) <;> (repeat' split) <;> simp_all

@[simp] theorem kept_settleErase (s : State) (l : Nat) (j : EraseJob) :
    Keeps (settleErase s l j) s := by
  unfold settleErase; refine ⟨?_, ?_, ?_⟩ <;> (try dsimp only) <;> (repeat' split) <;> simp_all

/-! ### Refuge pages -/

@[simp] theorem kept_flushGranule (u : Nat) (s : State) (k : Nat) :
    Keeps (flushGranule u s k) s := by
  unfold flushGranule; refine ⟨?_, ?_, ?_⟩ <;> (try dsimp only) <;> (repeat' split) <;> simp_all

@[simp] theorem kept_flushUnit (s : State) (u : Nat) :
    Keeps (flushUnit s u) s := by
  unfold flushUnit; refine ⟨?_, ?_, ?_⟩ <;> (try dsimp only) <;> (repeat' split) <;> simp_all

@[simp] theorem kept_refugeBus (s : State) (l : Nat) (cs : List BusCyc) :
    Keeps (refugeBus s l cs) s := by
  unfold refugeBus; refine ⟨?_, ?_, ?_⟩ <;> (try dsimp only) <;> (repeat' split) <;> simp_all

@[simp] theorem kept_refugeGo (s : State) (r : Nat) :
    Keeps (refugeGo s r) s := by
  unfold refugeGo; refine ⟨?_, ?_, ?_⟩ <;> (try dsimp only) <;> (repeat' split) <;> simp_all

@[simp] theorem kept_programRun (r : Nat) (s : State) (run : List GranulePage) :
    Keeps (programRun r s run) s := by
  unfold programRun; refine ⟨?_, ?_, ?_⟩ <;> (try dsimp only) <;> (repeat' split) <;> simp_all

@[simp] theorem kept_flushOut (s : State) (r : Nat) (us : List Nat) :
    Keeps (flushOut s r us) s := by
  unfold flushOut; refine ⟨?_, ?_, ?_⟩ <;> (try dsimp only) <;> (repeat' split) <;> simp_all

@[simp] theorem kept_eraseStandby (s : State) (r : Nat) :
    Keeps (eraseStandby s r) s := by
  unfold eraseStandby; refine ⟨?_, ?_, ?_⟩ <;> (try dsimp only) <;> (repeat' split) <;> simp_all

@[simp] theorem kept_addRecordPage (s : State) (r pg kind count : Nat) (clean orderly : Bool) (payload : List Byte) :
    Keeps (addRecordPage s r pg kind count clean orderly payload) s := by
  unfold addRecordPage; refine ⟨?_, ?_, ?_⟩ <;> (try dsimp only) <;> (repeat' split) <;> simp_all

@[simp] theorem kept_moveManifest (s : State) (p : Nat) :
    Keeps (moveManifest s p) s := by
  unfold moveManifest; refine ⟨?_, ?_, ?_⟩ <;> (try dsimp only) <;> (repeat' split) <;> simp_all

@[simp] theorem kept_writeRecords (r kind : Nat) (clean orderly : Bool) (k : Nat) (s : State) (es : List Nat) :
    Keeps (writeRecords r kind clean orderly k s es) s := by
  induction k generalizing s es with
  | zero => exact ⟨rfl, rfl, rfl⟩
  | succ k ih =>
    have h := fun pg n b => kept_addRecordPage s r pg kind n clean orderly b
    unfold writeRecords
    dsimp only
    exact keeps_ite _ (h _ _ _) (keeps_trans (ih _ _) (h _ _ _))

@[simp] theorem kept_writeOpening (s : State) (r : Nat) :
    Keeps (writeOpening s r) s := by
  unfold writeOpening; refine ⟨?_, ?_, ?_⟩ <;> (try dsimp only) <;> (repeat' split) <;> simp_all

@[simp] theorem kept_openingGo (s : State) (l : Nat) : Keeps (openingGo s l) s := kept_writeOpening s (lunRidge l)

/-! ### Finish -/

@[simp] theorem kept_countOp (s : State) (rg : Nat) (a : Acc) :
    Keeps (countOp s rg a) s := by
  unfold countOp; refine ⟨?_, ?_, ?_⟩ <;> (try dsimp only) <;> (repeat' split) <;> simp_all

@[simp] theorem kept_countOps (s : State) (rg : Nat) (x : Ctx) :
    Keeps (countOps s rg x) s := by
  unfold countOps; refine ⟨?_, ?_, ?_⟩ <;> (try dsimp only) <;> (repeat' split) <;> simp_all

@[simp] theorem kept_mapDemand (s : State) (p c : Nat) :
    Keeps (mapDemand s p c) s := by
  unfold mapDemand; refine ⟨?_, ?_, ?_⟩ <;> (try dsimp only) <;> (repeat' split) <;> simp_all

@[simp] theorem kept_releaseHits (s : State) (p c : Nat) :
    Keeps (releaseHits s p c) s := by
  unfold releaseHits; refine ⟨?_, ?_, ?_⟩ <;> (try dsimp only) <;> (repeat' split) <;> simp_all

@[simp] theorem kept_loadLines (s : State) (u base : Nat) (lines : List (Nat × BitVec 528)) :
    Keeps (loadLines s u base lines) s := by
  unfold loadLines; refine ⟨?_, ?_, ?_⟩ <;> (try dsimp only) <;> (repeat' split) <;> simp_all

@[simp] theorem kept_loadHeaders (s : State) (u base : Nat) (hs : List (Nat × W512)) :
    Keeps (loadHeaders s u base hs) s := by
  unfold loadHeaders; refine ⟨?_, ?_, ?_⟩ <;> (try dsimp only) <;> (repeat' split) <;> simp_all

@[simp] theorem kept_commitLoaded (s : State) (u : Nat) :
    Keeps (commitLoaded s u) s := by
  unfold commitLoaded; refine ⟨?_, ?_, ?_⟩ <;> (try dsimp only) <;> (repeat' split) <;> simp_all

@[simp] theorem kept_scrubBad (s : State) (r : Nat) (f : W64) (lost : List Nat) (src psrc : Nat) :
    Keeps (scrubBad s r f lost src psrc) s := by
  unfold scrubBad; refine ⟨?_, ?_, ?_⟩ <;> (try dsimp only) <;> (repeat' split) <;> simp_all

@[simp] theorem kept_scrubNext (s : State) (p c : Nat) :
    Keeps (scrubNext s p c) s := by
  unfold scrubNext; refine ⟨?_, ?_, ?_⟩ <;> (try dsimp only) <;> (repeat' split) <;> simp_all

@[simp] theorem kept_refreshRecord (s : State) (r : Nat) (rung bits n : Nat) (f : W64) :
    Keeps (refreshRecord s r rung bits n f) s := by
  unfold refreshRecord; refine ⟨?_, ?_, ?_⟩ <;> (try dsimp only) <;> (repeat' split) <;> simp_all

@[simp] theorem kept_noteRefresh (s : State) (r : Nat) (rung bits : Nat) (f : W64) :
    Keeps (noteRefresh s r rung bits f) s := by
  unfold noteRefresh; refine ⟨?_, ?_, ?_⟩ <;> (try dsimp only) <;> (repeat' split) <;> simp_all

@[simp] theorem kept_gradePage (s : State) (p c : Nat) (f : W64) :
    Keeps (gradePage s p c f) s := by
  unfold gradePage; refine ⟨?_, ?_, ?_⟩ <;> (try dsimp only) <;> (repeat' split) <;> simp_all

@[simp] theorem kept_endScrub (s : State) (p c : Nat) :
    Keeps (endScrub s p c) s := by
  unfold endScrub; refine ⟨?_, ?_, ?_⟩ <;> (try dsimp only) <;> (repeat' split) <;> simp_all

@[simp] theorem kept_assessPage (s : State) (p c : Nat) :
    Keeps (assessPage s p c) s := by
  unfold assessPage; refine ⟨?_, ?_, ?_⟩ <;> (try dsimp only) <;> (repeat' split) <;> simp_all

@[simp] theorem kept_moveWordline (s : State) (m : Move) :
    Keeps (moveWordline s m) s := by
  unfold moveWordline; refine ⟨?_, ?_, ?_⟩ <;> (try dsimp only) <;> (repeat' split) <;> simp_all

@[simp] theorem kept_moveLoaded (s : State) (p c : Nat) :
    Keeps (moveLoaded s p c) s := by
  unfold moveLoaded; refine ⟨?_, ?_, ?_⟩ <;> (try dsimp only) <;> (repeat' split) <;> simp_all

@[simp] theorem kept_endRead (s : State) (p c : Nat) :
    Keeps (endRead s p c) s := by
  have h0 : Keeps (countOps (releaseHits s p c) (p / 4) (ctxOf s p c)) s := keeps_trans (kept_countOps _ _ _) (kept_releaseHits _ _ _)
  unfold endRead
  dsimp only
  refine keeps_ite _ (kept_modCtx _ _ _ _) (keeps_ite _ (kept_moveLoaded _ _ _) ?_)
  generalize countOps (releaseHits s p c) (p / 4) (ctxOf s p c) = t at h0 ⊢
  have h1 : ∀ (b : Prop) [Decidable b], Keeps (if b then mapDemand t p c else t) s := fun b _ => keeps_ite _ (keeps_trans (kept_mapDemand _ _ _) h0) h0
  generalize hu : (if (ctxOf s p c).desc.q ≠ 0xFFFF ∧ (isRead (ctxOf s p c).desc.op ∨ (ctxOf s p c).desc.op = 0x08) then mapDemand t p c else t) = u
  have h2 : Keeps u s := hu ▸ h1 _
  refine keeps_trans ?_ h2
  (repeat' split) <;> refine ⟨?_, ?_, ?_⟩ <;> simp

@[simp] theorem kept_afterLines (s : State) (p c : Nat) :
    Keeps (afterLines s p c) s := by
  unfold afterLines; refine ⟨?_, ?_, ?_⟩ <;> (try dsimp only) <;> (repeat' split) <;> simp_all

@[simp] theorem kept_ladderEnd (s : State) (l : Nat) (x : Ladder) :
    Keeps (ladderEnd s l x) s := by
  unfold ladderEnd; refine ⟨?_, ?_, ?_⟩ <;> (try dsimp only) <;> (repeat' split) <;> simp_all

@[simp] theorem kept_leaveLadder (s : State) (l c : Nat) :
    Keeps (leaveLadder s l c) s := by
  unfold leaveLadder; refine ⟨?_, ?_, ?_⟩ <;> (try dsimp only) <;> (repeat' split) <;> simp_all

@[simp] theorem kept_endUnit (s : State) (u : Nat) :
    Keeps (endUnit s u) s := by
  unfold endUnit; refine ⟨?_, ?_, ?_⟩ <;> (try dsimp only) <;> (repeat' split) <;> simp_all

@[simp] theorem kept_failDesc (s : State) (p c : Nat) (st : Status) :
    Keeps (failDesc s p c st) s := by
  unfold failDesc; refine ⟨?_, ?_, ?_⟩ <;> (try dsimp only) <;> (repeat' split) <;> simp_all

/-! ### Ladder -/

@[simp] theorem kept_talusWrite (s : State) (l blk step : Nat) :
    Keeps (talusWrite s l blk step) s := by
  unfold talusWrite; refine ⟨?_, ?_, ?_⟩ <;> (try dsimp only) <;> (repeat' split) <;> simp_all

@[simp] theorem kept_noteRung (s : State) (p c : Nat) (f : W64) (outer : Bool) (l : BitVec 528) :
    Keeps (noteRung s p c f outer l) s := by
  unfold noteRung; refine ⟨?_, ?_, ?_⟩ <;> (try dsimp only) <;> (repeat' split) <;> simp_all

@[simp] theorem kept_stageFor (s : State) (p c : Nat) (f : W64) (e : Nat) (soft : Nat) :
    Keeps (stageFor s p c f e soft) s := by
  unfold stageFor; refine ⟨?_, ?_, ?_⟩ <;> (try dsimp only) <;> (repeat' split) <;> simp_all

@[simp] theorem kept_literalOuter (s : State) (p c : Nat) (f : W64) :
    Keeps (literalOuter s p c f) s := by
  unfold literalOuter; refine ⟨?_, ?_, ?_⟩ <;> (try dsimp only) <;> (repeat' split) <;> simp_all

@[simp] theorem kept_stageRetry (s : State) (rg : Nat) :
    Keeps (stageRetry s rg) s := by
  unfold stageRetry; refine ⟨?_, ?_, ?_⟩ <;> (try dsimp only) <;> (repeat' split) <;> simp_all

@[simp] theorem kept_stageReady (s : State) (rg : Nat) :
    Keeps (stageReady s rg) s := by
  unfold stageReady; refine ⟨?_, ?_, ?_⟩ <;> (try dsimp only) <;> (repeat' split) <;> simp_all

@[simp] theorem kept_stageData (s : State) (p c : Nat) (f : W64) (n : Nat) (l : Option (BitVec 528)) :
    Keeps (stageData s p c f n l) s := by
  unfold stageData; refine ⟨?_, ?_, ?_⟩ <;> (try dsimp only) <;> (repeat' split) <;> simp_all

@[simp] theorem kept_stageParity (s : State) (p c : Nat) (f : W64) (u : Nat) (l : BitVec 528) :
    Keeps (stageParity s p c f u l) s := by
  unfold stageParity; refine ⟨?_, ?_, ?_⟩ <;> (try dsimp only) <;> (repeat' split) <;> simp_all

@[simp] theorem kept_stageSoft (s : State) (p c : Nat) (f : W64) (n : Nat) (raw : Slot) :
    Keeps (stageSoft s p c f n raw) s := by
  unfold stageSoft; refine ⟨?_, ?_, ?_⟩ <;> (try dsimp only) <;> (repeat' split) <;> simp_all

@[simp] theorem kept_loseLines (s : State) (p c : Nat) (f : W64) :
    Keeps (loseLines s p c f) s := by
  unfold loseLines; refine ⟨?_, ?_, ?_⟩ <;> (try dsimp only) <;> (repeat' split) <;> simp_all

@[simp] theorem kept_ladderGo (s : State) (l : Nat) (x : Ladder) :
    Keeps (ladderGo s l x) s := by
  unfold ladderGo; refine ⟨?_, ?_, ?_⟩ <;> (try dsimp only) <;> (repeat' split) <;> simp_all

@[simp] theorem kept_ladderWaiting (s : State) (l : Nat) :
    Keeps (ladderWaiting s l) s := by
  unfold ladderWaiting; refine ⟨?_, ?_, ?_⟩ <;> (try dsimp only) <;> (repeat' split) <;> simp_all

@[simp] theorem kept_takeRung (y : Ladder) (f : W64) (s : State) (c : Nat) :
    Keeps (takeRung y f s c) s := by
  unfold takeRung; refine ⟨?_, ?_, ?_⟩ <;> (try dsimp only) <;> (repeat' split) <;> simp_all

@[simp] theorem kept_ladderLost (s : State) (l : Nat) (x : Ladder) :
    Keeps (ladderLost s l x) s := by
  unfold ladderLost; refine ⟨?_, ?_, ?_⟩ <;> (try dsimp only) <;> (repeat' split) <;> simp_all

@[simp] theorem kept_ladderNext (s : State) (l : Nat) (x : Ladder) :
    Keeps (ladderNext s l x) s := by
  have hl : Keeps (ladderLost s l x) s := kept_ladderLost s l x
  unfold ladderNext
  dsimp only
  refine keeps_ite _ (kept_ladderGo _ _ _) ?_
  split
  · exact kept_ladderGo _ _ _
  · split
    · exact keeps_ite _ (kept_ladderGo _ _ _) hl
    · exact hl

@[simp] theorem kept_afterAll (s : State) (p : Nat) (cs : List Nat) :
    Keeps (afterAll s p cs) s := by
  unfold afterAll; refine ⟨?_, ?_, ?_⟩ <;> (try dsimp only) <;> (repeat' split) <;> simp_all

@[simp] theorem kept_joinLadder (s : State) (l c : Nat) (f : W64) (y : Ladder) :
    Keeps (joinLadder s l c f y) s := by
  unfold joinLadder; refine ⟨?_, ?_, ?_⟩ <;> (try dsimp only) <;> (repeat' split) <;> simp_all

@[simp] theorem kept_climb (s : State) (p c : Nat) (f : W64) :
    Keeps (climb s p c f) s := by
  unfold climb; refine ⟨?_, ?_, ?_⟩ <;> (try dsimp only) <;> (repeat' split) <;> simp_all

@[simp] theorem kept_ladderCheck (s : State) (p c : Nat) (f : W64) :
    Keeps (ladderCheck s p c f) s := by
  unfold ladderCheck; refine ⟨?_, ?_, ?_⟩ <;> (try dsimp only) <;> (repeat' split) <;> simp_all

@[simp] theorem kept_climbWaiting (s : State) (l : Nat) :
    Keeps (climbWaiting s l) s := by
  unfold climbWaiting; refine ⟨?_, ?_, ?_⟩ <;> (try dsimp only) <;> (repeat' split) <;> simp_all

@[simp] theorem kept_lunFreed (s : State) (l : Nat) :
    Keeps (lunFreed s l) s := by
  unfold lunFreed; refine ⟨?_, ?_, ?_⟩ <;> (try dsimp only) <;> (repeat' split) <;> simp_all

@[simp] theorem kept_erasedSlot (s : State) (p c : Nat) (w : Want) :
    Keeps (erasedSlot s p c w) s := by
  unfold erasedSlot; refine ⟨?_, ?_, ?_⟩ <;> (try dsimp only) <;> (repeat' split) <;> simp_all

@[simp] theorem kept_failedSlot (s : State) (p c : Nat) (w : Want) :
    Keeps (failedSlot s p c w) s := by
  unfold failedSlot; refine ⟨?_, ?_, ?_⟩ <;> (try dsimp only) <;> (repeat' split) <;> simp_all

@[simp] theorem kept_pullAgain (s : State) (p c : Nat) (f : W64) (n : Nat) :
    Keeps (pullAgain s p c f n) s := by
  unfold pullAgain; refine ⟨?_, ?_, ?_⟩ <;> (try dsimp only) <;> (repeat' split) <;> simp_all

@[simp] theorem kept_placeSlot (s : State) (p c : Nat) (f : W64) (n : Nat) (erased : Bool) (r : Inner × BitVec 528) :
    Keeps (placeSlot s p c f n erased r) s := by
  unfold placeSlot; refine ⟨?_, ?_, ?_⟩ <;> (try dsimp only) <;> (repeat' split) <;> simp_all

@[simp] theorem kept_dataSlot (s : State) (p c : Nat) (f : W64) (n : Nat) (raw : Slot) :
    Keeps (dataSlot s p c f n raw) s := by
  unfold dataSlot; refine ⟨?_, ?_, ?_⟩ <;> (try dsimp only) <;> (repeat' split) <;> simp_all

@[simp] theorem kept_headerSlot (s : State) (p c : Nat) (f : W64) (raw : Slot) (rest : List Byte) :
    Keeps (headerSlot s p c f raw rest) s := by
  unfold headerSlot
  exact keeps_trans (keeps_foldl _ (fun _ _ => kept_erasedSlot _ _ _ _) _ _) (kept_modCtx _ _ _ _)

@[simp] theorem kept_moveHeaders (s : State) (p c : Nat) :
    Keeps (moveHeaders s p c) s := by
  unfold moveHeaders; refine ⟨?_, ?_, ?_⟩ <;> (try dsimp only) <;> (repeat' split) <;> simp_all

@[simp] theorem kept_softStage (s : State) (p c : Nat) (u : Pull) (raw : Slot) (n : Nat) :
    Keeps (softStage s p c u raw n) s := by
  unfold softStage; refine ⟨?_, ?_, ?_⟩ <;> (try dsimp only) <;> (repeat' split) <;> simp_all

@[simp] theorem kept_softNext (s : State) (p : Nat) (u : Pull) (n : Nat) :
    Keeps (softNext s p u n) s := by
  unfold softNext; refine ⟨?_, ?_, ?_⟩ <;> (try dsimp only) <;> (repeat' split) <;> simp_all

@[simp] theorem kept_softSlot (s : State) (p c : Nat) (u : Pull) (raw : Slot) :
    Keeps (softSlot s p c u raw) s := by
  unfold softSlot; refine ⟨?_, ?_, ?_⟩ <;> (try dsimp only) <;> (repeat' split) <;> simp_all

@[simp] theorem kept_literalDeliver (s : State) (p c key bits : Nat) (outer : Bool) (l : BitVec 528) :
    Keeps (literalDeliver s p c key bits outer l) s := by
  unfold literalDeliver; refine ⟨?_, ?_, ?_⟩ <;> (try dsimp only) <;> (repeat' split) <;> simp_all

@[simp] theorem kept_literalSlot (s : State) (p c : Nat) (u : Pull) (raw : Slot) (rest : List Byte) :
    Keeps (literalSlot s p c u raw rest) s := by
  unfold literalSlot; refine ⟨?_, ?_, ?_⟩ <;> (try dsimp only) <;> (repeat' split) <;> simp_all

@[simp] theorem kept_literalDecoded (s : State) (t : Stage) (r : Option (List (BitVec 528))) (fixed : List Nat) :
    Keeps (literalDecoded s t r fixed) s := by
  unfold literalDecoded; refine ⟨?_, ?_, ?_⟩ <;> (try dsimp only) <;> (repeat' split) <;> simp_all

@[simp] theorem kept_slotFor (p : Nat) (raw : Slot) (rest : List Byte) (s : State) (u : Pull) :
    Keeps (slotFor p raw rest s u) s := by
  unfold slotFor; refine ⟨?_, ?_, ?_⟩ <;> (try dsimp only) <;> (repeat' split) <;> simp_all

@[simp] theorem kept_takeSlot (s : State) (p k : Nat) (raw : Slot) (rest : List Byte) :
    Keeps (takeSlot s p k raw rest) s := by
  unfold takeSlot; refine ⟨?_, ?_, ?_⟩ <;> (try dsimp only) <;> (repeat' split) <;> simp_all

@[simp] theorem kept_deliverStaged (t : Stage) (r : Option (List (BitVec 528))) (passed : List (Nat × Nat × BitVec 528)) (s : State) (w : Want) :
    Keeps (deliverStaged t r passed s w) s := by
  unfold deliverStaged; refine ⟨?_, ?_, ?_⟩ <;> (try dsimp only) <;> (repeat' split) <;> simp_all

@[simp] theorem kept_redeliver (t : Stage) (ls : List (BitVec 528)) (s : State) (w : Want) :
    Keeps (redeliver t ls s w) s := by
  unfold redeliver; refine ⟨?_, ?_, ?_⟩ <;> (try dsimp only) <;> (repeat' split) <;> simp_all

@[simp] theorem kept_deliverStage (s : State) (t : Stage) (r : Option (List (BitVec 528))) (fixed : List Nat) (passed : List (Nat × Nat × BitVec 528)) :
    Keeps (deliverStage s t r fixed passed) s := by
  unfold deliverStage; refine ⟨?_, ?_, ?_⟩ <;> (try dsimp only) <;> (repeat' split) <;> simp_all

@[simp] theorem kept_finishDecode (s : State) (island k : Nat) (t : Stage) (data : List (Option (BitVec 528))) (passed : List (Nat × Nat × BitVec 528)) :
    Keeps (finishDecode s island k t data passed) s := by
  unfold finishDecode; refine ⟨?_, ?_, ?_⟩ <;> (try dsimp only) <;> (repeat' split) <;> simp_all

@[simp] theorem kept_thresholdsStand (s : State) (l : Nat) (y : Ladder) :
    Keeps (thresholdsStand s l y) s := by
  unfold thresholdsStand; refine ⟨?_, ?_, ?_⟩ <;> (try dsimp only) <;> (repeat' split) <;> simp_all

@[simp] theorem kept_retryContent (s : State) (l : Nat) (y : Ladder) :
    Keeps (retryContent s l y) s := by
  unfold retryContent; refine ⟨?_, ?_, ?_⟩ <;> (try dsimp only) <;> (repeat' split) <;> simp_all

@[simp] theorem kept_softContent (s : State) (l : Nat) (y : Ladder) :
    Keeps (softContent s l y) s := by
  unfold softContent; refine ⟨?_, ?_, ?_⟩ <;> (try dsimp only) <;> (repeat' split) <;> simp_all

@[simp] theorem kept_finishLoad (s : State) (l : Nat) (planes held : List Nat) :
    Keeps (finishLoad s l planes held) s := by
  unfold finishLoad; refine ⟨?_, ?_, ?_⟩ <;> (try dsimp only) <;> (repeat' split) <;> simp_all

@[simp] theorem kept_ladderContent (s : State) (l : Nat) (soft : Bool) :
    Keeps (ladderContent s l soft) s := by
  unfold ladderContent; refine ⟨?_, ?_, ?_⟩ <;> (try dsimp only) <;> (repeat' split) <;> simp_all

@[simp] theorem kept_talusRefresh (s : State) (p : Nat → Bool) :
    Keeps (talusRefresh s p) s := by
  unfold talusRefresh; refine ⟨?_, ?_, ?_⟩ <;> (try dsimp only) <;> (repeat' split) <;> simp_all

@[simp] theorem kept_talusLoad (s : State) (p : Nat → Bool) :
    Keeps (talusLoad s p) s := by
  unfold talusLoad; refine ⟨?_, ?_, ?_⟩ <;> (try dsimp only) <;> (repeat' split) <;> simp_all

@[simp] theorem kept_rebuildTables (s : State) :
    Keeps (rebuildTables s) s := by
  unfold rebuildTables; refine ⟨?_, ?_, ?_⟩ <;> (try dsimp only) <;> (repeat' split) <;> simp_all

end Sys2Proof.Machine
end

