-- ==== Sys2Proof/Laws/KeepsWork.lean ====
section
/-! SUPPORT. What the operations of programs, descriptors, erases and received frames keep: the queue, the block time, the resets and the port state. -/

namespace Sys2Proof.Machine

/-! ### Program -/

@[simp] theorem kept_dropWriter (s : State) (u q i : Nat) :
    Keeps (dropWriter s u q i) s := by
  unfold dropWriter; refine ⟨?_, ?_, ?_⟩ <;> (try dsimp only) <;> (repeat' split) <;> simp_all

@[simp] theorem kept_refundGranule (s : State) (u p : Nat) :
    Keeps (refundGranule s u p) s := by
  unfold refundGranule; refine ⟨?_, ?_, ?_⟩ <;> (try dsimp only) <;> (repeat' split) <;> simp_all

@[simp] theorem kept_storeFirst (s : State) (u : Nat) :
    Keeps (storeFirst s u) s := by
  unfold storeFirst; refine ⟨?_, ?_, ?_⟩ <;> (try dsimp only) <;> (repeat' split) <;> simp_all

@[simp] theorem kept_pageLoaded (s : State) (u : Nat) :
    Keeps (pageLoaded s u) s := by
  unfold pageLoaded; refine ⟨?_, ?_, ?_⟩ <;> (try dsimp only) <;> (repeat' split) <;> simp_all

@[simp] theorem kept_gcmFree (s : State) (rg e : Nat) :
    Keeps (gcmFree s rg e) s := by
  unfold gcmFree; refine ⟨?_, ?_, ?_⟩ <;> (try dsimp only) <;> (repeat' split) <;> simp_all

@[simp] theorem kept_postDataIn (s : State) (l u : Nat) :
    Keeps (postDataIn s l u) s := by
  unfold postDataIn; refine ⟨?_, ?_, ?_⟩ <;> (try dsimp only) <;> (repeat' split) <;> simp_all

@[simp] theorem kept_startDataIn (s : State) (l u : Nat) :
    Keeps (startDataIn s l u) s := by
  unfold startDataIn; refine ⟨?_, ?_, ?_⟩ <;> (try dsimp only) <;> (repeat' split) <;> simp_all

@[simp] theorem kept_dataInAgain (s : State) (l : Nat) (reset : Bool) :
    Keeps (dataInAgain s l reset) s := by
  unfold dataInAgain; refine ⟨?_, ?_, ?_⟩ <;> (try dsimp only) <;> (repeat' split) <;> simp_all

@[simp] theorem kept_beginProgram (s : State) (u : Nat) :
    Keeps (beginProgram s u) s := by
  unfold beginProgram; refine ⟨?_, ?_, ?_⟩ <;> (try dsimp only) <;> (repeat' split) <;> simp_all

@[simp] theorem kept_settleCommit (s : State) (u : Nat) (st : Status) (f : W64) :
    Keeps (settleCommit s u st f) s := by
  unfold settleCommit; refine ⟨?_, ?_, ?_⟩ <;> (try dsimp only) <;> (repeat' split) <;> simp_all

@[simp] theorem kept_restoredNote (s : State) (u detail : Nat) :
    Keeps (restoredNote s u detail) s := by
  unfold restoredNote; refine ⟨?_, ?_, ?_⟩ <;> (try dsimp only) <;> (repeat' split) <;> simp_all

@[simp] theorem kept_unitProgrammed (failed : List (Nat × Nat)) (die : Option Status) (s : State) (u : Nat) :
    Keeps (unitProgrammed failed die s u) s := by
  unfold unitProgrammed; refine ⟨?_, ?_, ?_⟩ <;> (try dsimp only) <;> (repeat' split) <;> simp_all

@[simp] theorem kept_endProgram (s : State) (l : Nat) (failed : List (Nat × Nat)) (die : Option Status) :
    Keeps (endProgram s l failed die) s := by
  unfold endProgram; refine ⟨?_, ?_, ?_⟩ <;> (try dsimp only) <;> (repeat' split) <;> simp_all

@[simp] theorem kept_countProgramFail (s : State) (l : Nat) :
    Keeps (countProgramFail s l) s := by
  unfold countProgramFail; refine ⟨?_, ?_, ?_⟩ <;> (try dsimp only) <;> (repeat' split) <;> simp_all

@[simp] theorem kept_cutProgram (s : State) (l : Nat) (st : Status) :
    Keeps (cutProgram s l st) s := by
  unfold cutProgram; refine ⟨?_, ?_, ?_⟩ <;> (try dsimp only) <;> (repeat' split) <;> simp_all

@[simp] theorem kept_programResult (s : State) (l mask : Nat) (byte : Byte) :
    Keeps (programResult s l mask byte) s := by
  unfold programResult; refine ⟨?_, ?_, ?_⟩ <;> (try dsimp only) <;> (repeat' split) <;> simp_all

/-! ### Pop -/

@[simp] theorem kept_serveUnit (s : State) (p c u : Nat) (ws : List Want) :
    Keeps (serveUnit s p c u ws) s := by
  unfold serveUnit; refine ⟨?_, ?_, ?_⟩ <;> (try dsimp only) <;> (repeat' split) <;> simp_all

@[simp] theorem kept_serveFill (s : State) (p c : Nat) (ws : List Want) :
    Keeps (serveFill s p c ws) s := by
  unfold serveFill; refine ⟨?_, ?_, ?_⟩ <;> (try dsimp only) <;> (repeat' split) <;> simp_all

@[simp] theorem kept_dropBodies (s : State) (p : Nat) (d : Desc) (ws : List Want) :
    Keeps (dropBodies s p d ws) s := by
  unfold dropBodies; refine ⟨?_, ?_, ?_⟩ <;> (try dsimp only) <;> (repeat' split) <;> simp_all

@[simp] theorem kept_mergeMapped (p c : Nat) (s : State) (w : Want) :
    Keeps (mergeMapped p c s w) s := by
  unfold mergeMapped; refine ⟨?_, ?_, ?_⟩ <;> (try dsimp only) <;> (repeat' split) <;> simp_all

@[simp] theorem kept_sourcePage (p c : Nat) (s : State) (page : Nat) :
    Keeps (sourcePage p c s page) s := by
  unfold sourcePage; refine ⟨?_, ?_, ?_⟩ <;> (try dsimp only) <;> (repeat' split) <;> simp_all

@[simp] theorem kept_beginRead (s : State) (p c : Nat) :
    Keeps (beginRead s p c) s := by
  unfold beginRead; refine ⟨?_, ?_, ?_⟩ <;> (try dsimp only) <;> (repeat' split) <;> simp_all

@[simp] theorem kept_checkPassed (s : State) (p c : Nat) :
    Keeps (checkPassed s p c) s := by
  unfold checkPassed; refine ⟨?_, ?_, ?_⟩ <;> (try dsimp only) <;> (repeat' split) <;> simp_all

@[simp] theorem kept_checkFailed (s : State) (p c : Nat) (st : Status) :
    Keeps (checkFailed s p c st) s := by
  unfold checkFailed; refine ⟨?_, ?_, ?_⟩ <;> (try dsimp only) <;> (repeat' split) <;> simp_all

@[simp] theorem kept_runCheck (s : State) (p c : Nat) :
    Keeps (runCheck s p c) s := by
  unfold runCheck; refine ⟨?_, ?_, ?_⟩ <;> (try dsimp only) <;> (repeat' split) <;> simp_all

@[simp] theorem kept_queueErase (s : State) (c : Nat) (who : EraseFor) (d : Desc) :
    Keeps (queueErase s c who d) s := by
  unfold queueErase; refine ⟨?_, ?_, ?_⟩ <;> (try dsimp only) <;> (repeat' split) <;> simp_all

@[simp] theorem kept_startDesc (s : State) (p c : Nat) :
    Keeps (startDesc s p c) s := by
  unfold startDesc; refine ⟨?_, ?_, ?_⟩ <;> (try dsimp only) <;> (repeat' split) <;> simp_all

@[simp] theorem kept_popInto (s : State) (p c : Nat) :
    Keeps (popInto s p c) s := by
  unfold popInto; refine ⟨?_, ?_, ?_⟩ <;> (try dsimp only) <;> (repeat' split) <;> simp_all

@[simp] theorem kept_failErase (s : State) (l : Nat) (st : Status) :
    Keeps (failErase s l st) s := by
  unfold failErase; refine ⟨?_, ?_, ?_⟩ <;> (try dsimp only) <;> (repeat' split) <;> simp_all

@[simp] theorem kept_failOp (l : Nat) (s : State) (x : Busy × Status) :
    Keeps (failOp l s x) s := by
  unfold failOp; refine ⟨?_, ?_, ?_⟩ <;> (try dsimp only) <;> (repeat' split) <;> simp_all

@[simp] theorem kept_dieFail (s : State) (l cause : Nat) :
    Keeps (dieFail s l cause) s := by
  unfold dieFail; refine ⟨?_, ?_, ?_⟩ <;> (try dsimp only) <;> (repeat' split) <;> simp_all

@[simp] theorem kept_tagRecord (s : State) (d : Desc) (f g : W64) :
    Keeps (tagRecord s d f g) s := by
  unfold tagRecord; refine ⟨?_, ?_, ?_⟩ <;> (try dsimp only) <;> (repeat' split) <;> simp_all

@[simp] theorem kept_countTimeout (s : State) (l : Nat) :
    Keeps (countTimeout s l) s := by
  unfold countTimeout; refine ⟨?_, ?_, ?_⟩ <;> (try dsimp only) <;> (repeat' split) <;> simp_all

@[simp] theorem kept_latchDie (s : State) (l : Nat) (byte : Byte) :
    Keeps (latchDie s l byte) s := by
  unfold latchDie; refine ⟨?_, ?_, ?_⟩ <;> (try dsimp only) <;> (repeat' split) <;> simp_all

@[simp] theorem kept_invalidStatus (s : State) (l : Nat) :
    Keeps (invalidStatus s l) s := by
  unfold invalidStatus; refine ⟨?_, ?_, ?_⟩ <;> (try dsimp only) <;> (repeat' split) <;> simp_all

theorem kept_dieResult (s : State) (l : Nat) (byte : Byte) (f : State → State) (h : ∀ t, Keeps (f t) t) :
    Keeps (dieResult s l byte f) s := by
  unfold dieResult; refine ⟨?_, ?_, ?_⟩ <;> (try dsimp only) <;> (repeat' split) <;> simp [(h _).1, (h _).2]

@[simp] theorem kept_pollReady (s : State) (l : Nat) :
    Keeps (pollReady s l) s := by
  unfold pollReady; refine ⟨?_, ?_, ?_⟩ <;> (try dsimp only) <;> (repeat' split) <;> simp_all

@[simp] theorem kept_resumeLun (s : State) (l : Nat) :
    Keeps (resumeLun s l) s := by
  unfold resumeLun; refine ⟨?_, ?_, ?_⟩ <;> (try dsimp only) <;> (repeat' split) <;> simp_all

@[simp] theorem kept_rdataAnswer (s : State) (r : FabReq) (q i : Nat) (err : Bool) :
    Keeps (rdataAnswer s r q i err) s := by
  unfold rdataAnswer; refine ⟨?_, ?_, ?_⟩ <;> (try dsimp only) <;> (repeat' split) <;> simp_all

@[simp] theorem kept_featureGo (s : State) (p c : Nat) (cycles : List BusCyc) :
    Keeps (featureGo s p c cycles) s := by
  unfold featureGo; refine ⟨?_, ?_, ?_⟩ <;> (try dsimp only) <;> (repeat' split) <;> simp_all

@[simp] theorem kept_featureEnd (s : State) (p c : Nat) (v : Nat) :
    Keeps (featureEnd s p c v) s := by
  unfold featureEnd; refine ⟨?_, ?_, ?_⟩ <;> (try dsimp only) <;> (repeat' split) <;> simp_all

@[simp] theorem kept_featureGet (s : State) (p c : Nat) (v : BitVec 32) :
    Keeps (featureGet s p c v) s := by
  unfold featureGet; refine ⟨?_, ?_, ?_⟩ <;> (try dsimp only) <;> (repeat' split) <;> simp_all

@[simp] theorem kept_featureSet (s : State) (p c : Nat) :
    Keeps (featureSet s p c) s := by
  unfold featureSet; refine ⟨?_, ?_, ?_⟩ <;> (try dsimp only) <;> (repeat' split) <;> simp_all

/-! ### Erase -/

@[simp] theorem kept_switchFirst (s : State) (l : Nat) (j : EraseJob) :
    Keeps (switchFirst s l j) s := by
  unfold switchFirst; refine ⟨?_, ?_, ?_⟩ <;> (try dsimp only) <;> (repeat' split) <;> simp_all

@[simp] theorem kept_eraseIssue (s : State) (l : Nat) :
    Keeps (eraseIssue s l) s := by
  unfold eraseIssue; refine ⟨?_, ?_, ?_⟩ <;> (try dsimp only) <;> (repeat' split) <;> simp_all

@[simp] theorem kept_markerFailed (s : State) (l byte kind region : Nat) :
    Keeps (markerFailed s l byte kind region) s := by
  unfold markerFailed; refine ⟨?_, ?_, ?_⟩ <;> (try dsimp only) <;> (repeat' split) <;> simp_all

@[simp] theorem kept_intentResult (s : State) (l : Nat) (byte : Byte) :
    Keeps (intentResult s l byte) s := by
  unfold intentResult; refine ⟨?_, ?_, ?_⟩ <;> (try dsimp only) <;> (repeat' split) <;> simp_all

@[simp] theorem kept_eraseResult (s : State) (l failMask : Nat) (byte : Byte) :
    Keeps (eraseResult s l failMask byte) s := by
  unfold eraseResult; refine ⟨?_, ?_, ?_⟩ <;> (try dsimp only) <;> (repeat' split) <;> simp_all

@[simp] theorem kept_doneResult (s : State) (l : Nat) (byte : Byte) :
    Keeps (doneResult s l byte) s := by
  unfold doneResult; refine ⟨?_, ?_, ?_⟩ <;> (try dsimp only) <;> (repeat' split) <;> simp_all

@[simp] theorem kept_probeEnded (s : State) (l p c : Nat) (zeros : List Nat) :
    Keeps (probeEnded s l p c zeros) s := by
  unfold probeEnded; refine ⟨?_, ?_, ?_⟩ <;> (try dsimp only) <;> (repeat' split) <;> simp_all

@[simp] theorem kept_probeRestore (s : State) (l region block : Nat) :
    Keeps (probeRestore s l region block) s := by
  unfold probeRestore; refine ⟨?_, ?_, ?_⟩ <;> (try dsimp only) <;> (repeat' split) <;> simp_all

@[simp] theorem kept_probeResult (s : State) (l : Nat) (zeros : List Nat) :
    Keeps (probeResult s l zeros) s := by
  unfold probeResult; refine ⟨?_, ?_, ?_⟩ <;> (try dsimp only) <;> (repeat' split) <;> simp_all

@[simp] theorem kept_remapOpen (s : State) (r l : Nat) :
    Keeps (remapOpen s r l) s := by
  unfold remapOpen; refine ⟨?_, ?_, ?_⟩ <;> (try dsimp only) <;> (repeat' split) <;> simp_all

@[simp] theorem kept_commitMove (s : State) (m : Move) :
    Keeps (commitMove s m) s := by
  unfold commitMove; refine ⟨?_, ?_, ?_⟩ <;> (try dsimp only) <;> (repeat' split) <;> simp_all

@[simp] theorem kept_sectorChecked (s : State) (p c : Nat) (j : GcmJob) (reason : Nat) :
    Keeps (sectorChecked s p c j reason) s := by
  unfold sectorChecked; refine ⟨?_, ?_, ?_⟩ <;> (try dsimp only) <;> (repeat' split) <;> simp_all

/-! ### ColRx -/

@[simp] theorem kept_degradeRegion (s : State) (r pos cause : Nat) :
    Keeps (degradeRegion s r pos cause) s := by
  unfold degradeRegion; refine ⟨?_, ?_, ?_⟩ <;> (try dsimp only) <;> (repeat' split) <;> simp_all

@[simp] theorem kept_detachRegion (s : State) (r l pos cause : Nat) :
    Keeps (detachRegion s r l pos cause) s := by
  unfold detachRegion; refine ⟨?_, ?_, ?_⟩ <;> (try dsimp only) <;> (repeat' split) <;> simp_all

@[simp] theorem kept_linkDown (s : State) (l state cause pos nak : Nat) :
    Keeps (linkDown s l state cause pos nak) s := by
  unfold linkDown; refine ⟨?_, ?_, ?_⟩ <;> (try dsimp only) <;> (repeat' split) <;> simp_all

@[simp] theorem kept_linkFail (s : State) (l cause pos nak : Nat) :
    Keeps (linkFail s l cause pos nak) s := by
  unfold linkFail; refine ⟨?_, ?_, ?_⟩ <;> (try dsimp only) <;> (repeat' split) <;> simp_all

@[simp] theorem kept_enableLink (s : State) (l : Nat) :
    Keeps (enableLink s l) s := by
  unfold enableLink; refine ⟨?_, ?_, ?_⟩ <;> (try dsimp only) <;> (repeat' split) <;> simp_all

@[simp] theorem kept_disableLink (s : State) (l : Nat) :
    Keeps (disableLink s l) s := by
  unfold disableLink; refine ⟨?_, ?_, ?_⟩ <;> (try dsimp only) <;> (repeat' split) <;> simp_all

@[simp] theorem kept_rxFrame (s : State) (l kind : Nat) (flit : Flit) (n : Nat) (data : List Flit) (tail : Flit) (apply : State → State)
    (h : ∀ t, Keeps (apply t) t) : Keeps (rxFrame s l kind flit n data tail apply) s := by
  have h1 := fun t => (h t).1
  have h2 := fun t => (h t).2
  unfold rxFrame
  dsimp only
  refine ⟨?_, ?_⟩ <;> (repeat' split) <;> simp [h1, h2]

@[simp] theorem kept_refuseFrame (s : State) (l seq cause : Nat) :
    Keeps (refuseFrame s l seq cause) s := by
  unfold refuseFrame; refine ⟨?_, ?_, ?_⟩ <;> (try dsimp only) <;> (repeat' split) <;> simp_all

@[simp] theorem kept_acceptFrame (s : State) (l r : Nat) (flit : Flit) (rest : List (Nat × Flit)) (heldNow : Bool) :
    Keeps (acceptFrame s l r flit rest heldNow) s := by
  unfold acceptFrame; refine ⟨?_, ?_, ?_⟩ <;> (try dsimp only) <;> (repeat' split) <;> simp_all

@[simp] theorem kept_reattach (s : State) (r : Nat) :
    Keeps (reattach s r) s := by
  unfold reattach; refine ⟨?_, ?_, ?_⟩ <;> (try dsimp only) <;> (repeat' split) <;> simp_all

@[simp] theorem kept_withMember (l : Nat) (flit : Flit) (s : State) (act : Nat → State → State) (h : ∀ r u, Keeps (act r u) u) :
    Keeps (withMember l flit s act) s := by
  unfold withMember
  split
  · exact kept_refuseFrame _ _ _ _
  · exact keeps_ite _ (keeps_trans (kept_refuseFrame _ _ _ _) (kept_reattach _ _)) (keeps_trans (h _ _) (kept_reattach _ _))

@[simp] theorem kept_memberOpen (s : State) (l r : Nat) (kind : UKind) (op : Nat) (f : W64) (num seq : Nat) (h : BitVec 32) :
    Keeps (memberOpen s l r kind op f num seq h).1 s := by
  unfold memberOpen; refine ⟨?_, ?_, ?_⟩ <;> (try dsimp only) <;> (repeat' split) <;> simp_all

@[simp] theorem kept_openTaken (l : Nat) (flit : Flit) (s : State) :
    Keeps (openTaken l flit s) s := by
  unfold openTaken
  refine kept_withMember _ _ _ _ (fun r u => ?_)
  refine ⟨?_, ?_, ?_⟩ <;> (try dsimp only) <;> (repeat' split) <;> simp_all

@[simp] theorem kept_lineTaken (l : Nat) (flit : Flit) (s : State) :
    Keeps (lineTaken l flit s) s := by
  unfold lineTaken
  refine kept_withMember _ _ _ _ (fun r u => ?_)
  refine ⟨?_, ?_, ?_⟩ <;> (try dsimp only) <;> (repeat' split) <;> simp_all

@[simp] theorem kept_commitTaken (l : Nat) (flit : Flit) (s : State) :
    Keeps (commitTaken l flit s) s := by
  unfold commitTaken
  refine kept_withMember _ _ _ _ (fun r u => ?_)
  refine ⟨?_, ?_, ?_⟩ <;> (try dsimp only) <;> (repeat' split) <;> simp_all

@[simp] theorem kept_discardTaken (l : Nat) (flit : Flit) (s : State) :
    Keeps (discardTaken l flit s) s := by
  unfold discardTaken
  refine kept_withMember _ _ _ _ (fun r u => ?_)
  refine ⟨?_, ?_, ?_⟩ <;> (try dsimp only) <;> (repeat' split) <;> simp_all

@[simp] theorem kept_pageStored (s : State) (u p seq : Nat) (data : List Flit) :
    Keeps (pageStored s u p seq data) s := by
  unfold pageStored; refine ⟨?_, ?_, ?_⟩ <;> (try dsimp only) <;> (repeat' split) <;> simp_all

@[simp] theorem kept_pageData (l : Nat) (flit : Flit) (data : List Flit) (_tail : Flit) (s : State) :
    Keeps (pageData l flit data _tail s) s := by
  unfold pageData
  refine kept_withMember _ _ _ _ (fun r u => ?_)
  refine ⟨?_, ?_, ?_⟩ <;> (try dsimp only) <;> (repeat' split) <;> simp_all

@[simp] theorem kept_memberPush (s : State) (d : Desc) :
    Keeps (memberPush s d) s := by
  unfold memberPush; refine ⟨?_, ?_, ?_⟩ <;> (try dsimp only) <;> (repeat' split) <;> simp_all

@[simp] theorem kept_eraseTaken (l : Nat) (flit : Flit) (s : State) :
    Keeps (eraseTaken l flit s) s := by
  unfold eraseTaken
  refine kept_withMember _ _ _ _ (fun r u => ?_)
  refine ⟨?_, ?_, ?_⟩ <;> (try dsimp only) <;> (repeat' split) <;> simp_all

@[simp] theorem kept_copyTaken (l : Nat) (flit : Flit) (s : State) :
    Keeps (copyTaken l flit s) s := by
  unfold copyTaken
  refine kept_withMember _ _ _ _ (fun r u => ?_)
  refine ⟨?_, ?_, ?_⟩ <;> (try dsimp only) <;> (repeat' split) <;> simp_all

@[simp] theorem kept_degradeTaken (l : Nat) (flit : Flit) (s : State) :
    Keeps (degradeTaken l flit s) s := by
  unfold degradeTaken; refine ⟨?_, ?_, ?_⟩ <;> (try dsimp only) <;> (repeat' split) <;> simp_all

@[simp] theorem kept_takeUpward (s : State) (l : Nat) :
    Keeps (takeUpward s l) s := by
  unfold takeUpward; refine ⟨?_, ?_, ?_⟩ <;> (try dsimp only) <;> (repeat' split) <;> simp_all

@[simp] theorem kept_enterRequest (s : State) (r : Nat) (f : W64) (id : BitVec 32) (fromUp : Bool) (l : Nat) :
    Keeps (enterRequest s r f id fromUp l).1 s := by
  unfold enterRequest; refine ⟨?_, ?_, ?_⟩ <;> (try dsimp only) <;> (repeat' split) <;> simp_all

@[simp] theorem kept_requestTaken (l : Nat) (flit : Flit) (s : State) :
    Keeps (requestTaken l flit s) s := by
  unfold requestTaken
  dsimp only
  split
  · refine ⟨?_, ?_⟩ <;> (repeat' split) <;> simp_all
  · refine kept_withMember _ _ _ _ (fun r u => ?_)
    refine ⟨?_, ?_, ?_⟩ <;> (try dsimp only) <;> (repeat' split) <;> simp_all

@[simp] theorem kept_landRepair (s : State) (l r : Nat) (q : RepReq) (ls : List (BitVec 528)) :
    Keeps (landRepair s l r q ls) s := by
  unfold landRepair; refine ⟨?_, ?_, ?_⟩ <;> (try dsimp only) <;> (repeat' split) <;> simp_all

@[simp] theorem kept_repairHere (s : State) (l r : Nat) (flit : Flit) (data : List Flit) :
    Keeps (repairHere s l r flit data).1 s := by
  unfold repairHere; refine ⟨?_, ?_, ?_⟩ <;> (try dsimp only) <;> (repeat' split) <;> simp_all

@[simp] theorem kept_pushTaken (s : State) (l r : Nat) (flit : Flit) (data : List Flit) (rest : List (Nat × Flit)) :
    Keeps (pushTaken s l r flit data rest) s := by
  unfold pushTaken; refine ⟨?_, ?_, ?_⟩ <;> (try dsimp only) <;> (repeat' split) <;> simp_all

@[simp] theorem kept_repairTaken (l : Nat) (flit : Flit) (data : List Flit) (_tail : Flit) (s : State) :
    Keeps (repairTaken l flit data _tail s) s := by
  unfold repairTaken; refine ⟨?_, ?_, ?_⟩ <;> (try dsimp only) <;> (repeat' split) <;> simp_all

@[simp] theorem kept_replayFrom (s : State) (l seq : Nat) :
    Keeps (replayFrom s l seq) s := by
  unfold replayFrom; refine ⟨?_, ?_, ?_⟩ <;> (try dsimp only) <;> (repeat' split) <;> simp_all

@[simp] theorem kept_timerDone (l : Nat) (s : State) (t : HopTimer) :
    Keeps (timerDone l s t) s := by
  unfold timerDone; refine ⟨?_, ?_, ?_⟩ <;> (try dsimp only) <;> (repeat' split) <;> simp_all

@[simp] theorem kept_nakArrived (s : State) (l seq hops cause : Nat) :
    Keeps (nakArrived s l seq hops cause) s := by
  unfold nakArrived; refine ⟨?_, ?_, ?_⟩ <;> (try dsimp only) <;> (repeat' split) <;> simp_all

@[simp] theorem kept_ackTaken (s : State) (l : Nat) (f : Flit) :
    Keeps (ackTaken s l f) s := by
  unfold ackTaken; (try dsimp only); refine ⟨?_, ?_⟩ <;> simp <;> (repeat' split) <;> simp_all

@[simp] theorem kept_mirrorCtrl (s : State) (r v : Nat) :
    Keeps (mirrorCtrl s r v) s := by
  unfold mirrorCtrl; refine ⟨?_, ?_, ?_⟩ <;> (try dsimp only) <;> (repeat' split) <;> simp_all

end Sys2Proof.Machine
end

