-- ==== Sys2Proof/Laws/KeepsServe.lean ====
section
/-! SUPPORT. What the operations of the log, keys, engines, service and bring-up keep: the queue, the block time, the resets and the port state. -/

namespace Sys2Proof.Machine

/-! ### Cairn -/

@[simp] theorem kept_sendRing (s : State) (dst kind tag : Nat) (payload : List (BitVec 16)) :
    Keeps (sendRing s dst kind tag payload) s := by
  unfold sendRing; refine ⟨?_, ?_, ?_⟩ <;> (try dsimp only) <;> (repeat' split) <;> simp_all

@[simp] theorem kept_recordFrame (s : State) (dst kind : Nat) (w : W512) :
    Keeps (recordFrame s dst kind w) s := by
  unfold recordFrame; refine ⟨?_, ?_, ?_⟩ <;> (try dsimp only) <;> (repeat' split) <;> simp_all

@[simp] theorem kept_noticeFrame (s : State) (w : W512) :
    Keeps (noticeFrame s w) s := by
  unfold noticeFrame; refine ⟨?_, ?_, ?_⟩ <;> (try dsimp only) <;> (repeat' split) <;> simp_all

@[simp] theorem kept_sinkFrame (s : State) (w : W512) :
    Keeps (sinkFrame s w) s := by
  unfold sinkFrame; refine ⟨?_, ?_, ?_⟩ <;> (try dsimp only) <;> (repeat' split) <;> simp_all

@[simp] theorem kept_refillBuckets (s : State) :
    Keeps (refillBuckets s) s := by
  unfold refillBuckets; refine ⟨?_, ?_, ?_⟩ <;> (try dsimp only) <;> (repeat' split) <;> simp_all

@[simp] theorem kept_takeToken (s : State) (c : Nat) :
    Keeps (takeToken s c) s := by
  unfold takeToken; refine ⟨?_, ?_, ?_⟩ <;> (try dsimp only) <;> (repeat' split) <;> simp_all

@[simp] theorem kept_portSkip (s : State) :
    Keeps (portSkip s) s := by
  unfold portSkip; refine ⟨?_, ?_, ?_⟩ <;> (try dsimp only) <;> (repeat' split) <;> simp_all

@[simp] theorem kept_storeRecord (s : State) (w : W512) :
    Keeps (storeRecord s w) s := by
  unfold storeRecord; refine ⟨?_, ?_, ?_⟩ <;> (try dsimp only) <;> (repeat' split) <;> simp_all

@[simp] theorem kept_bypassTidy (s : State) :
    Keeps (bypassTidy s) s := by
  unfold bypassTidy; refine ⟨?_, ?_, ?_⟩ <;> (try dsimp only) <;> (repeat' split) <;> simp_all

@[simp] theorem kept_bypassSink (s : State) :
    Keeps (bypassSink s) s := by
  unfold bypassSink; refine ⟨?_, ?_, ?_⟩ <;> (try dsimp only) <;> (repeat' split) <;> simp_all

@[simp] theorem kept_bypassRecord (s : State) (w : W512) :
    Keeps (bypassRecord s w) s := by
  unfold bypassRecord; refine ⟨?_, ?_, ?_⟩ <;> (try dsimp only) <;> (repeat' split) <;> simp_all

@[simp] theorem kept_waitRecord (s : State) (w : W512) :
    Keeps (waitRecord s w) s := by
  unfold waitRecord; refine ⟨?_, ?_, ?_⟩ <;> (try dsimp only) <;> (repeat' split) <;> simp_all

@[simp] theorem kept_noteTold (s : State) (r : CairnReq) :
    Keeps (noteTold s r) s := by
  unfold noteTold; refine ⟨?_, ?_, ?_⟩ <;> (try dsimp only) <;> (repeat' split) <;> simp_all

@[simp] theorem kept_writeRecord (s : State) (r : CairnReq) :
    Keeps (writeRecord s r) s := by
  unfold writeRecord; refine ⟨?_, ?_, ?_⟩ <;> (try dsimp only) <;> (repeat' split) <;> simp_all

@[simp] theorem kept_logFaulted (s : State) (addr : Nat) :
    Keeps (logFaulted s addr) s := by
  unfold logFaulted; refine ⟨?_, ?_, ?_⟩ <;> (try dsimp only) <;> (repeat' split) <;> simp_all

@[simp] theorem kept_writeRate (s : State) (c v : Nat) :
    Keeps (writeRate s c v) s := by
  unfold writeRate; refine ⟨?_, ?_, ?_⟩ <;> (try dsimp only) <;> (repeat' split) <;> simp_all

@[simp] theorem kept_requestNonce (s : State) :
    Keeps (requestNonce s) s := by
  unfold requestNonce; refine ⟨?_, ?_, ?_⟩ <;> (try dsimp only) <;> (repeat' split) <;> simp_all

@[simp] theorem kept_clearStatus (s : State) (result cause state : Nat) :
    Keeps (clearStatus s result cause state) s := by
  unfold clearStatus; refine ⟨?_, ?_, ?_⟩ <;> (try dsimp only) <;> (repeat' split) <;> simp_all

@[simp] theorem kept_clearFail (s : State) (path who result cause : Nat) :
    Keeps (clearFail s path who result cause) s := by
  unfold clearFail; refine ⟨?_, ?_, ?_⟩ <;> (try dsimp only) <;> (repeat' split) <;> simp_all

@[simp] theorem kept_clearRemove (s : State) :
    Keeps (clearRemove s) s := by
  unfold clearRemove; refine ⟨?_, ?_, ?_⟩ <;> (try dsimp only) <;> (repeat' split) <;> simp_all

@[simp] theorem kept_clearCompared (s : State) (cause : Nat) (code : List Byte) :
    Keeps (clearCompared s cause code) s := by
  unfold clearCompared; refine ⟨?_, ?_, ?_⟩ <;> (try dsimp only) <;> (repeat' split) <;> simp_all

/-! ### Keys -/

@[simp] theorem kept_keyIssue (s : State) :
    Keeps (keyIssue s) s := by
  unfold keyIssue; refine ⟨?_, ?_, ?_⟩ <;> (try dsimp only) <;> (repeat' split) <;> simp_all

@[simp] theorem kept_keyStart (s : State) (j : KeyJob) :
    Keeps (keyStart s j) s := by
  unfold keyStart; refine ⟨?_, ?_, ?_⟩ <;> (try dsimp only) <;> (repeat' split) <;> simp_all

@[simp] theorem kept_cmdStatus (s : State) (result cause state : Nat) :
    Keeps (cmdStatus s result cause state) s := by
  unfold cmdStatus; refine ⟨?_, ?_, ?_⟩ <;> (try dsimp only) <;> (repeat' split) <;> simp_all

@[simp] theorem kept_keyAccept (s : State) (k : Nat) (m : W512) (derived : Bool) :
    Keeps (keyAccept s k m derived) s := by
  unfold keyAccept; refine ⟨?_, ?_, ?_⟩ <;> (try dsimp only) <;> (repeat' split) <;> simp_all

@[simp] theorem kept_keyReject (s : State) (k cause : Nat) :
    Keeps (keyReject s k cause) s := by
  unfold keyReject; refine ⟨?_, ?_, ?_⟩ <;> (try dsimp only) <;> (repeat' split) <;> simp_all

@[simp] theorem kept_keyDone (s : State) (j : KeyJob) :
    Keeps (keyDone s j) s := by
  unfold keyDone; refine ⟨?_, ?_, ?_⟩ <;> (try dsimp only) <;> (repeat' split) <;> simp_all

@[simp] theorem kept_keyFinish (s : State) :
    Keeps (keyFinish s) s := by
  unfold keyFinish; refine ⟨?_, ?_, ?_⟩ <;> (try dsimp only) <;> (repeat' split) <;> simp_all

@[simp] theorem kept_keyFail (s : State) (res cause : Nat) :
    Keeps (keyFail s res cause) s := by
  unfold keyFail; refine ⟨?_, ?_, ?_⟩ <;> (try dsimp only) <;> (repeat' split) <;> simp_all

@[simp] theorem kept_firstStatus (s : State) (err : Bool) :
    Keeps (firstStatus s err) s := by
  unfold firstStatus; refine ⟨?_, ?_, ?_⟩ <;> (try dsimp only) <;> (repeat' split) <;> simp_all

@[simp] theorem kept_keyCommand (s : State) (derive : Bool) :
    Keeps (keyCommand s derive) s := by
  unfold keyCommand; refine ⟨?_, ?_, ?_⟩ <;> (try dsimp only) <;> (repeat' split) <;> simp_all

@[simp] theorem kept_keyNext (s : State) (j : KeyJob) (v : BitVec 32) :
    Keeps (keyNext s j v) s := by
  unfold keyNext; refine ⟨?_, ?_, ?_⟩ <;> (try dsimp only) <;> (repeat' split) <;> simp_all

@[simp] theorem kept_keyError (s : State) (j : KeyJob) :
    Keeps (keyError s j) s := by
  unfold keyError; refine ⟨?_, ?_, ?_⟩ <;> (try dsimp only) <;> (repeat' split) <;> simp_all

@[simp] theorem kept_endWriters (s : State) (u k : Nat) :
    Keeps (endWriters s u k) s := by
  unfold endWriters; refine ⟨?_, ?_, ?_⟩ <;> (try dsimp only) <;> (repeat' split) <;> simp_all

@[simp] theorem kept_poisonUnsent (s : State) (u : Nat) :
    Keeps (poisonUnsent s u) s := by
  unfold poisonUnsent; refine ⟨?_, ?_, ?_⟩ <;> (try dsimp only) <;> (repeat' split) <;> simp_all

@[simp] theorem kept_eraseUnit (k : Nat) (s : State) (u : Nat) :
    Keeps (eraseUnit k s u) s := by
  unfold eraseUnit; refine ⟨?_, ?_, ?_⟩ <;> (try dsimp only) <;> (repeat' split) <;> simp_all

@[simp] theorem kept_fillDiscarded (s : State) (e : Nat × Led) :
    Keeps (fillDiscarded s e) s := by
  unfold fillDiscarded; refine ⟨?_, ?_, ?_⟩ <;> (try dsimp only) <;> (repeat' split) <;> simp_all

@[simp] theorem kept_eraseSlot (s : State) (k : Nat) :
    Keeps (eraseSlot s k) s := by
  unfold eraseSlot; refine ⟨?_, ?_, ?_⟩ <;> (try dsimp only) <;> (repeat' split) <;> simp_all

/-! ### Engine -/

@[simp] theorem kept_cutOp (l : Nat) (st : Status) (s : State) (b : Busy) :
    Keeps (cutOp l st s b) s := by
  unfold cutOp; refine ⟨?_, ?_, ?_⟩ <;> (try dsimp only) <;> (repeat' split) <;> simp_all

@[simp] theorem kept_cutErase (s : State) (l : Nat) :
    Keeps (cutErase s l) s := by
  unfold cutErase; refine ⟨?_, ?_, ?_⟩ <;> (try dsimp only) <;> (repeat' split) <;> simp_all

@[simp] theorem kept_cutLun (s : State) (st : Status) (l : Nat) :
    Keeps (cutLun s st l) s := by
  unfold cutLun; refine ⟨?_, ?_, ?_⟩ <;> (try dsimp only) <;> (repeat' split) <;> simp_all

@[simp] theorem kept_screeBack (s : State) (p : Nat) :
    Keeps (screeBack s p) s := by
  unfold screeBack; refine ⟨?_, ?_, ?_⟩ <;> (try dsimp only) <;> (repeat' split) <;> simp_all

@[simp] theorem kept_mailBack (s : State) (p : Nat) :
    Keeps (mailBack s p) s := by
  unfold mailBack; refine ⟨?_, ?_, ?_⟩ <;> (try dsimp only) <;> (repeat' split) <;> simp_all

@[simp] theorem kept_spurOut (s : State) (p cause ready : Nat) :
    Keeps (spurOut s p cause ready) s := by
  unfold spurOut; refine ⟨?_, ?_, ?_⟩ <;> (try dsimp only) <;> (repeat' split) <;> simp_all

@[simp] theorem kept_issueAway (p k : Nat) (s : State) (ph : Phase) :
    Keeps (issueAway p k s ph) s := by
  unfold issueAway; refine ⟨?_, ?_, ?_⟩ <;> (try dsimp only) <;> (repeat' split) <;> simp_all

@[simp] theorem kept_issuePosted (s : State) (p : Nat) :
    Keeps (issuePosted s p) s := by
  unfold issuePosted; refine ⟨?_, ?_, ?_⟩ <;> (try dsimp only) <;> (repeat' split) <;> simp_all

@[simp] theorem kept_uncured (s : State) (p : Nat) :
    Keeps (uncured s p) s := by
  unfold uncured; refine ⟨?_, ?_, ?_⟩ <;> (try dsimp only) <;> (repeat' split) <;> simp_all

@[simp] theorem kept_faultNoted (s : State) (p c pc cause : Nat) :
    Keeps (faultNoted s p c pc cause) s := by
  unfold faultNoted; refine ⟨?_, ?_, ?_⟩ <;> (try dsimp only) <;> (repeat' split) <;> simp_all

@[simp] theorem kept_engineFaultAt (s : State) (p cause : Nat) (ctx word : Option Nat) :
    Keeps (engineFaultAt s p cause ctx word) s := by
  unfold engineFaultAt; refine ⟨?_, ?_, ?_⟩ <;> (try dsimp only) <;> (repeat' split) <;> simp_all

@[simp] theorem kept_engineFault (s : State) (p cause : Nat) :
    Keeps (engineFault s p cause) s := by
  unfold engineFault; refine ⟨?_, ?_, ?_⟩ <;> (try dsimp only) <;> (repeat' split) <;> simp_all

@[simp] theorem kept_busOp (p c k : Nat) (w : Microword) (s : State) :
    Keeps (busOp p c k w s) s := by
  unfold busOp; refine ⟨?_, ?_, ?_⟩ <;> (try dsimp only) <;> (repeat' split) <;> simp_all

@[simp] theorem kept_bindLive (s : State) (p c : Nat) :
    Keeps (bindLive s p c) s := by
  unfold bindLive; refine ⟨?_, ?_, ?_⟩ <;> (try dsimp only) <;> (repeat' split) <;> simp_all

@[simp] theorem kept_codecOp (p c : Nat) (w : Microword) (s : State) :
    Keeps (codecOp p c w s) s := by
  unfold codecOp; refine ⟨?_, ?_, ?_⟩ <;> (try dsimp only) <;> (repeat' split) <;> simp_all

@[simp] theorem kept_moveOp (p c : Nat) (w : Microword) (s : State) :
    Keeps (moveOp p c w s) s := by
  unfold moveOp; refine ⟨?_, ?_, ?_⟩ <;> (try dsimp only) <;> (repeat' split) <;> simp_all

@[simp] theorem kept_lookup (s : State) (p c : Nat) (f : W64) :
    Keeps (lookup s p c f) s := by
  unfold lookup; refine ⟨?_, ?_, ?_⟩ <;> (try dsimp only) <;> (repeat' split) <;> simp_all

@[simp] theorem kept_ledgerReq (s : State) (p c code : Nat) :
    Keeps (ledgerReq s p c code) s := by
  unfold ledgerReq; refine ⟨?_, ?_, ?_⟩ <;> (try dsimp only) <;> (repeat' split) <;> simp_all

@[simp] theorem kept_aluOp (p c : Nat) (w : Microword) (s : State) :
    Keeps (aluOp p c w s) s := by
  unfold aluOp; refine ⟨?_, ?_, ?_⟩ <;> (try dsimp only) <;> (repeat' split) <;> simp_all

@[simp] theorem kept_screeOp (p c : Nat) (w : Microword) (s : State) :
    Keeps (screeOp p c w s) s := by
  unfold screeOp; refine ⟨?_, ?_, ?_⟩ <;> (try dsimp only) <;> (repeat' split) <;> simp_all

@[simp] theorem kept_mboxOp (p c : Nat) (x : Ctx) (w : Microword) (s : State) :
    Keeps (mboxOp p c x w s) s := by
  unfold mboxOp; refine ⟨?_, ?_, ?_⟩ <;> (try dsimp only) <;> (repeat' split) <;> simp_all

@[simp] theorem kept_restOps (p c : Nat) (w : Microword) (s : State) :
    Keeps (restOps p c w s) s := by
  unfold restOps; refine ⟨?_, ?_, ?_⟩ <;> (try dsimp only) <;> (repeat' split) <;> simp_all

@[simp] theorem kept_wordActs (p c : Nat) (w : Microword) (s : State) :
    Keeps (wordActs p c w s) s := by
  unfold wordActs; refine ⟨?_, ?_, ?_⟩ <;> (try dsimp only) <;> (repeat' split) <;> simp_all

@[simp] theorem kept_endRoutine (s : State) (p c : Nat) :
    Keeps (endRoutine s p c) s := by
  unfold endRoutine; refine ⟨?_, ?_, ?_⟩ <;> (try dsimp only) <;> (repeat' split) <;> simp_all

@[simp] theorem kept_rearbitrate (s : State) (p c : Nat) :
    Keeps (rearbitrate s p c) s := by
  unfold rearbitrate; refine ⟨?_, ?_, ?_⟩ <;> (try dsimp only) <;> (repeat' split) <;> simp_all

@[simp] theorem kept_wordNext (s : State) (p c : Nat) (w : Microword) (taken : Bool) :
    Keeps (wordNext s p c w taken) s := by
  unfold wordNext; refine ⟨?_, ?_, ?_⟩ <;> (try dsimp only) <;> (repeat' split) <;> simp_all

@[simp] theorem kept_spendCycle (s : State) (p c : Nat) :
    Keeps (spendCycle s p c) s := by
  unfold spendCycle; refine ⟨?_, ?_, ?_⟩ <;> (try dsimp only) <;> (repeat' split) <;> simp_all

@[simp] theorem kept_runWord (s : State) (p c : Nat) :
    Keeps (runWord s p c) s := by
  unfold runWord; refine ⟨?_, ?_, ?_⟩ <;> (try dsimp only) <;> (repeat' split) <;> simp_all

@[simp] theorem kept_replayCtx (p : Nat) (s : State) (c : Nat) :
    Keeps (replayCtx p s c) s := by
  unfold replayCtx; refine ⟨?_, ?_, ?_⟩ <;> (try dsimp only) <;> (repeat' split) <;> simp_all

@[simp] theorem kept_ladderAgain (s : State) (l : Nat) :
    Keeps (ladderAgain s l) s := by
  unfold ladderAgain; refine ⟨?_, ?_, ?_⟩ <;> (try dsimp only) <;> (repeat' split) <;> simp_all

@[simp] theorem kept_programAgain (s : State) (l : Nat) (reset : Bool) :
    Keeps (programAgain s l reset) s := by
  unfold programAgain; refine ⟨?_, ?_, ?_⟩ <;> (try dsimp only) <;> (repeat' split) <;> simp_all

@[simp] theorem kept_replayReady (s : State) (l : Nat) :
    Keeps (replayReady s l) s := by
  unfold replayReady; refine ⟨?_, ?_, ?_⟩ <;> (try dsimp only) <;> (repeat' split) <;> simp_all

@[simp] theorem kept_replayLun (ready : Nat) (p : Nat) (s : State) (l : Nat) :
    Keeps (replayLun ready p s l) s := by
  unfold replayLun; refine ⟨?_, ?_, ?_⟩ <;> (try dsimp only) <;> (repeat' split) <;> simp_all

@[simp] theorem kept_rearmSpare (s : State) (g : Nat) :
    Keeps (rearmSpare s g) s := by
  unfold rearmSpare; refine ⟨?_, ?_, ?_⟩ <;> (try dsimp only) <;> (repeat' split) <;> simp_all

/-! ### Service -/

@[simp] theorem kept_startSpur (s : State) (p : Nat) :
    Keeps (startSpur s p) s := by
  unfold startSpur; refine ⟨?_, ?_, ?_⟩ <;> (try dsimp only) <;> (repeat' split) <;> simp_all

@[simp] theorem kept_startRidge (s : State) (r : Nat) :
    Keeps (startRidge s r) s := by
  unfold startRidge; refine ⟨?_, ?_, ?_⟩ <;> (try dsimp only) <;> (repeat' split) <;> simp_all

@[simp] theorem kept_svcKick (s : State) :
    Keeps (svcKick s) s := by
  unfold svcKick; refine ⟨?_, ?_, ?_⟩ <;> (try dsimp only) <;> (repeat' split) <;> simp_all

@[simp] theorem kept_enableSpur (s : State) (p : Nat) :
    Keeps (enableSpur s p) s := by
  unfold enableSpur; refine ⟨?_, ?_, ?_⟩ <;> (try dsimp only) <;> (repeat' split) <;> simp_all

@[simp] theorem kept_drainSpur (s : State) (p cause : Nat) :
    Keeps (drainSpur s p cause) s := by
  unfold drainSpur; refine ⟨?_, ?_, ?_⟩ <;> (try dsimp only) <;> (repeat' split) <;> simp_all

@[simp] theorem kept_disableSpur (s : State) (p : Nat) :
    Keeps (disableSpur s p) s := by
  unfold disableSpur; refine ⟨?_, ?_, ?_⟩ <;> (try dsimp only) <;> (repeat' split) <;> simp_all

@[simp] theorem kept_enableRidge (s : State) (r : Nat) :
    Keeps (enableRidge s r) s := by
  unfold enableRidge; refine ⟨?_, ?_, ?_⟩ <;> (try dsimp only) <;> (repeat' split) <;> simp_all

@[simp] theorem kept_flushFailed (s : State) (u : Nat) :
    Keeps (flushFailed s u) s := by
  unfold flushFailed; refine ⟨?_, ?_, ?_⟩ <;> (try dsimp only) <;> (repeat' split) <;> simp_all

@[simp] theorem kept_flushDraining (s : State) (r : Nat) :
    Keeps (flushDraining s r) s := by
  unfold flushDraining; refine ⟨?_, ?_, ?_⟩ <;> (try dsimp only) <;> (repeat' split) <;> simp_all

@[simp] theorem kept_closeRidge (s : State) (r : Nat) :
    Keeps (closeRidge s r) s := by
  unfold closeRidge; refine ⟨?_, ?_, ?_⟩ <;> (try dsimp only) <;> (repeat' split) <;> simp_all

@[simp] theorem kept_drainRidge (s : State) (r cause : Nat) :
    Keeps (drainRidge s r cause) s := by
  unfold drainRidge; refine ⟨?_, ?_, ?_⟩ <;> (try dsimp only) <;> (repeat' split) <;> simp_all

@[simp] theorem kept_disableRidge (s : State) (r : Nat) :
    Keeps (disableRidge s r) s := by
  unfold disableRidge; refine ⟨?_, ?_, ?_⟩ <;> (try dsimp only) <;> (repeat' split) <;> simp_all

@[simp] theorem kept_spurDrained (s : State) (p : Nat) :
    Keeps (spurDrained s p) s := by
  unfold spurDrained; refine ⟨?_, ?_, ?_⟩ <;> (try dsimp only) <;> (repeat' split) <;> simp_all

@[simp] theorem kept_ridgeDrained (s : State) (r : Nat) :
    Keeps (ridgeDrained s r) s := by
  unfold ridgeDrained; refine ⟨?_, ?_, ?_⟩ <;> (try dsimp only) <;> (repeat' split) <;> simp_all

@[simp] theorem kept_takeEngine (s : State) (p : Nat) :
    Keeps (takeEngine s p) s := by
  unfold takeEngine; refine ⟨?_, ?_, ?_⟩ <;> (try dsimp only) <;> (repeat' split) <;> simp_all

@[simp] theorem kept_spurIn (s : State) (p : Nat) :
    Keeps (spurIn s p) s := by
  unfold spurIn; refine ⟨?_, ?_, ?_⟩ <;> (try dsimp only) <;> (repeat' split) <;> simp_all

@[simp] theorem kept_releaseUnits (s : State) :
    Keeps (releaseUnits s) s := by
  unfold releaseUnits; refine ⟨?_, ?_, ?_⟩ <;> (try dsimp only) <;> (repeat' split) <;> simp_all

@[simp] theorem kept_ledgeIn (s : State) (r : Nat) :
    Keeps (ledgeIn s r) s := by
  unfold ledgeIn; refine ⟨?_, ?_, ?_⟩ <;> (try dsimp only) <;> (repeat' split) <;> simp_all

@[simp] theorem kept_ridgeIn (s : State) (r : Nat) :
    Keeps (ridgeIn s r) s := by
  unfold ridgeIn; refine ⟨?_, ?_, ?_⟩ <;> (try dsimp only) <;> (repeat' split) <;> simp_all

@[simp] theorem kept_writeEngineFaulted (s : State) (p v : Nat) :
    Keeps (writeEngineFaulted s p v) s := by
  unfold writeEngineFaulted; refine ⟨?_, ?_, ?_⟩ <;> (try dsimp only) <;> (repeat' split) <;> simp_all

/-! ### Image -/

@[simp] theorem kept_imageFail (s : State) (result cause : Nat) :
    Keeps (imageFail s result cause) s := by
  unfold imageFail; refine ⟨?_, ?_, ?_⟩ <;> (try dsimp only) <;> (repeat' split) <;> simp_all

@[simp] theorem kept_imageAsk (s : State) (n : Nat) :
    Keeps (imageAsk s n) s := by
  unfold imageAsk; refine ⟨?_, ?_, ?_⟩ <;> (try dsimp only) <;> (repeat' split) <;> simp_all

@[simp] theorem kept_imageStart (s : State) :
    Keeps (imageStart s) s := by
  unfold imageStart; refine ⟨?_, ?_, ?_⟩ <;> (try dsimp only) <;> (repeat' split) <;> simp_all

@[simp] theorem kept_imageWhole (s : State) :
    Keeps (imageWhole s) s := by
  unfold imageWhole; refine ⟨?_, ?_, ?_⟩ <;> (try dsimp only) <;> (repeat' split) <;> simp_all

@[simp] theorem kept_imageData (s : State) (err : Bool) (data : List W512) :
    Keeps (imageData s err data) s := by
  unfold imageData; refine ⟨?_, ?_, ?_⟩ <;> (try dsimp only) <;> (repeat' split) <;> simp_all

@[simp] theorem kept_writeDataFail (s : State) (q i addr : Nat) :
    Keeps (writeDataFail s q i addr) s := by
  unfold writeDataFail; refine ⟨?_, ?_, ?_⟩ <;> (try dsimp only) <;> (repeat' split) <;> simp_all

@[simp] theorem kept_writeData (s : State) (q i addr : Nat) (err : Bool) (data : List W512) :
    Keeps (writeData s q i addr err data) s := by
  unfold writeData; refine ⟨?_, ?_, ?_⟩ <;> (try dsimp only) <;> (repeat' split) <;> simp_all

@[simp] theorem kept_fragData (s : State) (q i : Nat) (err : Bool) (data : List W512) :
    Keeps (fragData s q i err data) s := by
  unfold fragData; refine ⟨?_, ?_, ?_⟩ <;> (try dsimp only) <;> (repeat' split) <;> simp_all

/-! ### Bringup -/

@[simp] theorem kept_noteLun (c : Nat) (s : State) (x : DieReport × Nat) :
    Keeps (noteLun c s x) s := by
  unfold noteLun; refine ⟨?_, ?_, ?_⟩ <;> (try dsimp only) <;> (repeat' split) <;> simp_all

@[simp] theorem kept_setAnalog (s : State) (c b : Nat) :
    Keeps (setAnalog s c b) s := by
  unfold setAnalog; refine ⟨?_, ?_, ?_⟩ <;> (try dsimp only) <;> (repeat' split) <;> simp_all

@[simp] theorem kept_noteTrained (s : State) (c : Nat) (ces : List Nat) :
    Keeps (noteTrained s c ces) s := by
  unfold noteTrained; refine ⟨?_, ?_, ?_⟩ <;> (try dsimp only) <;> (repeat' split) <;> simp_all

@[simp] theorem kept_bringUp (s : State) (c : Nat) (dies : List DieReport) (eyes : List EyeReport) :
    Keeps (bringUp s c dies eyes) s := by
  unfold bringUp; (try dsimp only); refine ⟨?_, ?_⟩ <;> simp <;> (repeat' split) <;> simp_all

@[simp] theorem kept_rediscoverChan (s : State) (c : Nat) :
    Keeps (rediscoverChan s c) s := by
  unfold rediscoverChan; refine ⟨?_, ?_, ?_⟩ <;> (try dsimp only) <;> (repeat' split) <;> simp_all

@[simp] theorem kept_trainingLost (s : State) (c : Nat) :
    Keeps (trainingLost s c) s := by
  unfold trainingLost; refine ⟨?_, ?_, ?_⟩ <;> (try dsimp only) <;> (repeat' split) <;> simp_all

@[simp] theorem kept_trackBus (s : State) (c ce : Nat) :
    Keeps (trackBus s c ce) s := by
  unfold trackBus; refine ⟨?_, ?_, ?_⟩ <;> (try dsimp only) <;> (repeat' split) <;> simp_all

@[simp] theorem kept_channelRestart (s : State) (c : Nat) :
    Keeps (channelRestart s c) s := by
  unfold channelRestart; refine ⟨?_, ?_, ?_⟩ <;> (try dsimp only) <;> (repeat' split) <;> simp_all

@[simp] theorem kept_failWaiting (s : State) (c : Nat) (st : Status) :
    Keeps (failWaiting s c st) s := by
  unfold failWaiting; refine ⟨?_, ?_, ?_⟩ <;> (try dsimp only) <;> (repeat' split) <;> simp_all

@[simp] theorem kept_channelFailed (s : State) (c : Nat) :
    Keeps (channelFailed s c) s := by
  unfold channelFailed; refine ⟨?_, ?_, ?_⟩ <;> (try dsimp only) <;> (repeat' split) <;> simp_all

@[simp] theorem kept_trainBus (s : State) (c : Nat) :
    Keeps (trainBus s c) s := by
  unfold trainBus; refine ⟨?_, ?_, ?_⟩ <;> (try dsimp only) <;> (repeat' split) <;> simp_all

end Sys2Proof.Machine
end

