-- ==== Sys2Proof/Laws/KeepsRest.lean ====
section
/-! SUPPORT. What the operations of the rail, recovery, faults and the dictionary keep: the queue, the block time, the resets and the port state. -/

namespace Sys2Proof.Machine

/-! ### Refuge -/

@[simp] theorem kept_closeRefuge (s : State) (r : Nat) (clean orderly : Bool) :
    Keeps (closeRefuge s r clean orderly) s := by
  unfold closeRefuge; refine ⟨?_, ?_, ?_⟩ <;> (try dsimp only) <;> (repeat' split) <;> simp_all

@[simp] theorem kept_loseUnits (s : State) (r : Nat) :
    Keeps (loseUnits s r) s := by
  unfold loseUnits; refine ⟨?_, ?_, ?_⟩ <;> (try dsimp only) <;> (repeat' split) <;> simp_all

/-! ### Rail -/

@[simp] theorem kept_countIdle (s : State) (r : Nat) :
    Keeps (countIdle s r) s := by
  unfold countIdle; refine ⟨?_, ?_, ?_⟩ <;> (try dsimp only) <;> (repeat' split) <;> simp_all

@[simp] theorem kept_countHot (s : State) (n : Nat) :
    Keeps (countHot s n) s := by
  unfold countHot; refine ⟨?_, ?_, ?_⟩ <;> (try dsimp only) <;> (repeat' split) <;> simp_all

@[simp] theorem kept_countTime (s : State) :
    Keeps (countTime s) s := by
  unfold countTime; refine ⟨?_, ?_, ?_⟩ <;> (try dsimp only) <;> (repeat' split) <;> simp_all

@[simp] theorem kept_railRuns (s : State) :
    Keeps (railRuns s) s := by
  unfold railRuns; refine ⟨?_, ?_, ?_⟩ <;> (try dsimp only) <;> (repeat' split) <;> simp_all

@[simp] theorem kept_railAbove (s : State) :
    Keeps (railAbove s) s := by
  unfold railAbove; refine ⟨?_, ?_, ?_⟩ <;> (try dsimp only) <;> (repeat' split) <;> simp_all

@[simp] theorem kept_tagsFreed (s : State) :
    Keeps (tagsFreed s) s := by
  unfold tagsFreed; refine ⟨?_, ?_, ?_⟩ <;> (try dsimp only) <;> (repeat' split) <;> simp_all

@[simp] theorem kept_answersSent (s : State) :
    Keeps (answersSent s) s := by
  unfold answersSent; refine ⟨?_, ?_, ?_⟩ <;> (try dsimp only) <;> (repeat' split) <;> simp_all

@[simp] theorem kept_ridgeProtect (s : State) (r : Nat) (high : Bool) :
    Keeps (ridgeProtect s r high) s := by
  unfold ridgeProtect; refine ⟨?_, ?_, ?_⟩ <;> (try dsimp only) <;> (repeat' split) <;> simp_all

@[simp] theorem kept_wakeRidge (s : State) (r : Nat) :
    Keeps (wakeRidge s r) s := by
  unfold wakeRidge; refine ⟨?_, ?_, ?_⟩ <;> (try dsimp only) <;> (repeat' split) <;> simp_all

@[simp] theorem kept_idleHint (s : State) (r v : Nat) :
    Keeps (idleHint s r v) s := by
  unfold idleHint; refine ⟨?_, ?_, ?_⟩ <;> (try dsimp only) <;> (repeat' split) <;> simp_all

@[simp] theorem kept_sequenceSuspend (s : State) (l : Nat) :
    Keeps (sequenceSuspend s l) s := by
  unfold sequenceSuspend; refine ⟨?_, ?_, ?_⟩ <;> (try dsimp only) <;> (repeat' split) <;> simp_all

@[simp] theorem kept_startShutdown (s : State) :
    Keeps (startShutdown s) s := by
  unfold startShutdown; refine ⟨?_, ?_, ?_⟩ <;> (try dsimp only) <;> (repeat' split) <;> simp_all

@[simp] theorem kept_stallEnds (s : State) (q : Nat) :
    Keeps (stallEnds s q) s := by
  unfold stallEnds; refine ⟨?_, ?_, ?_⟩ <;> (try dsimp only) <;> (repeat' split) <;> simp_all

@[simp] theorem kept_energyAsks (s : State) :
    Keeps (energyAsks s) s := by
  unfold energyAsks; refine ⟨?_, ?_, ?_⟩ <;> (try dsimp only) <;> (repeat' split) <;> simp_all

@[simp] theorem kept_askAgain (s : State) :
    Keeps (askAgain s) s := by
  unfold askAgain; refine ⟨?_, ?_, ?_⟩ <;> (try dsimp only) <;> (repeat' split) <;> simp_all

@[simp] theorem kept_writeRailMin (s : State) :
    Keeps (writeRailMin s) s := by
  unfold writeRailMin; refine ⟨?_, ?_, ?_⟩ <;> (try dsimp only) <;> (repeat' split) <;> simp_all

@[simp] theorem kept_writeDemandPeak (s : State) :
    Keeps (writeDemandPeak s) s := by
  unfold writeDemandPeak; refine ⟨?_, ?_, ?_⟩ <;> (try dsimp only) <;> (repeat' split) <;> simp_all

/-! ### Recovery -/

@[simp] theorem kept_loadFlags (x : RidgeFound) (s : State) (l : Nat) :
    Keeps (loadFlags x s l) s := by
  unfold loadFlags; refine ⟨?_, ?_, ?_⟩ <;> (try dsimp only) <;> (repeat' split) <;> simp_all

@[simp] theorem kept_askRepairs (s : State) (r : Nat) :
    Keeps (askRepairs s r) s := by
  unfold askRepairs; refine ⟨?_, ?_, ?_⟩ <;> (try dsimp only) <;> (repeat' split) <;> simp_all

@[simp] theorem kept_scanDamage (rg : Nat) (s : State) (p : ScanPage) :
    Keeps (scanDamage rg s p) s := by
  unfold scanDamage; refine ⟨?_, ?_, ?_⟩ <;> (try dsimp only) <;> (repeat' split) <;> simp_all

@[simp] theorem kept_loadPoison (rg : Nat) (s : State) (x : Nat × Nat) :
    Keeps (loadPoison rg s x) s := by
  unfold loadPoison; refine ⟨?_, ?_, ?_⟩ <;> (try dsimp only) <;> (repeat' split) <;> simp_all

@[simp] theorem kept_restoreRecord (s : State) (rg region detail : Nat) (target : W64) (h : BitVec 32) :
    Keeps (restoreRecord s rg region detail target h) s := by
  unfold restoreRecord; refine ⟨?_, ?_, ?_⟩ <;> (try dsimp only) <;> (repeat' split) <;> simp_all

@[simp] theorem kept_restoreLost (s : State) (rg region : Nat) (target : W64) (h : BitVec 32) :
    Keeps (restoreLost s rg region target h) s := by
  unfold restoreLost; refine ⟨?_, ?_, ?_⟩ <;> (try dsimp only) <;> (repeat' split) <;> simp_all

@[simp] theorem kept_announceRidge (s : State) (rg : Nat) :
    Keeps (announceRidge s rg) s := by
  unfold announceRidge; refine ⟨?_, ?_, ?_⟩ <;> (try dsimp only) <;> (repeat' split) <;> simp_all

@[simp] theorem kept_writeStart (s : State) (rg : Nat) :
    Keeps (writeStart s rg) s := by
  unfold writeStart; refine ⟨?_, ?_, ?_⟩ <;> (try dsimp only) <;> (repeat' split) <;> simp_all

@[simp] theorem kept_recoverRidge (s : State) (x : RidgeFound) :
    Keeps (recoverRidge s x) s := by
  unfold recoverRidge; (try dsimp only); refine ⟨?_, ?_⟩ <;> simp <;> (repeat' split) <;> simp_all

@[simp] theorem kept_goUnit (s : State) (u : Nat) :
    Keeps (goUnit s u) s := by
  unfold goUnit; refine ⟨?_, ?_, ?_⟩ <;> (try dsimp only) <;> (repeat' split) <;> simp_all

@[simp] theorem kept_restoreUnit (s : State) (rg : Nat) (e : BitVec 256) (key : Option (Nat × Nat)) (pages : List RefugeGranule) :
    Keeps (restoreUnit s rg e key pages) s := by
  unfold restoreUnit; refine ⟨?_, ?_, ?_⟩ <;> (try dsimp only) <;> (repeat' split) <;> simp_all

@[simp] theorem kept_pendUnit (s : State) (rg : Nat) (e : BitVec 256) :
    Keeps (pendUnit s rg e) s := by
  unfold pendUnit; refine ⟨?_, ?_, ?_⟩ <;> (try dsimp only) <;> (repeat' split) <;> simp_all

@[simp] theorem kept_unitDealt (s : State) (rg i : Nat) :
    Keeps (unitDealt s rg i) s := by
  unfold unitDealt; refine ⟨?_, ?_, ?_⟩ <;> (try dsimp only) <;> (repeat' split) <;> simp_all

@[simp] theorem kept_treatUnit (s : State) (rg i : Nat) (e : BitVec 256) (pages : List RefugeGranule) :
    Keeps (treatUnit s rg i e pages) s := by
  unfold treatUnit; refine ⟨?_, ?_, ?_⟩ <;> (try dsimp only) <;> (repeat' split) <;> simp_all

@[simp] theorem kept_dropUnit (s : State) (x : Nat × Led) :
    Keeps (dropUnit s x) s := by
  unfold dropUnit; refine ⟨?_, ?_, ?_⟩ <;> (try dsimp only) <;> (repeat' split) <;> simp_all

@[simp] theorem kept_dropPendingUnits (s : State) (v : Nat) :
    Keeps (dropPendingUnits s v) s := by
  unfold dropPendingUnits; refine ⟨?_, ?_, ?_⟩ <;> (try dsimp only) <;> (repeat' split) <;> simp_all

/-! ### Faults -/

@[simp] theorem kept_faultRecord (s : State) (c i how addr : Nat) (f : W64) (loud : Bool) :
    Keeps (faultRecord s c i how addr f loud) s := by
  unfold faultRecord; refine ⟨?_, ?_, ?_⟩ <;> (try dsimp only) <;> (repeat' split) <;> simp_all

@[simp] theorem kept_engineMemory (s : State) (i cause addr : Nat) :
    Keeps (engineMemory s i cause addr) s := by
  unfold engineMemory; refine ⟨?_, ?_, ?_⟩ <;> (try dsimp only) <;> (repeat' split) <;> simp_all

@[simp] theorem kept_poisonLost (s : State) (rg i : Nat) :
    Keeps (poisonLost s rg i) s := by
  unfold poisonLost; refine ⟨?_, ?_, ?_⟩ <;> (try dsimp only) <;> (repeat' split) <;> simp_all

@[simp] theorem kept_halfLost (s : State) (rg : Nat) :
    Keeps (halfLost s rg) s := by
  unfold halfLost; refine ⟨?_, ?_, ?_⟩ <;> (try dsimp only) <;> (repeat' split) <;> simp_all

@[simp] theorem kept_lineLost (s : State) (rg addr : Nat) :
    Keeps (lineLost s rg addr) s := by
  unfold lineLost; refine ⟨?_, ?_, ?_⟩ <;> (try dsimp only) <;> (repeat' split) <;> simp_all

@[simp] theorem kept_decoderLost (s : State) (d k : Nat) :
    Keeps (decoderLost s d k) s := by
  unfold decoderLost; refine ⟨?_, ?_, ?_⟩ <;> (try dsimp only) <;> (repeat' split) <;> simp_all

@[simp] theorem kept_goFatal (s : State) (c i addr : Nat) :
    Keeps (goFatal s c i addr) s := by
  unfold goFatal; refine ⟨?_, ?_, ?_⟩ <;> (try dsimp only) <;> (repeat' split) <;> simp_all

@[simp] theorem kept_placeLost (s : State) (i k : Nat) :
    Keeps (placeLost s i k) s := by
  unfold placeLost; refine ⟨?_, ?_, ?_⟩ <;> (try dsimp only) <;> (repeat' split) <;> simp_all

@[simp] theorem kept_slotLost (s : State) (k : Nat) :
    Keeps (slotLost s k) s := by
  unfold slotLost; refine ⟨?_, ?_, ?_⟩ <;> (try dsimp only) <;> (repeat' split) <;> simp_all

@[simp] theorem kept_colLost (s : State) (i : Nat) :
    Keeps (colLost s i) s := by
  unfold colLost; refine ⟨?_, ?_, ?_⟩ <;> (try dsimp only) <;> (repeat' split) <;> simp_all

@[simp] theorem kept_memoryLost (s : State) (c i addr : Nat) :
    Keeps (memoryLost s c i addr) s := by
  unfold memoryLost; (try dsimp only); refine ⟨?_, ?_⟩ <;> simp <;> (repeat' split) <;> simp_all

@[simp] theorem kept_injectEngine (s : State) (e : Nat) :
    Keeps (injectEngine s e) s := by
  unfold injectEngine; refine ⟨?_, ?_, ?_⟩ <;> (try dsimp only) <;> (repeat' split) <;> simp_all

@[simp] theorem kept_injectMem (s : State) (v : Nat) :
    Keeps (injectMem s v) s := by
  unfold injectMem; refine ⟨?_, ?_, ?_⟩ <;> (try dsimp only) <;> (repeat' split) <;> simp_all

@[simp] theorem kept_thermalNotice (s : State) (n event : Nat) (temp : Int) :
    Keeps (thermalNotice s n event temp) s := by
  unfold thermalNotice; refine ⟨?_, ?_, ?_⟩ <;> (try dsimp only) <;> (repeat' split) <;> simp_all

@[simp] theorem kept_modSensor (s : State) (n : Nat) (f : Sensor → Sensor) :
    Keeps (modSensor s n f) s := by
  unfold modSensor; refine ⟨?_, ?_, ?_⟩ <;> (try dsimp only) <;> (repeat' split) <;> simp_all

@[simp] theorem kept_levelStep (s : State) (n : Nat) (temp : Int) :
    Keeps (levelStep s n temp) s := by
  unfold levelStep; refine ⟨?_, ?_, ?_⟩ <;> (try dsimp only) <;> (repeat' split) <;> simp_all

@[simp] theorem kept_sensorFails (s : State) (n : Nat) (temp : Int) :
    Keeps (sensorFails s n temp) s := by
  unfold sensorFails; refine ⟨?_, ?_, ?_⟩ <;> (try dsimp only) <;> (repeat' split) <;> simp_all

@[simp] theorem kept_testFailed (s : State) (kind n cls : Nat) :
    Keeps (testFailed s kind n cls) s := by
  unfold testFailed; refine ⟨?_, ?_, ?_⟩ <;> (try dsimp only) <;> (repeat' split) <;> simp_all

@[simp] theorem kept_selfTested (s : State) (what : SelfTest) (pass : Bool) (h : what ≠ .ports) : Keeps (selfTested s what pass) s := by
  unfold selfTested
  refine ⟨?_, ?_⟩ <;> (repeat' split) <;> simp_all

/-! ### Regions -/

@[simp] theorem kept_tvAdopt (r : Nat) (s : State) (l : Nat) :
    Keeps (tvAdopt r s l) s := by
  unfold tvAdopt; refine ⟨?_, ?_, ?_⟩ <;> (try dsimp only) <;> (repeat' split) <;> simp_all

@[simp] theorem kept_adoptTraverse (s : State) (r : Nat) :
    Keeps (adoptTraverse s r) s := by
  have h := fun L => keeps_foldl (tvAdopt r) (kept_tvAdopt r) L s
  unfold adoptTraverse
  exact keeps_ite _ ⟨rfl, rfl, rfl⟩ (h _)

@[simp] theorem kept_goRestored (s : State) (r : Nat) :
    Keeps (goRestored s r) s := by
  unfold goRestored; refine ⟨?_, ?_, ?_⟩ <;> (try dsimp only) <;> (repeat' split) <;> simp_all

@[simp] theorem kept_enableRegion (s : State) (r : Nat) :
    Keeps (enableRegion s r) s := by
  unfold enableRegion; refine ⟨?_, ?_, ?_⟩ <;> (try dsimp only) <;> (repeat' split) <;> simp_all

@[simp] theorem kept_disableRegion (s : State) (r : Nat) :
    Keeps (disableRegion s r) s := by
  unfold disableRegion; refine ⟨?_, ?_, ?_⟩ <;> (try dsimp only) <;> (repeat' split) <;> simp_all

@[simp] theorem kept_writeTv (s : State) (r l v : Nat) :
    Keeps (writeTv s r l v).2 s := by
  unfold writeTv; refine ⟨?_, ?_, ?_⟩ <;> (try dsimp only) <;> (repeat' split) <;> simp_all

/-! ### OdWrite -/

@[simp] theorem kept_writeQerr (s : State) (q v : Nat) :
    Keeps (writeQerr s q v) s := by
  unfold writeQerr; refine ⟨?_, ?_, ?_⟩ <;> (try dsimp only) <;> (repeat' split) <;> simp_all

@[simp] theorem kept_writeWatermark (s : State) (q v : Nat) :
    Keeps (writeWatermark s q v) s := by
  unfold writeWatermark; refine ⟨?_, ?_, ?_⟩ <;> (try dsimp only) <;> (repeat' split) <;> simp_all

@[simp] theorem kept_writeTalus (s : State) (l n v : Nat) :
    Keeps (writeTalus s l n v) s := by
  unfold writeTalus; refine ⟨?_, ?_, ?_⟩ <;> (try dsimp only) <;> (repeat' split) <;> simp_all

@[simp] theorem kept_removePoison (s : State) (ctx : Nat) :
    Keeps (removePoison s ctx) s := by
  unfold removePoison; refine ⟨?_, ?_, ?_⟩ <;> (try dsimp only) <;> (repeat' split) <;> simp_all

@[simp] theorem kept_removeHalf (s : State) (ctx : Nat) :
    Keeps (removeHalf s ctx) s := by
  unfold removeHalf; refine ⟨?_, ?_, ?_⟩ <;> (try dsimp only) <;> (repeat' split) <;> simp_all

@[simp] theorem kept_modMbox (s : State) (p : Nat) (f : Mbox → Mbox) :
    Keeps (modMbox s p f) s := by
  unfold modMbox; refine ⟨?_, ?_, ?_⟩ <;> (try dsimp only) <;> (repeat' split) <;> simp_all

@[simp] theorem kept_writeLock (s : State) (p who v : Nat) :
    Keeps (writeLock s p who v) s := by
  unfold writeLock; refine ⟨?_, ?_, ?_⟩ <;> (try dsimp only) <;> (repeat' split) <;> simp_all

@[simp] theorem kept_postIn (s : State) (p v : Nat) :
    Keeps (postIn s p v) s := by
  unfold postIn; refine ⟨?_, ?_, ?_⟩ <;> (try dsimp only) <;> (repeat' split) <;> simp_all

@[simp] theorem kept_ackOut (s : State) (p v : Nat) :
    Keeps (ackOut s p v) s := by
  unfold ackOut; refine ⟨?_, ?_, ?_⟩ <;> (try dsimp only) <;> (repeat' split) <;> simp_all

@[simp] theorem kept_startClear (s : State) (q : Req) :
    Keeps (startClear s q) s := by
  unfold startClear; refine ⟨?_, ?_, ?_⟩ <;> (try dsimp only) <;> (repeat' split) <;> simp_all

@[simp] theorem kept_sendCheck (s : State) :
    Keeps (sendCheck s) s := by
  unfold sendCheck; refine ⟨?_, ?_, ?_⟩ <;> (try dsimp only) <;> (repeat' split) <;> simp_all

@[simp] theorem kept_writeCrest (s : State) (v : Nat) :
    Keeps (writeCrest s v) s := by
  unfold writeCrest; refine ⟨?_, ?_, ?_⟩ <;> (try dsimp only) <;> (repeat' split) <;> simp_all

@[simp] theorem kept_writeRecordPort (s : State) (v : Nat) :
    Keeps (writeRecordPort s v) s := by
  unfold writeRecordPort; refine ⟨?_, ?_, ?_⟩ <;> (try dsimp only) <;> (repeat' split) <;> simp_all

@[simp] theorem kept_writeTempPeak (s : State) (n : Nat) :
    Keeps (writeTempPeak s n) s := by
  unfold writeTempPeak; refine ⟨?_, ?_, ?_⟩ <;> (try dsimp only) <;> (repeat' split) <;> simp_all

/-- Whatever state an effect gives, it keeps the queue of commands, the clock and the order of the submission queues. -/
def keepsO (o : Option State) (s : State) : Prop := ∀ t, o = some t → KeepsOrder t s
theorem keepsO_some {t s : State} (h : KeepsOrder t s) : keepsO (some t) s := fun _ e => Option.some.inj e ▸ h
theorem keepsO_none (s : State) : keepsO none s := fun _ e => nomatch e
theorem keepsO_ite (c : Prop) [Decidable c] {a b : Option State} {s : State} (ha : keepsO a s) (hb : keepsO b s) :
    keepsO (if c then a else b) s := by
  split <;> assumption

theorem kept_applyLow (s : State) (c i sub v : Nat) : keepsO (applyLow s c i sub v) s := by
  unfold applyLow
  repeat' first | exact keepsO_none _ | refine keepsO_ite _ (keepsO_some ?_) ?_
  all_goals exact keeps_order (by refine ⟨?_, ?_, ?_⟩ <;> (repeat' split) <;> simp)

theorem kept_applyMid (s : State) (q : Req) (i sub v : Nat) : keepsO (applyMid s q i sub v) s := by
  unfold applyMid
  dsimp only
  repeat' first | exact keepsO_none _ | refine keepsO_ite _ (keepsO_some ?_) ?_ | refine keepsO_ite _ ?_ ?_
  all_goals first | exact kept_switchQueue _ _ _ | exact keeps_order (by refine ⟨?_, ?_, ?_⟩ <;> (repeat' split) <;> simp)

@[simp] theorem kept_switchLink (s : State) (l v : Nat) :
    Keeps (switchLink s l v) s := by
  unfold switchLink; refine ⟨?_, ?_, ?_⟩ <;> (try dsimp only) <;> (repeat' split) <;> simp_all

theorem kept_applyHigh (s : State) (q : Req) (i sub v : Nat) : keepsO (applyHigh s q i sub v) s := by
  unfold applyHigh
  repeat' first | exact keepsO_none _ | refine keepsO_ite _ (keepsO_some ?_) ?_ | refine keepsO_ite _ ?_ ?_
  all_goals exact keeps_order (by refine ⟨?_, ?_, ?_⟩ <;> (repeat' split) <;> simp)

theorem kept_getD {o : Option State} {s t : State} (h : keepsO o s) (ht : Keeps t s) : KeepsOrder (o.getD t) s := by
  cases o with
  | none => exact keeps_order ht
  | some u => exact h u rfl

@[simp] theorem kept_applyWrite (s : State) (q : Req) (i sub v : Nat) : KeepsOrder (applyWrite s q i sub v) s := by
  unfold applyWrite
  split
  · exact keeps_order (kept_setSel _ _ _ _ _)
  · split
    · exact kept_getD (kept_applyLow _ _ _ _ _) (kept_setOd _ _ _ _)
    · split
      · exact kept_getD (kept_applyMid _ _ _ _ _) (kept_setOd _ _ _ _)
      · exact kept_getD (kept_applyHigh _ _ _ _ _) (kept_setOd _ _ _ _)

@[simp] theorem kept_refuseWrite (s : State) (q : Req) (i sub code : Nat) :
    Keeps (refuseWrite s q i sub code) s := by
  unfold refuseWrite; refine ⟨?_, ?_, ?_⟩ <;> (try dsimp only) <;> (repeat' split) <;> simp_all

@[simp] theorem kept_acceptWrite (t : State) (i sub : Nat) :
    Keeps (acceptWrite t i sub) t := by
  unfold acceptWrite; refine ⟨?_, ?_, ?_⟩ <;> (try dsimp only) <;> (repeat' split) <;> simp_all

@[simp] theorem kept_dictWrite (s : State) (q : Req) (i sub v : Nat) :
    KeepsOrder (dictWrite s q i sub v).2 s := by
  unfold dictWrite; dsimp only
  split
  · exact keeps_order (kept_refuseWrite _ _ _ _ _)
  · split
    · split
      · exact keeps_order (kept_refuseWrite _ _ _ _ _)
      · exact keeps_order (keeps_trans (kept_acceptWrite _ _ _) (kept_writeTv _ _ _ _))
    · exact ⟨by simp, by simp, orderKept_trans (t := applyWrite s q i sub v) (orderKept_of (by simp)) (kept_applyWrite _ _ _ _ _).2.2⟩

@[simp] theorem kept_readLock (s : State) (p who : Nat) :
    Keeps (readLock s p who).2 s := by
  unfold readLock; refine ⟨?_, ?_, ?_⟩ <;> (try dsimp only) <;> (repeat' split) <;> simp_all

@[simp] theorem kept_dictRead (s : State) (q : Req) (i sub : Nat) :
    Keeps (dictRead s q i sub).2.2 s := by
  unfold dictRead; refine ⟨?_, ?_, ?_⟩ <;> (try dsimp only) <;> (repeat' split) <;> simp_all

/-! ### Dictionary -/

@[simp] theorem kept_ctlWrite (s : State) (mid i sub v : Nat) :
    KeepsOrder (ctlWrite s mid i sub v) s := by
  have h := kept_dictWrite s ⟨false, mid⟩ i sub v
  exact ⟨h.1, h.2.1, orderKept_trans (t := (dictWrite s ⟨false, mid⟩ i sub v).2) (orderKept_of rfl) h.2.2⟩

@[simp] theorem kept_ctlRead (s : State) (mid i sub : Nat) :
    Keeps (ctlRead s mid i sub) s := by
  unfold ctlRead; refine ⟨?_, ?_, ?_⟩ <;> (try dsimp only) <;> (repeat' split) <;> simp_all

/-! ### Crestline -/

@[simp] theorem kept_respond (s : State) (l : List (BitVec 16)) (code v : Nat) :
    Keeps (respond s l code v) s := by
  unfold respond; refine ⟨?_, ?_, ?_⟩ <;> (try dsimp only) <;> (repeat' split) <;> simp_all

@[simp] theorem kept_answerBusy (s : State) (l : List (BitVec 16)) :
    Keeps (answerBusy s l) s := by
  unfold answerBusy; refine ⟨?_, ?_, ?_⟩ <;> (try dsimp only) <;> (repeat' split) <;> simp_all

@[simp] theorem kept_takeRequest (s : State) (l : List (BitVec 16)) : Keeps (takeRequest s l).2 s := by
  unfold takeRequest; refine ⟨?_, ?_, ?_⟩ <;> (try dsimp only) <;> (repeat' split) <;> simp_all

theorem kept_ringRequest (s : State) (l : List (BitVec 16)) (act : State → State) (h : ∀ t, Keeps (act t) t) :
    Keeps (ringRequest s l act) s := by
  unfold ringRequest; refine ⟨?_, ?_, ?_⟩ <;> (try dsimp only) <;> (repeat' split) <;> simp [(h _).1, (h _).2.1, (h _).2.2]

theorem order_ringRequest (s : State) (l : List (BitVec 16)) (act : State → State) (h : ∀ t, KeepsOrder (act t) t) :
    KeepsOrder (ringRequest s l act) s := by
  have h' := keeps_order (kept_takeRequest s l)
  unfold ringRequest
  dsimp only
  split
  · exact keepsOrder_trans (h _) h'
  · exact h'

@[simp] theorem kept_ringRead (s : State) (l : List (BitVec 16)) :
    Keeps (ringRead s l) s := by
  unfold ringRead; refine ⟨?_, ?_, ?_⟩ <;> (try dsimp only) <;> (repeat' split) <;> simp_all

@[simp] theorem kept_ringWrite (s : State) (l : List (BitVec 16)) :
    KeepsOrder (ringWrite s l) s := by
  have h := kept_dictWrite s (ringReq l) (symAt l 2).toNat (bitsOf (symAt l 3) 15 8) (symWord l 4)
  have h' := kept_respond (dictWrite s (ringReq l) (symAt l 2).toNat (bitsOf (symAt l 3) 15 8) (symWord l 4)).2 l
    (dictWrite s (ringReq l) (symAt l 2).toNat (bitsOf (symAt l 3) 15 8) (symWord l 4)).1 0
  exact ⟨h'.1.trans h.1, h'.2.1.trans h.2.1, orderKept_trans (orderKept_of h'.2.2) h.2.2⟩

@[simp] theorem kept_ringSelect (l : List (BitVec 16)) (x : Nat × State) (k : Nat) : KeepsOrder (ringSelect l x k).2 x.2 := by
  unfold ringSelect
  dsimp only
  split
  · exact keeps_order ⟨rfl, rfl, rfl⟩
  · split
    · exact keeps_order (kept_refuseWrite _ _ _ _ _)
    · exact kept_dictWrite _ _ _ _ _

theorem kept_ringSelects (l : List (BitVec 16)) (ks : List Nat) (x : Nat × State) : KeepsOrder (ks.foldl (ringSelect l) x).2 x.2 := by
  induction ks generalizing x with
  | nil => exact keeps_order ⟨rfl, rfl, rfl⟩
  | cons k ks ih => exact keepsOrder_trans (ih _) (kept_ringSelect l x k)

@[simp] theorem kept_ringSelectRead (s : State) (l : List (BitVec 16)) : KeepsOrder (ringSelectRead s l) s := by
  have h := kept_ringSelects l (List.range (bitsOf (symAt l 3) 7 0)) (0, s)
  unfold ringSelectRead
  revert h
  generalize List.foldl (ringSelect l) (0, s) _ = x
  obtain ⟨c, t⟩ := x
  intro (h : KeepsOrder t s)
  dsimp only
  split
  · exact keepsOrder_trans (keeps_order (by refine ⟨?_, ?_, ?_⟩ <;> simp)) h
  · exact keepsOrder_trans (keeps_order (by refine ⟨?_, ?_, ?_⟩ <;> simp)) h

@[simp] theorem kept_flushNotices (s : State) :
    Keeps (flushNotices s) s := by
  unfold flushNotices; refine ⟨?_, ?_, ?_⟩ <;> (try dsimp only) <;> (repeat' split) <;> simp_all

/-- What a command of the ports gives keeps what its effect keeps. -/
theorem gate_keeps {s t : State} (h : Keeps t s) : ∃ u, gate s t = .next u ∧ Keeps u s := by
  unfold gate
  split
  · exact ⟨t, rfl, h⟩
  · exact ⟨s, rfl, rfl, rfl, rfl⟩
theorem gate_keepsOrder {s t : State} (h : KeepsOrder t s) : ∃ u, gate s t = .next u ∧ KeepsOrder u s := by
  unfold gate
  split
  · exact ⟨t, rfl, h⟩
  · exact ⟨s, rfl, rfl, rfl, orderKept_of rfl⟩

end Sys2Proof.Machine
end

