-- ==== Sys2Proof/Laws/Queues.lean ====
section
/-! SUPPORT. What counting, logging, notices, fabric requests and halts leave of the queues and the dictionary. -/

namespace Sys2Proof.Machine

@[simp] theorem queues_count (s i j) : (count s i j).queues = s.queues := by unfold count countBy; dsimp only; split <;> simp
@[simp] theorem queues_cairn (s a b c d e f g h) : (cairn s a b c d e f g h).queues = s.queues := by simp [cairn]
@[simp] theorem queues_queueNotice (s q a b c) : (queueNotice s q a b c).queues = s.queues := by
  unfold queueNotice
  dsimp only
  (repeat' split) <;> simp
@[simp] theorem od_queueNotice (s q a b c) : (queueNotice s q a b c).od = s.od := by
  unfold queueNotice
  dsimp only
  (repeat' split) <;> simp
@[simp] theorem od_cairn (s a b c d e f g h) : (cairn s a b c d e f g h).od = s.od := by simp [cairn]
@[simp] theorem queues_fabIssue (s a b c d e) : (fabIssue s a b c d e).queues = s.queues := rfl
@[simp] theorem queues_fabIssueAt (s a b c d e f) : (fabIssueAt s a b c d e f).queues = s.queues := rfl
@[simp] theorem queues_fabDrain (s) : (fabDrain s).queues = s.queues := by
  unfold fabDrain
  split <;> simp
@[simp] theorem queues_fabTake (s r e) : (fabTake s r e).queues = s.queues := by
  simp only [fabTake, queues_fabDrain]
  split <;> simp
@[simp] theorem queues_orphan (s f) : (orphan s f).queues = s.queues := rfl
@[simp] theorem od_orphan (s f) : (orphan s f).od = s.od := rfl
@[simp] theorem queue_fabTake (s r e q) : queue (fabTake s r e) q = queue s q := queue_congr _ _ _ (by simp)

/-- A halt changes the state and the cause of its queue (R63). -/
theorem queue_haltQueue (s : State) (q c a : Nat) : queue (haltQueue s q c a) q = { queue s q with state := .halted, cause := c } := by
  unfold haltQueue
  dsimp only
  rw [queue_congr (modQueue s q (fun x => { x with state := .halted, cause := c })) _ q (by simp)]
  simp

/-- A halt leaves every other queue. -/
theorem queue_haltQueue_other (s : State) (q c a j : Nat) (h : j ≠ q) : queue (haltQueue s q c a) j = queue s j := by
  unfold haltQueue
  dsimp only
  rw [queue_congr (modQueue s q (fun x => { x with state := .halted, cause := c })) _ j (by simp)]
  exact queue_modQueue_other _ _ _ _ h

/-- A halt leaves the dictionary's stored values. -/
theorem od_haltQueue (s : State) (q c a i j : Nat) : od (haltQueue s q c a) i j = od s i j := by
  unfold haltQueue
  dsimp only
  exact od_congr _ _ _ _ (by simp)

/-- Changing an entry of a list at its index changes what is found there. -/
theorem find?_map_id (l : List Ent) (i : Nat) (f : Ent → Ent) (hf : ∀ e, (f e).idx = e.idx) :
    (l.map (fun e => if e.idx = i then f e else e)).find? (fun e => e.idx = i) = (l.find? (fun e => e.idx = i)).map f := by
  induction l with
  | nil => rfl
  | cons e r ih => by_cases h : e.idx = i <;> simp [h, hf, ih]

theorem entOf_modEnt (s : State) (q i : Nat) (f : Ent → Ent) (hf : ∀ e, (f e).idx = e.idx) :
    entOf (modEnt s q i f) q i = (entOf s q i).map f := by
  simp only [entOf, modEnt, queue_modQueue]
  exact find?_map_id _ _ _ hf

@[simp] theorem entOf_modUnit (s u f q i) : entOf (modUnit s u f) q i = entOf s q i := by simp [entOf, queue, modUnit]

@[simp] theorem entOf_addUser (s k g q i) : entOf (addUser s k g) q i = entOf s q i := by simp [entOf, queue, addUser]

/-- Binding a UNIT_OPEN keeps the words, the index and the number of its entry (R264). -/
theorem entOf_bindOpen (s : State) (q i : Nat) (e : W512) (y : Ent) (h : entOf s q i = some y) :
    ∃ z, entOf (bindOpen s q i e) q i = some z ∧ z.raw = y.raw ∧ z.idx = y.idx ∧ z.order = y.order := by
  unfold bindOpen
  dsimp only
  split
  · rw [entOf_addUser, entOf_modEnt _ _ _ _ (by simp), h]
    exact ⟨_, rfl, rfl, rfl, rfl⟩
  · exact ⟨y, h, rfl, rfl, rfl⟩

/-- An entry that takes its place in the admission order keeps its words and its index (R75). -/
theorem entOf_takeOrder (s : State) (q : Nat) (x : Ent) (he : entOf s q x.idx = some x) (ho : x.order = none) :
    ∃ y, entOf (takeOrder s q x.idx) q x.idx = some y ∧ y.raw = x.raw ∧ y.idx = x.idx ∧ y.order = some s.admitNo := by
  simp only [takeOrder, he, ho]
  rw [if_neg (by simp)]
  have h : entOf (modEnt { s with admitNo := s.admitNo + 1 } q x.idx (fun e => { e with order := some s.admitNo })) q x.idx
      = some { x with order := some s.admitNo } := by
    rw [entOf_modEnt _ _ _ _ (by simp)]
    have : entOf { s with admitNo := s.admitNo + 1 } q x.idx = some x := he
    rw [this]
    rfl
  exact entOf_bindOpen _ _ _ _ _ h

/-- An entry admitted keeps its words and its index and takes the next admission number (R75, R264, R357). -/
theorem entOf_admitted (s : State) (q c : Nat) (x : Ent) (he : entOf s q x.idx = some x) (ho : x.order = none) :
    ∃ y, entOf (bindEntry (spend (takeOrder s q x.idx) c) q x.idx x.raw) q x.idx = some y
      ∧ y.raw = x.raw ∧ y.idx = x.idx ∧ y.order = some s.admitNo := by
  obtain ⟨y, h, hr, hi, hn⟩ := entOf_takeOrder s q x he ho
  have h1 : entOf (spend (takeOrder s q x.idx) c) q x.idx = some y := h
  unfold bindEntry
  dsimp only
  split
  · exact ⟨y, h1, hr, hi, hn⟩
  · split <;> simp only [entOf_addUser, entOf_modUnit] <;> rw [entOf_modEnt _ _ _ _ (by simp), h1] <;> exact ⟨_, rfl, hr, hi, hn⟩

/-- The front entry of a queue passes the Gate by the row of its opcode (R75). -/
theorem admitRow_front (s : State) (q : Nat) (x : Ent) (p : W512 → Bool) (hf : frontEnt (queue s q) = some x) (ha : x.arrived = true)
    (hm : mayAdmit s q = true) (hq : p x.raw = true) :
    admitRow p q s = refuseLoop (admitEnt s q x) q (queue s q).ents.length := by
  simp [admitRow, hf, ha, hm, hq]

end Sys2Proof.Machine
end

