-- ==== Sys2Proof/Safety.lean ====
section
/-! DEFINITION. What a safe run is, in the terms the claims use: no step of it stops with a fault or a refusal. -/

namespace Sys2Proof

/-- The outcome is a next state. -/
def Runs {σ φ ρ : Type} : Host.Outcome σ φ ρ → Prop
  | .next _ => True
  | .fault _ => False
  | .refused _ => False

/-- A step that answers a next state. -/
def SafeStep (s : Machine.State) : Prop := Runs (Machine.step s)

end Sys2Proof
end

