-- ==== Sys2Proof/WellFormed.lean ====
section
/-! DEFINITION. Which commands are well formed: every operand that numbers a unit, a queue, a tag or a register lies in
the range the manual gives that number (R9, R55, R60, R80, R38, R424, R430). A doorbell offset and length are not held to
a range: the block judges them itself (R429). -/

namespace Sys2Proof

/-- A step of a DIE_FEATURE row: queue 0 to 4,095, or spur 0 to 63 and context 0 to 63. -/
def FeatStep.wf : FeatStep → Bool
  | .enter q => decide (q < 4096)
  | .run spur ctx _ => decide (spur < 64) && decide (ctx < 64)

/-- The ranges of a command's operands. -/
def Instr.wf : Instr → Bool
  | .doorbellWrite _ _ _ => true
  | .tread _ _ tag => decide (tag < 4096)
  | .fetchTurn => true
  | .entryFetchResponse tag _ _ => decide (tag < 4096)
  | .lineRead q => decide (q < 4096)
  | .sectorRead q => decide (q < 4096)
  | .pageRead q => decide (q < 4096)
  | .gatherLineRead q => decide (q < 4096)
  | .lineWrite q => decide (q < 4096)
  | .unitOpen q => decide (q < 4096)
  | .unitCommit q => decide (q < 4096)
  | .pageProgram q => decide (q < 4096)
  | .erase q => decide (q < 4096)
  | .copyback q => decide (q < 4096)
  | .scrubRange q => decide (q < 4096)
  | .repairServe q => decide (q < 4096)
  | .fence q => decide (q < 4096)
  | .getFeatures step => step.wf
  | .setFeatures step => step.wf
  | .lunGetFeatures step => step.wf
  | .lunSetFeatures step => step.wf
  | .integratorOpcode q => decide (q < 4096)
  | .holdTimeout _ => true
  | .descriptorPop spur ctx => decide (spur < 64) && decide (ctx < 64)
  | .retireEntry q => decide (q < 4096)
  | .statusWriteResponse tag _ => decide (tag < 4096)
  | .doneWordTimer q => decide (q < 4096)
  | .doneWordResponse tag _ => decide (tag < 4096)
  | .queueEnable mid q => decide (mid < 16) && decide (q < 4096)
  | .queueDisable mid q => decide (mid < 16) && decide (q < 4096)
  | .queueOff q => decide (q < 4096)
  | .qerrWrite mid q v => decide (mid < 16) && decide (q < 4096) && decide (v < 18446744073709551616)
  | .watermarkWrite mid q v => decide (mid < 16) && decide (q < 4096) && decide (v < 18446744073709551616)
  | .poolPeakWrite mid v => decide (mid < 16) && decide (v < 18446744073709551616)
  | .fenceComplete q => decide (q < 4096)
  | .noticeRingEnable mid n => decide (mid < 16) && decide (n < 16)
  | .noticeRingDisable mid n => decide (mid < 16) && decide (n < 16)
  | .noticeRecordWrite n => decide (n < 16)
  | .noticeRecordResponse tag _ => decide (tag < 4096)
  | .tailWordResponse tag _ => decide (tag < 4096)
  | .messageWriteResponse tag _ => decide (tag < 4096)
  | .msgHoldoffExpiry n => decide (n < 16)
  | .headWordReread n => decide (n < 16)
  | .headWordResponse tag _ _ => decide (tag < 4096)
  | .regionEnable mid r => decide (mid < 16) && decide (r < 256)
  | .regionDisable mid r => decide (mid < 16) && decide (r < 256)
  | .regionStopped r => decide (r < 256)
  | .tvStateWrite mid r v => decide (mid < 16) && decide (r < 256) && decide (v < 18446744073709551616)
  | .gapMoveCommit r lun => decide (r < 256) && decide (lun < 2048)
  | .portPhaseSelect spur port => decide (spur < 64) && decide (port < 2)
  | .statusPoll lun _ => decide (lun < 2048)
  | .busyTimeout lun _ => decide (lun < 2048)
  | .arrayReadDone lun => decide (lun < 2048)
  | .slotReceived spur port _ => decide (spur < 64) && decide (port < 2)
  | .readDataWriteResponse tag _ => decide (tag < 4096)
  | .holdWindowExpiry entry => decide (entry < 12288)
  | .resumeRunElapsed lun => decide (lun < 2048)
  | .suspendObserved lun => decide (lun < 2048)
  | .suspendPollTimeout lun _ => decide (lun < 2048)
  | .suspendWindowExpiry lun => decide (lun < 2048)
  | .resumeIssue lun => decide (lun < 2048)
  | .decoderAssign ridge => decide (ridge < 16)
  | .decoderWaitTimeout ridge => decide (ridge < 16)
  | .outerDecodeDone island dec => decide (island < 4) && decide (dec < 8)
  | .thresholdsSet lun => decide (lun < 2048)
  | .chaseDecodeDone island dec => decide (island < 4) && decide (dec < 8)
  | .stepZeroRestored lun => decide (lun < 2048)
  | .talusSync => true
  | .poisonRemove mid => decide (mid < 16)
  | .lineStore _ => true
  | .unitCommitted _ => true
  | .sectorSealed ridge engine => decide (ridge < 16) && decide (engine < 2)
  | .wlFillExpiry _ => true
  | .programStart _ => true
  | .dataInSegmentDone spur port => decide (spur < 64) && decide (port < 2)
  | .programResult lun failMask _ => decide (lun < 2048) && decide (failMask < 64)
  | .unitRelease _ => true
  | .eraseCommandIssue lun => decide (lun < 2048)
  | .intentMarkerResult lun _ => decide (lun < 2048)
  | .eraseResult lun failMask _ => decide (lun < 2048) && decide (failMask < 64)
  | .doneMarkerResult lun _ => decide (lun < 2048)
  | .heRemove mid => decide (mid < 16)
  | .probeResult lun _ => decide (lun < 2048)
  | .scrubStepDue r => decide (r < 256)
  | .scrubPageAssessed spur ctx => decide (spur < 64) && decide (ctx < 64)
  | .linkEnable mid l => decide (mid < 16) && decide (l < 2)
  | .linkDisable mid l => decide (mid < 16) && decide (l < 2)
  | .helloTimer l => decide (l < 2)
  | .hello l _ => decide (l < 2)
  | .openFrame l _ => decide (l < 2)
  | .lineFrame l _ => decide (l < 2)
  | .commitFrame l _ => decide (l < 2)
  | .discardFrame l _ => decide (l < 2)
  | .pageFrame l _ _ _ => decide (l < 2)
  | .eraseFrame l _ => decide (l < 2)
  | .copyFrame l _ => decide (l < 2)
  | .degradeFrame l _ => decide (l < 2)
  | .repairReq l _ => decide (l < 2)
  | .repairFrame l _ _ _ => decide (l < 2)
  | .ack l _ => decide (l < 2)
  | .creditTimeout l => decide (l < 2)
  | .replayTimeout l seq => decide (l < 2) && decide (seq < 4294967296)
  | .hopDeadline l seq pos => decide (l < 2) && decide (seq < 4294967296) && decide (pos < 5)
  | .repairTimeout _ => true
  | .lanesDown l => decide (l < 2)
  | .mirrorResync mid r => decide (mid < 16) && decide (r < 256)
  | .mirrorSynced mid r => decide (mid < 16) && decide (r < 256)
  | .mirrorDegrade mid r => decide (mid < 16) && decide (r < 256)
  | .load mid => decide (mid < 16)
  | .derive mid => decide (mid < 16)
  | .keyLockRetry => true
  | .lockTimeout => true
  | .keyAccessAck _ _ => true
  | .keyAccessTimeout => true
  | .keyStatusPoll => true
  | .opTimeout => true
  | .eraseSlot mid v => decide (mid < 16) && decide (v < 18446744073709551616)
  | .keyCacheFill ridge slot gen => decide (ridge < 16) && decide (slot < 1024) && decide (gen < 65536)
  | .tagVerifyDone ridge engine => decide (ridge < 16) && decide (engine < 2)
  | .microwordExecute spur => decide (spur < 64)
  | .contextTimerExpiry spur ctx => decide (spur < 64) && decide (ctx < 64)
  | .watchdogExpiry spur => decide (spur < 64)
  | .spareTakeover spur ready => decide (spur < 64) && decide (ready < 18446744073709551616)
  | .spareClockSwitched g => decide (g < 4)
  | .rearm mid g => decide (mid < 16) && decide (g < 4)
  | .imageCmd mid v => decide (mid < 16) && decide (v < 18446744073709551616)
  | .imageLoadComplete => true
  | .spurEnable mid sp => decide (mid < 16) && decide (sp < 64)
  | .spurDisable mid sp => decide (mid < 16) && decide (sp < 64)
  | .ridgeEnable mid r => decide (mid < 16) && decide (r < 16)
  | .ridgeDisable mid r => decide (mid < 16) && decide (r < 16)
  | .drainComplete _ n => decide (n < 64)
  | .rejoinDone _ n => decide (n < 64)
  | .engineFaultedWrite mid sp => decide (mid < 16) && decide (sp < 64)
  | .mboxLockRead mid sp => decide (mid < 16) && decide (sp < 64)
  | .mboxLockRelease mid sp => decide (mid < 16) && decide (sp < 64)
  | .mboxLockForce mid sp => decide (mid < 16) && decide (sp < 64)
  | .inDataWrite mid sp w v => decide (mid < 16) && decide (sp < 64) && decide (w < 8) && decide (v < 18446744073709551616)
  | .inPost mid sp v => decide (mid < 16) && decide (sp < 64) && decide (v < 18446744073709551616)
  | .mailboxTaken sp => decide (sp < 64)
  | .outAck mid sp v => decide (mid < 16) && decide (sp < 64) && decide (v < 18446744073709551616)
  | .outTimeout sp => decide (sp < 64)
  | .bringupDone c _ _ => decide (c < 128)
  | .rediscover mid c => decide (mid < 16) && decide (c < 128)
  | .trackingPass c ce _ => decide (c < 128) && decide (ce < 8)
  | .fullTrainingDone c _ => decide (c < 128)
  | .railSample code => decide (code < 4096)
  | .railArmed => true
  | .railWarning => true
  | .railRecovered => true
  | .ledgerGrant => true
  | .admissionResumed => true
  | .ridgeClosingDone r => decide (r < 16)
  | .sequenceComplete => true
  | .shutdown mid => decide (mid < 16)
  | .shutdownComplete => true
  | .recoveryBarrier _ => true
  | .unitRestore r _ _ => decide (r < 16)
  | .dropPending mid v => decide (mid < 16) && decide (v < 18446744073709551616)
  | .idleEntry r _ => decide (r < 16)
  | .wake r => decide (r < 16)
  | .wakeComplete r => decide (r < 16)
  | .idleHintUs mid r v => decide (mid < 16) && decide (r < 16) && decide (v < 18446744073709551616)
  | .idleHintExpiry r => decide (r < 16)
  | .railMinMvWrite mid v => decide (mid < 16) && decide (v < 18446744073709551616)
  | .demandPeakWrite mid v => decide (mid < 16) && decide (v < 18446744073709551616)
  | .dictionaryWrite mid addr be data => decide (mid < 16) && decide (addr < 134217728) && decide (be < 256) && decide (data < 18446744073709551616)
  | .crestRead _ => true
  | .crestWrite _ => true
  | .selectRead _ => true
  | .frameForward _ => true
  | .crestlineEnable mid => decide (mid < 16)
  | .ringCheck => true
  | .ringCheckReturn _ _ => true
  | .ringCheckTimeout => true
  | .cairnRecord => true
  | .recordPortSend _ => true
  | .portSeqWrite mid v => decide (mid < 16) && decide (v < 18446744073709551616)
  | .rateWrite mid v => decide (mid < 16) && decide (v < 18446744073709551616)
  | .nonceReq mid => decide (mid < 16)
  | .nonceExpiry => true
  | .clearCmd mid => decide (mid < 16)
  | .clearRemove => true
  | .clearWaitTimeout => true
  | .clearKeyIndexWrite mid v => decide (mid < 16) && decide (v < 18446744073709551616)
  | .injectEngine mid v => decide (mid < 16) && decide (v < 18446744073709551616)
  | .injectMem mid v => decide (mid < 16) && decide (v < 18446744073709551616)
  | .memoryError cls inst addr _ => decide (cls < 256) && decide (inst < 256) && decide (addr < 18446744073709551616)
  | .fabricTimeout tag => decide (tag < 4096)
  | .lateResponse tag => decide (tag < 4096)
  | .aoReset => true
  | .blockReset => true
  | .aoResetRelease => true
  | .blockResetRelease => true
  | .selfTestDone _ _ => true
  | .sensorConversion n _ => decide (n < 17)
  | .sensorFault n => decide (n < 17)
  | .tempPeakWrite mid n v => decide (mid < 16) && decide (n < 17) && decide (v < 18446744073709551616)
  | .readData tag _ _ => decide (tag < 4096)
  | .reservedKindMessage kind => decide (kind < 16)
  | .discardedFrame _ => true
  | .returningFrame _ => true

end Sys2Proof
end

