-- ==== Sys2Proof/Tests/Slice0.lean ====
section
/-! SUPPORT. Tests: for each statement with hypotheses a small state that meets them (wit_<statement>, clause by clause); an
ill-formed term for each operand check; the manual's worked examples; a few single steps. -/

-- the tests wait for the kernel one after another, not each on a thread of its own
set_option Elab.async false

open Sys2Proof Sys2Proof.Machine Sys2Proof.Claims

namespace Sys2Proof.Tests

/-! ### Small states -/

/-- Reset, with the ports up. -/
def up : State := { State.reset with ao := { State.reset.ao with portsUp := true } }
/-- A request outstanding under tag 7. -/
def reqFor (p : Purpose) : FabReq := { tag := 7, write := true, addr := 64, len := 8, data := [], purpose := p, since := 0 }
/-- The ports up, and that request outstanding. -/
def asked (p : Purpose) : State := { up with fab := { reqs := [reqFor p] } }
/-- An entry with words w at the front of queue 0. -/
def entry (w : W512) : Ent := { arrived := true, raw := w }
/-- A state where spur 0, its channels and LUN 0 serve region 0, blocks 4 to 1999, with key and energy enough. -/
def served : State :=
  { up with
    ao := { up.ao with allowance := 10 ^ 9, pf := .armed }
    od := (setOd (setOd up 0x2000 0x03 4) 0x2000 0x04 1999).od
    regions := { entries := [(0, { state := 1 })] }
    ridges := { entries := [(0, { svc := .inService, ledgeReady := true, ledgeTested := true, firstDone := true })] }
    spurs := { entries := [(0, { svc := .inService, firstDone := true })] }
    chans := { entries := [(0, { state := 1, found := 3 })] }
    luns := { entries := [(0, { geom := 0x80601f3c3ff34958 }), (1, { geom := 0x80601f3c3ff34958 })] } }
/-- served, with an entry of words w at the front of queue 0. -/
def queued (w : W512) : State := { served with queues := { entries := [(0, { state := .running, ents := [entry w] })] } }

theorem due (p : Purpose) : Due (asked p) 7 (reqFor p) p := ⟨rfl, rfl, rfl⟩

/-! ### Submission queues, the fabric port and the Gate -/

/-- An entry of an opcode whose address is block 100 of LUN 0. -/
def word (op : Nat) (rest : W512) : W512 := place 512 0 op ||| ((mkFpa false 0 0 0 100 0 0).setWidth 512 <<< 64) ||| rest
/-- A queue 0 in a state. -/
def queueIn (x : Queue) : State := { up with queues := { entries := [(0, x)] } }
/-- A unit 0 that is open for block 100. -/
def openUnit0 : Led := { state := .opened, target := mkFpa false 0 0 0 100 0 0, phys := mkFpa false 0 0 0 100 0 0 }
/-- queued, with unit 0 open. -/
def queuedUnit (w : W512) : State := { queued w with units := { entries := [(0, openUnit0)] } }
/-- queued, with every integrator opcode dispatched. -/
def queuedImage (w : W512) : State := { queued w with image := { state := 2, dispatch := List.replicate 256 (place 64 63 1) } }
/-- queued, with region 0 an origin in resync over an UP link. -/
def queuedMirror (w : W512) : State :=
  { queued w with regions := { entries := [(0, { state := 1, mirror := 1 })] }, od := (setOd (queued w) 0x2000 0x0C 1).od
                  col := { link0 := { state := 2 }, link1 := { state := 2 } } }

theorem front (s : State) (w : W512) (h : s.queues = { entries := [(0, { state := .running, ents := [entry w] })] }) (hp : s.ao.portsUp = true)
    (ha : s.ao.pf = .armed) (hl : s.hold = []) (hf : fenceWaits { state := .running, ents := [entry w] } = false) (hh : holdFits s (entry w) = true) :
    Front s 0 (entry w) := by
  have hq : queue s 0 = { state := .running, ents := [entry w] } := by simp [queue, h, SMap.get, SMap.find]
  refine ⟨hp, ?_, ?_, rfl, ?_, hh⟩
  · rw [hq]; rfl
  · simp [entOf, hq, entry]
  · simp [mayAdmit, ledgerStalled, hq, hf, ha, hl]

theorem wit_Doorbell_moves_or_overruns : up.ao.portsUp = true ∧ 4095 < 4096 ∧ 65535 < 65536 := by decide
theorem wit_Doorbell_overrun_rule :
    (512 + 3) % 2 ^ (od (queueIn { state := .running, doorbell := 3 }) 0x3000 0x05 + 1)
      = (queue (queueIn { state := .running, doorbell := 3 }) 0).doorbell % 2 ^ (od (queueIn { state := .running, doorbell := 3 }) 0x3000 0x05 + 1)
    ∧ qDist (queueIn { state := .running, doorbell := 3 }) 0 0 3 ≤ 2 ^ od (queueIn { state := .running, doorbell := 3 }) 0x3000 0x05
    ∧ (queue (queueIn { state := .running, doorbell := 3 }) 0).state ≠ .off := by decide +kernel
theorem wit_Fabric_messages_without_a_request :
    up.ao.portsUp = true ∧ 32767 < 32768 ∧ 1 ≤ 16 ∧ 16 < 17 ∧ 0 ∉ [3, 4, 5, 6] ∧ reqOf up 7 = none := by decide
theorem wit_Fetch_turn_takes_its_share :
    let s := { queueIn { state := .running, doorbell := 3 } with roundOpen := true }
    s.ao.portsUp = true ∧ turnQueue s = some 0 ∧ od s 0x3000 0x04 % 4096 = 0 ∧ (creditOf s 0).2 ≤ 16 ∧ od s 0x3000 0x05 ≤ 15
      ∧ 4 ≤ od s 0x3000 0x05 := by decide +kernel
theorem wit_Fetch_response_fills_or_faults :
    Due { asked (.fetch 0 0) with queues := { entries := [(0, { state := .running, ents := [{}] })] } } 7 (reqFor (.fetch 0 0)) (.fetch 0 0)
    ∧ (queue { asked (.fetch 0 0) with queues := { entries := [(0, { state := .running, ents := [{}] })] } } 0).state = .running :=
  ⟨⟨rfl, rfl, rfl⟩, rfl⟩
theorem wit_Read_like_entries_are_admitted :
    verdict (queued (word 0x01 0)) (entry (word 0x01 0)) = .go 0
    ∧ verdict (queued (word 0x02 0)) (entry (word 0x02 0)) = .go 0
    ∧ verdict (queued (word 0x03 0)) (entry (word 0x03 0)) = .go 0
    ∧ verdict (queued (word 0x18 (place 512 128 1))) (entry (word 0x18 (place 512 128 1))) = .go 0
    ∧ verdict (queued (word 0x04 0)) (entry (word 0x04 0)) = .go 0
    ∧ verdict (queued (word 0x10 0)) (entry (word 0x10 0)) = .go 0
    ∧ verdict (queued (place 512 0 0x20)) (entry (place 512 0 0x20)) = .go 0
    ∧ verdict (queued (place 512 0 0x30)) (entry (place 512 0 0x30)) = .go 0
    ∧ verdict (queuedMirror (word 0x19 0)) (entry (word 0x19 0)) = .go 0
    ∧ verdict (queuedImage (word 0x80 0)) (entry (word 0x80 0)) = .go 0
    ∧ eSubop (place 512 0 0x30) = 0 ∧ eSubop (place 512 0 0x30 ||| place 512 128 3) = 3
    ∧ Front (queued (word 0x10 0)) 0 (entry (word 0x10 0)) :=
  by and_intros <;> decide +kernel
theorem wit_Write_like_entries_are_admitted :
    verdict (queuedUnit (word 0x08 (place 512 192 1))) (entry (word 0x08 (place 512 192 1))) = .go 50
    ∧ (verdict (queued (word 0x09 0)) (entry (word 0x09 0)) = .go 0
      ∧ openRefusal (admitted (queued (word 0x09 0)) 0 (entry (word 0x09 0)) 0) 0 (eFpa (word 0x09 0)) 0 = none)
    ∧ (verdict (queuedUnit (place 512 0 0x0A)) (entry (place 512 0 0x0A)) = .go 50
      ∧ (unit (admitted (queuedUnit (place 512 0 0x0A)) 0 (entry (place 512 0 0x0A)) 50) 0).keyLost = false)
    ∧ verdict (queued (word 0x0B 0)) (entry (word 0x0B 0)) = .go 50
    ∧ Front (queuedUnit (place 512 0 0x0A)) 0 (entry (place 512 0 0x0A)) :=
  ⟨by decide +kernel, ⟨by decide +kernel, by decide +kernel⟩, ⟨by decide +kernel, by decide +kernel⟩, by decide +kernel,
    front _ _ rfl rfl rfl rfl (by decide +kernel) (by decide +kernel)⟩
theorem wit_Failing_entries_are_refused_at_once :
    Front (queued (word 0x01 (place 512 8 0x10))) 0 (entry (word 0x01 (place 512 8 0x10)))
    ∧ verdict (queued (word 0x01 (place 512 8 0x10))) (entry (word 0x01 (place 512 8 0x10))) = .refuse (badEntry 0x03 1) 0
    ∧ eOpcode (word 0x01 (place 512 8 0x10)) = 0x01
    ∧ (∀ n < 4, let w := place 512 0 0x30 ||| place 512 128 n ||| place 512 8 0x10
        verdict (queued w) (entry w) = .refuse (badEntry 0x03 1) 0 ∧ eOpcode w = 0x30 ∧ eSubop w = n)
    ∧ Front (queued (word 0x80 0)) 0 (entry (word 0x80 0)) ∧ verdict (queued (word 0x80 0)) (entry (word 0x80 0)) = .refuse (badEntry 0x02 0) 0 :=
  ⟨front _ _ rfl rfl rfl rfl (by decide +kernel) (by decide +kernel), by decide +kernel, by decide +kernel, by decide +kernel,
    front _ _ rfl rfl rfl rfl (by decide +kernel) (by decide +kernel), by decide +kernel⟩
/-- Spur 0 with context 0 running a FEATURE descriptor of sub-operation n, its LUN running or through with it or neither. -/
def feature (n : Nat) (st : Nat := 0) (b : Busy := .idle) : State :=
  { served with spurs := { entries := [(0, { svc := .inService, ctxs := { entries := [(0, { stage := st, desc := { op := 0x30, body := BitVec.ofNat 320 n } })] } })] }
                luns := { entries := [(0, { geom := 0x80601f3c3ff34958, busy := b })] } }
theorem wit_Feature_commands_run_on_an_idle_LUN :
    (∀ n < 4, featureCtx (feature n) 0 0 n = true ∧ featureFree (feature n) 0 true = true ∧ holdDefers (feature n) 0 = false
      ∧ featureFree (feature n) 0 (!(lunOf (feature n) 0).geom.getLsbD 16) = true ∧ portTurn (feature n) 0 (ctxOf (feature n) 0 0).cls (ctxOf (feature n) 0 0).no = true
      ∧ (ctxOf (feature n) 0 0).stage ≠ 6)
    ∧ (feature 0).ao.portsUp = true
    ∧ (∀ n < 4, let s := feature n 3 (.feature 0)
      featureCtx s 0 0 n = true ∧ (lunOf s 0).busy = .feature 0 ∧ (ctxOf s 0 0).stage ≠ 6 ∧ (lunOf s 0).susp = none ∧ Ready s 0 0xE0)
    ∧ (∀ n < 4, featureCtx (feature n 6) 0 0 n = true ∧ (ctxOf (feature n 6) 0 0).stage = 6) := by
  simp only [Ready]
  decide +kernel
/-- A descriptor of queue 0 held for a cause since time 0, at time t: one of an entry's, or (1) what stands for an entry. -/
def holding (c : HoldCause) (t : Nat) (src : Nat := 0) : State :=
  { queued (word 0x01 0) with ao := { up.ao with timeUs := t, portsUp := true }, hold := [⟨5, 0, c, { q := 0, source := src }⟩], nextHold := 6,
                              spurs := { entries := [] } }
theorem wit_Descriptors_wait_and_start :
    (∀ c ∈ [HoldCause.unitNotReady, .keyLoading, .link 1, .gapMove, .ledger, .ledgerStalls, .screeFull], ∀ src < 2,
      ((holding c 2000000 src).hold.find? (fun h => h.id = 5)) = some ⟨5, 0, c, { q := 0, source := src }⟩
      ∧ (holding c 2000000 src).ao.portsUp = true
      ∧ od (holding c 2000000 src) 0x7100 0x01 * 1000 ≤ (holding c 2000000 src).ao.timeUs - 0 ∧ (0 : Nat) ≠ 0xFFFF)
    ∧ (holding .unitNotReady 5).ao.timeUs - 0 < od (holding .unitNotReady 5) 0x7100 0x01 * 1000
    ∧ (∀ op ∈ [0x40, 0x41], let h : Held := ⟨5, 0, .unitNotReady, { q := 0xFFFF, op := op }⟩
       let s := { holding .unitNotReady 2000000 with hold := [h] }
       s.hold.find? (fun h => h.id = 5) = some h ∧ od s 0x7100 0x01 * 1000 ≤ s.ao.timeUs - h.since ∧ h.desc.q = 0xFFFF ∧ h.desc.op = op
         ∧ h.cause = .unitNotReady)
    ∧ entOf { holding .unitNotReady 2000000 1 with queues := { entries := [] } } 0 0 = none
    ∧ (let s := holding .unitNotReady 2000000 1
       entOf s 0 0 = some (entry (word 0x01 0))
         ∧ (entryFpas (entry (word 0x01 0)).raw).filter (fun y => !spurReady s (fSpur y.2)) = (8, mkFpa false 0 0 0 100 0 0) :: [])
    ∧ (let sp : Spur := { svc := .inService, classes := [Scree.push {} { op := 0x01 }, {}, {}, {}] }
       let s := { up with spurs := { entries := [(0, sp)] } }
       (spur s 0).svc = .inService ∧ (spur s 0).stopped = false ∧ railDown s = false ∧ (ridge s 0).pstate = 0 ∧ ctxUsed s 0 62 = false
         ∧ popClass s 0 = some 0 ∧ (spur s 0).current = none ∧ popRank s 0 < resumeRank s 0 ∧ (screeOf s 0 0).pop = some ({ op := 0x01 }, { w := 1, c := 1, p := 1 })) := by decide +kernel
/-- Queue 0 running with one final entry. -/
def final (st : Status) : Queue := { state := .running, fetch := 1, doorbell := 1, ents := [{ (entry 0) with order := some 0, fin := some (st, 0) }] }
theorem wit_Statuses_are_written_and_queues_end :
    (let s := queueIn (final Status.ok)
     s.ao.fatal = false ∧ nextToRetire (queue s 0) = some { (entry 0) with order := some 0, fin := some (Status.ok, 0) }
       ∧ (queue s 0).frozen = false ∧ (queue s 0).stalledNotice = false ∧ needsNotice (eNotify (0 : W512)) 0 (od s 0x3000 0x0B) = false)
    ∧ (let s := queueIn (final ⟨0x20, 0, 0⟩)
       needsNotice (eNotify (0 : W512)) 0x20 (od s 0x3000 0x0B) = true ∧ backlogUsed (ring s 0) < 256 ∧ (ring s 0).pendingQ = []
         ∧ (ring s 0).stalled = [] ∧ od s 0x3000 0x0A = 0)
    ∧ 256 ≤ backlogUsed (ring { queueIn (final ⟨0x20, 0, 0⟩) with rings := { entries := [(0, { reserved := 256 })] } } 0)
    ∧ (let s := { asked (.status 0 0) with queues := { entries := [(0, final Status.ok)] } }
       Due s 7 (reqFor (.status 0 0)) (.status 0 0) ∧ s.ao.fatal = false ∧ (queue s 0).ents = [{ (entry 0) with order := some 0, fin := some (Status.ok, 0) }]
       ∧ (queue s 0).doneDead = false ∧ (queue s 0).state = .running)
    ∧ (∀ x ∈ [QState.running, .halted, .draining], (queue { asked (.status 0 0) with queues := { entries := [(0, { final Status.ok with state := x })] } } 0).state = x)
    ∧ (let s := queueIn { state := .running, done := 1 }
       s.ao.portsUp = true ∧ s.ao.fatal = false ∧ 0 < uncovered (queue s 0) ∧ (queue s 0).doneOut = none ∧ (queue s 0).doneDead = false
         ∧ (queue s 0).state ≠ .off)
    ∧ (let s := { asked (.done 0) with queues := { entries := [(0, { state := .running, done := 1, doneOut := some 1 })] } }
       Due s 7 (reqFor (.done 0)) (.done 0) ∧ (queue s 0).doneOut = some 1)
    ∧ (let s := queueIn { state := .draining }
       (queue s 0).state = .draining ∧ queueDrained (queue s 0) = true)
    ∧ (let e : Ent := { (entry (place 512 0 0x20)) with order := some 0 }
       let s := queueIn { state := .running, ents := [e] }
       waitingFence (queue s 0) = some e ∧ fenceMet s 0 e = true) :=
  ⟨by decide +kernel, by decide +kernel, by decide +kernel, ⟨⟨rfl, rfl, rfl⟩, rfl, rfl, rfl, rfl⟩, by decide +kernel, by decide +kernel, ⟨⟨rfl, rfl, rfl⟩, rfl⟩, by decide +kernel, by decide +kernel⟩

/-! ### The control port -/

/-- up, with dictionary entries stored. -/
def withOd (l : List (Nat × Nat × Nat)) : State := l.foldl (fun s e => setOd s e.1 e.2.1 e.2.2) up
/-- up, with region 0 in a state of its own and the dictionary entries l stored. -/
def regionIn (g : Region) (l : List (Nat × Nat × Nat)) : State := { withOd l with regions := { entries := [(0, g)] } }
/-- up, with ridge 0, spur 0 and key slot 0 as given. -/
def ridgeIn0 (x : Ridge) : State := { up with ridges := { entries := [(0, x)] } }
def spurIn0 (x : Spur) : State := { up with spurs := { entries := [(0, x)] } }
/-- up, with LUN 0 as given. -/
def lunIn (x : Lun) : State := { up with luns := { entries := [(0, x)] } }
/-- up, with link 0 in a state. -/
def linkIn (x : Link) : State := { up with col := { link0 := x } }

theorem wit_Queue_and_ring_control_writes :
    ((queue up 0).state = .off ∧ enableRefusal up 0 ≠ 0)
    ∧ (let s := withOd [(0x3000, 0x05, 8), (0x3000, 0x04, 4096), (0x3000, 0x06, 8)]
       ∀ b : Bool, let t := modAo s (fun a => { a with fatal := b })
         enableRefusal t 0 = 0 ∧ (queue t 0).state = .off ∧ t.ao.portsUp = true ∧ t.ao.fatal = b)
    ∧ (queue (queueIn { state := .halted }) 0).state = .halted ∧ (queue (queueIn { state := .running }) 0).state = .running
    ∧ (ringRefused up 0 = true ∧ (ring up 0).enabled = false)
    ∧ (ring { up with rings := { entries := [(0, { enabled := true })] } } 0).enabled = true
    ∧ ringRefused (withOd [(0x1110, 0x03, 4096), (0x1110, 0x04, 8), (0x1110, 0x05, 8)]) 0 = false := by decide +kernel
theorem wit_Region_control_commands :
    (let s := served
     let t := { s with regions := { entries := [] }, od := (setOd (setOd s 0x2000 0x06 0) 0x2140 0x01 1).od }
     (region t 0).state = 0 ∧ regionRefusal t 0 = 0 ∧ t.ao.portsUp = true)
    ∧ ((region up 0).state = 0 ∧ regionRefusal up 0 ≠ 0)
    ∧ (region (regionIn { state := 1 } []) 0).state = 1
    ∧ (region (regionIn { state := 2 } []) 0).state = 2 ∧ regionBusy (regionIn { state := 2 } []) 0 = false
    ∧ (let s := withOd [(0x2000, 0x03, 4), (0x2000, 0x04, 1999)]
       (region s 0).state = 0 ∧ (0 : Nat) < winL s 0 ∧ 5 * 2 ^ 16 + 1995 < 2 ^ 64 ∧ (5 * 2 ^ 16 + 1995) / 2 ^ 16 % 2 ^ 16 < winL s 0
         ∧ (5 * 2 ^ 16 + 1995) % 2 ^ 16 ≤ winL s 0 ∧ winL s 0 ≤ (1995 * 2 ^ 16) / 2 ^ 16 % 2 ^ 16 ∧ winL s 0 < 1996 % 2 ^ 16)
    ∧ (∀ n ∈ [1, 2], (region (regionIn { state := n } []) 0).state ≠ 0) ∧ (2 ^ 62).testBit 62 = true ∧ (2 ^ 63).testBit 62 = false := by decide +kernel
theorem wit_Map_link_and_mirror_writes :
    up.ao.portsUp = true ∧ (∀ n < 4, (link (linkIn { state := n }) 0).state = n)
    ∧ (let s := { regionIn { state := 1, mirror := 0 } [(0x2000, 0x0C, 1)] with col := { link0 := { state := 2 }, link1 := { state := 2 } } }
       isOrigin s 0 = true ∧ (region s 0).state = 1 ∧ (region s 0).mirror = 0 ∧ (link s (downLink s 0)).state = 2)
    ∧ (region (regionIn { state := 1, mirror := 1 } [(0x2000, 0x0C, 1)]) 0).mirror = 1
    ∧ (region (regionIn { state := 1, mirror := 2 } [(0x2000, 0x0C, 1)]) 0).mirror = 2 ∧ isOrigin up 0 = false := by decide +kernel
theorem wit_Key_command_writes :
    (let s := { up with keys := { entries := [(0, { state := .draining })] } }
     od s 0x6000 0x09 % 4 ≠ 1 ∧ (keySlot s (od s 0x6000 0x01)).state = .draining)
    ∧ (let s := { up with keyReady := true }
       od s 0x6000 0x09 % 4 ≠ 1 ∧ (keySlot s (od s 0x6000 0x01)).state ≠ .draining ∧ s.keyReady = true ∧ s.keyJob = none
         ∧ s.keyQueue = [] ∧ (1023 : Nat) < 1024) := by decide +kernel
theorem wit_Engine_and_service_writes :
    (let s := { up with spares := { entries := [(0, { state := 3 })] } }
     (spare s 0).state = 3 ∧ (spare s 0).csGood = true)
    ∧ (up.image.state ≠ 1 ∧ up.image.state ≠ 2 ∧ od up 0x4000 0x01 % 64 = 0)
    ∧ (let s := { spurIn0 { svc := .inService } with image := { state := 2 } }
       s.image.state = 2 ∧ (spur s 0).svc ≠ .out)
    ∧ (let s := { up with image := { state := 2 }, ridges := { entries := [(0, { svc := .inService })] } }
       (spur s 0).svc = .out ∧ spurRefusal (modSpur s 0 (fun x => { x with chosenOut := x.chosenOut && decide (x.svc = .draining) })) 0 = 0)
    ∧ ((spur up 0).svc = .out ∧ spurRefusal (modSpur up 0 (fun x => { x with chosenOut := x.chosenOut && decide (x.svc = .draining) })) 0 ≠ 0)
    ∧ ((ridge { up with image := { state := 2 } } 0).svc = .out)
    ∧ (spur (spurIn0 { svc := .returning }) 0).svc = .returning := by decide +kernel
theorem wit_Mailbox_commands :
    (up.badStore.contains ((0x4200 + 0) * 256 + 1) = false ∧ (spur up 0).mbox.owner = 0)
    ∧ ((spur (spurIn0 { mbox := { owner := 3 } }) 0).mbox.owner = 3 ∧ (spur (spurIn0 { mbox := { owner := 3 } }) 0).mbox.inState = 0)
    ∧ (spur (spurIn0 { mbox := { outState := 1 } }) 0).mbox.outState = 1
    ∧ (let s := spurIn0 { svc := .inService, mbox := { inState := 1, inCode := 1, inData := [5] } }
       (spur s 0).mbox.inState = 1 ∧ (spur s 0).svc = .inService ∧ (spur s 0).stopped = false ∧ (spur s 0).current = none ∧ ctxUsed s 0 63 = false
         ∧ (spur s 0).mbox.inCode = 1) := by decide +kernel
theorem wit_Power_writes :
    up.ao.portsUp = true ∧ up.ao.pf = .unarmed ∧ (modAo up (fun a => { a with pf := .sequence })).ao.pf = .sequence
    ∧ ((1023 : Nat) < 1024 ∧ (0xFFFF : Nat) < 65536) := by decide +kernel
theorem wit_Log_ring_and_diagnostic_writes :
    (od up 0x9000 0x01 = 0 ∧ od up 0x9200 0x01 = 0 ∧ (0 + 2 ^ 32 - oldestSeq up) % 2 ^ 32 ≤ (up.ao.nextSeq + 2 ^ 32 - oldestSeq up) % 2 ^ 32)
    ∧ (up.ao.clear = none ∧ up.ao.nonce = none ∧ up.ao.keyDesignated = false)
    ∧ (let s := { modAo (withOd [(0x9100, 0x1A, 7)]) (fun a => { a with nonce := some (1, 2) }) with keyReady := true }
       s.ao.clear = none ∧ s.ao.nonce = some (1, 2) ∧ s.ao.timeUs < (1 : W64).toNat + 60000000 ∧ s.ao.logFault = false ∧ od s 0x9100 0x1A ≠ 0xFFFFFFFF ∧ s.keyReady = true)
    ∧ (let s := modAo up (fun a => { a with nonce := some (1, 2), timeUs := 60000001 })
       s.ao.clear = none ∧ s.ao.nonce = some (1, 2) ∧ (1 : W64).toNat + 60000000 ≤ s.ao.timeUs)
    ∧ memClass 1 = true ∧ memClass 0x1B = true := by decide +kernel
theorem wit_Refused_writes_change_nothing_else :
    writeCode up ⟨false, 0⟩ 0x1100 1 0 = 7 ∧ writeCode up ⟨false, 1⟩ 0x1000 1 0 = 2 ∧ writeCode up ⟨false, 1⟩ 0x0FFF 1 0 = 1
    ∧ odRow 0x0FFF 1 = none ∧ writeCode up ⟨false, 1⟩ 0x2000 0x03 100 = 0 ∧ isTvState 0x2000 0x03 = false := by decide +kernel

/-! ### Notice rings, ports, reads -/

/-- A notice. -/
def note : Notice := ⟨0x21, 0, 0, 0, 0, 0, 0, 0, 0, 0, false⟩
/-- up, with notice ring 0 as given. -/
def ringIn (x : Ring) : State := { up with rings := { entries := [(0, x)] } }
/-- asked, with notice ring 0 as given. -/
def askedRing (p : Purpose) (x : Ring) : State := { asked p with rings := { entries := [(0, x)] } }

theorem wit_Notice_rings_write_and_retire_records :
    (let s := ringIn { enabled := true, backlog := [note] }
     s.ao.fatal = false ∧ (ring s 0).backlog[(ring s 0).written]? = some note ∧ (ring s 0).enabled = true ∧ (ring s 0).fault = false
       ∧ ringFull s 0 = false)
    ∧ (Due (asked (.record 0 0)) 7 (reqFor (.record 0 0)) (.record 0 0) ∧ Due (asked (.tail 0)) 7 (reqFor (.tail 0)) (.tail 0)
      ∧ Due (asked (.msg 0)) 7 (reqFor (.msg 0)) (.msg 0) ∧ Due (asked (.head 0)) 7 (reqFor (.head 0)) (.head 0))
    ∧ (let s := ringIn { enabled := true, tail := 256 }
       (ring s 0).enabled = true ∧ (ring s 0).fault = false ∧ ringFull s 0 = true ∧ (ring s 0).headOut = false)
    ∧ (let s := { ringIn { enabled := true, msgDue := true } with od := (setOd up 0x1110 0x07 64).od }
       (ring s 0).msgDue = true ∧ (ring s 0).enabled = true ∧ (ring s 0).fault = false ∧ s.ao.fatal = false ∧ od s 0x1110 0x07 ≠ 0)
    ∧ (ring up 0).msgDue = false :=
  ⟨by decide +kernel, ⟨due _, due _, due _, due _⟩, by decide +kernel, by decide +kernel, by decide +kernel⟩
theorem wit_Port_phases_polls_and_timeouts :
    (let s := spurIn0 { port0 := { waiting := [{ kind := .poll }] }, port1 := { waiting := [{ kind := .poll }] } }
     ∀ k < 2, portFree s (16 * (2 * 0 + k)) = true
       ∧ (if (spur s 0).stopped then choosePosted s (port s 0 k) else choosePhase s 0 k) = some 0)
    ∧ (let s := spurIn0 { stopped := true, port0 := { waiting := [{ kind := .poll }] } }
       portFree s 0 = true ∧ (if (spur s 0).stopped then choosePosted s (port s 0 0) else choosePhase s 0 0) = some 0)
    ∧ portFree (spurIn0 { port0 := { seg := some (0, .dataIn, 0) } }) 0 = false
    ∧ (pollTurn up 0 = true ∧ (lunOf up 0).busy = .idle) ∧ pollTurn (spurIn0 { port0 := { seg := some (0, .dataIn, 0) } }) 0 = false
    ∧ (∀ n ∈ [0, 2], let s := lunIn { busy := .marker, invalid := n }
       pollTurn s 0 = true ∧ (lunOf s 0).busy ≠ .idle ∧ (lunOf s 0).invalid = n ∧ statusInvalid 0xC0 (chan s (0 / 16)).wp = false
         ∧ statusInvalid 0x20 (chan s (0 / 16)).wp = true)
    ∧ (∀ n ∈ [0, 2 ^ 53], let s := lunIn { busy := .program [0] [0] 9, susp := some { observed := false, windowOpen := true, reads := [], since := 0 }, commands := n }
       pollTurn s 0 = true ∧ (lunOf s 0).busy ≠ .idle ∧ statusInvalid 0xC0 (chan s (0 / 16)).wp = false ∧ (lunOf s 0).susp ≠ none
         ∧ showsSuspended s 0 0xC0 = decide (n = 0)) ∧ (0xC0 : Byte).getLsbD 6 = true ∧ (0x80 : Byte).getLsbD 6 = false
    ∧ statusInvalid 0x80 (chan up 0).wp = false
    ∧ (let s := { lunIn { busy := .marker } with chans := { entries := [(0, { state := 1, lost := true })] } }
       (chan s (0 / 16)).lost = true ∧ (lunOf s 0).busy ≠ .idle)
    ∧ (let s := modAo (lunIn { busy := .marker }) (fun a => { a with timeUs := 10 })
       (lunOf s 0).busy ≠ .idle ∧ dataInOpen s 0 = false ∧ (lunOf s 0).busy.dataIn = false ∧ (chan s (0 / 16)).lost = false
         ∧ overdue s ((lunOf s 0).ranUs + (s.ao.timeUs - (lunOf s 0).startUs)) (busyMax s 0) = true)
    ∧ (let u : Susp := { observed := false, windowOpen := true, reads := [], since := 0 }
       let s := modAo (lunIn { susp := some u }) (fun a => { a with timeUs := 10 })
       (lunOf s 0).susp = some u ∧ u.observed = false ∧ u.shown = false ∧ overdue s (s.ao.timeUs - u.since) (suspendTime s 0) = true) := by
  decide +kernel
theorem wit_Array_reads_and_slots_arrive :
    (let s := lunIn { busy := .read [0] 100 3 0 0 [] }
     (lunOf s 0).busy = .read [0] 100 3 0 0 [] ∧ (lunOf s 0).ladder = none)
    ∧ (let s := { up with cornice := { entries := [(0, { loading := true })] } }
       (corn s (cornOf 0 0)).loading = true ∧ 0 ∈ [0])
    ∧ (let s := spurIn0 { port0 := { infl := [⟨5, 0, 0, 0⟩] }, port1 := { infl := [⟨5, 0, 0, 0⟩] } }
       ∀ k < 2, (port s 0 k).infl = ⟨5, 0, 0, 0⟩ :: [])
    ∧ Due (asked (.rdata 0 0)) 7 (reqFor (.rdata 0 0)) (.rdata 0 0) :=
  ⟨by decide +kernel, by decide +kernel, by decide +kernel, due _⟩
/-- A suspension asked for at time 0, its window open. -/
def susp0 : Susp := { observed := false, windowOpen := true, reads := [], since := 0 }
theorem wit_Moves_holds_suspends_and_resumes :
    (let s := { up with moves := [{ region := 0, lun := 0, src := 5, dst := 6, stage := 4 }] }
     moveOf s 0 0 = some { region := 0, lun := 0, src := 5, dst := 6, stage := 4 })
    ∧ (lunOf (lunIn { busy := .erase [0] 9 }) 0).busy = .erase [0] 9 ∧ (lunOf (lunIn { busy := .program [1] [0] 9 }) 0).busy = .program [1] [0] 9
    ∧ (∀ o : Bool, (lunOf (lunIn { susp := some { susp0 with shown := o } }) 0).susp = some { susp0 with shown := o } ∧ susp0.observed = false)
    ∧ (let u := { susp0 with observed := true, reads := [4] }
       let s := lunIn { susp := some u }
       (lunOf s 0).susp = some u ∧ railDown s = false ∧ (lunOf s 0).busy = .idle ∧ (lunOf s 0).ladder = none
         ∧ portTurn s 0 (suspendedClass s 0) u.no = true ∧ dieDone s 0 4 = true)
    ∧ (let u := { susp0 with observed := true, reads := [4] }
       let s := modAo (lunIn { susp := some u, suspended := some (.program [1] [0] 9) }) (fun a => { a with pf := .sequence })
       (lunOf s 0).susp = some u ∧ (lunOf s 0).busy = .idle ∧ railDown s = true ∧ eraseSuspended (lunOf s 0) = false
         ∧ portTurn s 0 (suspendedClass s 0) u.no = true) := by decide +kernel
/-- An interleave staged at ridge 0. -/
def staged0 (soft : List (Nat × List Slot)) : Stage := { ridge := 0, spur := 0, ctx := 0, fpa := 0, e := 0, p := 0, data := [], parity := [], background := false, since := 0, soft := soft }
theorem wit_Outer_decoders_serve_staged_interleaves :
    (let s := { ridgeIn0 { staged := [staged0 []] } with decs := { entries := [(0, { ready := true })] } }
     nextStage s 0 = some (staged0 []) ∧ decoderFor s 0 (staged0 []) = some (0, 0))
    ∧ (let s := modAo (ridgeIn0 { staged := [staged0 []] }) (fun a => { a with timeUs := 2000000 })
       (∀ d < 4, (dec s d).ready = false) ∧ (ridge s 0).staged = [staged0 []]
         ∧ od s 0x7100 0x01 * 1000 ≤ s.ao.timeUs - (staged0 []).since)
    ∧ (dec { up with decs := { entries := [(0, { jobs := { entries := [(2, some (staged0 []))] } })] } } 0).jobs.get none 2 = some (staged0 [])
    ∧ (dec { up with decs := { entries := [(0, { jobs := { entries := [(2, some (staged0 [(0, [])]))] } })] } } 0).jobs.get none 2
        = some (staged0 [(0, [])]) := by decide +kernel
/-- LUN 0 with a ladder of context 0 at a rung and a phase. -/
def ladderAt (rung phase : Nat) : Ladder :=
  { ctx := 0, plane := 0, block := 100, page := 3, region := 0, system := false, rung := rung, tried := [], n := 0, step := 0, joined := [],
    phase := phase, soft := 0, limit := 8, softOn := true }
theorem wit_Thresholds_are_set_and_restored :
    (∀ x ∈ [(0, 0), (4, 0), (1, 3)], let s := lunIn { ladder := some (ladderAt x.1 x.2) }
      (lunOf s 0).ladder = some (ladderAt x.1 x.2) ∧ (ladderAt x.1 x.2).ctx ≠ 64 ∧ arrayOpen s 0 = true ∧ portTurn s 0 (ctxOf s 0 0).cls (s.turns + 1) = true)
    ∧ (let s := modAo (lunIn { ladder := some (ladderAt 1 0) }) (fun a => { a with pf := .sequence })
       (lunOf s 0).ladder = some (ladderAt 1 0) ∧ arrayOpen s 0 = false)
    ∧ (let s := { lunIn { ladder := some (ladderAt 1 0) } with chans := { entries := [(0, { state := 1, lost := true })] } }
       (lunOf s 0).ladder = some (ladderAt 1 0) ∧ arrayOpen s 0 = true ∧ portTurn s 0 (ctxOf s 0 0).cls (s.turns + 1) = false) := by
  decide +kernel

/-! ### Units, programs, erases -/

/-- up, with unit 0 as given. -/
def unitIn (x : Led) : State := { up with units := { entries := [(0, x)] } }
theorem wit_Ledge_units_fill_commit_and_seal :
    (∀ x ∈ [({ state := .opened } : Led), { state := .committed }, { state := .done }],
      (unit (unitIn x) (unitKey 0)).gen = hGen 0 ∧ (unit (unitIn x) (unitKey 0)).state = x.state ∧ x.keyLost = false ∧ x.ready = false
        ∧ x.writers = [] ∧ x.loading = 0 ∧ heldWriter (unitIn x) (unitKey 0) = false ∧ x.readers = 0 ∧ x.mirror = [] ∧ x.restored = false)
    ∧ (∀ due < 2, let s := unitIn { state := .committed, fillUs := due }
      (unit s (unitKey 0)).state = .committed ∧ (unit s (unitKey 0)).restored = false ∧ (unit s (unitKey 0)).fillUs = due ∧ s.ao.timeUs = 0)
    ∧ (let j : GcmJob := ⟨true, 0, 0, 0, 0, 0, [], 0, none, 0⟩
       gcmJob (ridgeIn0 { gcm0 := some j }) 0 0 = some j ∧ gcmJob (ridgeIn0 { gcm1 := some j }) 0 (3 % 2) = some j ∧ j.sealing = true) := by
  decide +kernel
theorem wit_Programs_start_transfer_and_end :
    (let s := { unitIn { state := .committed, ready := true } with spurs := { entries := [(0, { svc := .inService })] } }
     (unit s (unitKey 0)).gen = hGen 0 ∧ (unit s (unitKey 0)).state = .committed ∧ (unit s (unitKey 0)).restored = false ∧ s.ao.pf ≠ .shutdown
       ∧ groupComplete s (unitKey 0) = true ∧ turnAhead s (unitKey 0) = false ∧ lunIdle s 0 = true ∧ arrayOpen s 0 = true
       ∧ portTurn s 0 (unit s (unitKey 0)).cls (unit s (unitKey 0)).turn = true
       ∧ (spur s (lunSpur 0)).svc = .inService ∧ (spur s (lunSpur 0)).stopped = false)
    ∧ (port (spurIn0 { port0 := { seg := some (0, .dataIn, 0) } }) 0 0).seg = some (0, .dataIn, 0)
    ∧ (port (spurIn0 { port1 := { seg := some (0, .dataIn, 2) } }) 0 1).seg = some (0, .dataIn, 2)
    ∧ (∀ left ∈ [[], [1]], let s := lunIn { busy := .program [0] [0] 100, planesLeft := left }
       (∀ byte ∈ [0xE0, 0xE1], Ready s 0 byte ∧ (lunOf (polled s 0 byte) 0).planesLeft = left)
         ∧ dataInOpen s 0 = false ∧ (lunOf s 0).busy = .program [0] [0] 100)
    ∧ ((0xE0 : Byte).getLsbD 0 = false ∧ (0xE1 : Byte).getLsbD 0 = true ∧ (∃ k ∈ [0, 1], (2 : Nat).testBit k = true)
      ∧ (∀ k ∈ [0, 1], (4 : Nat).testBit k = false)) := by
  and_intros <;> (try simp only [Ready]) <;> decide +kernel
/-- An erase of block 100 on LUN 0, plane 0, at a phase; whether a marker of it has failed before. -/
def eraseAt (p : ErasePhase) (journal : Bool) (retried : Bool := false) : EraseJob :=
  { who := .entry, desc := { op := 0x10, phys := mkFpa false 0 0 0 100 0 0 }, ctx := 0, phase := p, planes := [0], journal := journal,
    retried := retried }
/-- LUN 0, 512 SLC pages to a block, with one erase, and energy for a program. -/
def erasing (b : Busy) (page : Nat) (j : EraseJob) : State :=
  { lunIn { geom := place 64 20 511 ||| place 64 17 1, busy := b, flagPage := page, erases := [j] } with
    ao := { up.ao with allowance := 1000000000 } }
theorem wit_Erases_run_between_their_markers :
    (∀ jr : Bool, ∀ n ∈ [511, 512], let s := erasing .idle n (eraseAt .queued jr)
      (lunOf s 0).erases = eraseAt .queued jr :: [] ∧ s.ao.portsUp = true ∧ eraseBlocked s 0 (eraseAt .queued jr) = false
        ∧ eraseOpen s 0 = true ∧ railDown s = false ∧ covers s (eProgram s 0) = true ∧ switchDue s 0 = decide (n = 512))
    ∧ (∀ r : Bool, ∀ p ∈ [ErasePhase.intent, .doneMark], let s := erasing .marker 1 (eraseAt p true r)
       (lunOf s 0).erases = eraseAt p true r :: [] ∧ (lunOf s 0).busy = .marker ∧ (∀ byte ∈ [0xE0, 0xE1], Ready s 0 byte) ∧ (0xE0 : Byte).getLsbD 0 = false
         ∧ (0xE1 : Byte).getLsbD 0 = true)
    ∧ (∀ jr : Bool, ∀ left ∈ [[], [1]], let j := { eraseAt .erasing jr with left := left }
       let s := erasing (.erase [0] 100) 1 j
       Ready s 0 0xE1 ∧ (lunOf s 0).busy = .erase [0] 100 ∧ (lunOf s 0).erases = j :: [] ∧ railDown s = false)
    ∧ (let j := { eraseAt .erasing true with left := [1] }
       (lunOf (erasing .idle 1 j) 0).erases = j :: [] ∧ eraseOpen (erasing .idle 1 j) 0 = true) := by
  simp only [Ready]
  decide +kernel
theorem wit_Probes_and_patrol_steps :
    (let y : Ctx := { stage := 1, desc := { op := 0x09 } }
     let s := { lunIn { busy := .probe [0] 0 0 [] } with spurs := { entries := [(0, { ctxs := { entries := [(3, y)] } })] } }
     (lunOf s 0).busy = .probe [0] 0 0 [] ∧ probeCtxs s 0 = (0, 3) :: [])
    ∧ ((lunOf (lunIn { busy := .probe [0] 0 0 [] }) 0).busy = .probe [0] 0 0 [] ∧ probeCtxs (lunIn { busy := .probe [0] 0 0 [] }) 0 = [])
    ∧ (let b : Busy := .probe [0] 0 0 [(true, []), (false, [])]
       (lunOf (lunIn { busy := b }) 0).busy = b ∧ (lunOf (lunIn { busy := b }) 0).susp = none ∧ Ready (lunIn { busy := b }) 0 0xE0)
    ∧ (let s := fun n => regionIn { state := 1, scrubOut := n } [(0x2000, 0x08, 1)]
       ∀ n < 2, (region (s n) 0).state = 1 ∧ fetchOpen (s n) = true ∧ od (s n) 0x2000 0x08 ≠ 0 ∧ od (s n) 0x2240 0x01 ≠ 0
         ∧ (region (s n) 0).scrubOut = n ∧ (region (s n) 0).scrubLate = false)
    ∧ (∀ op ∈ [0x18, 0x40], let s := spurIn0 { ctxs := { entries := [(3, { stage := 4, desc := { op := op } })] } }
       ctxUsed s 0 3 = true ∧ (ctxOf s 0 3).stage = 4 ∧ (ctxOf s 0 3).desc.op = op) := by
  simp only [Ready]
  decide +kernel

/-! ### Col frames -/

/-- The SEQ that brings the CRC of a header of a kind to zero, so that the zeros after it leave it there. -/
def seqFor (k : Nat) : Nat := ([BitVec.ofNat 8 k, 0, 1, 0].foldl crcByte 0xFFFFFFFF#32).toNat
/-- A whole header of a kind, of chain 1 from position 0, with FPA, handle and byte 20 zero. -/
def flitFor (k : Nat) : Flit := place 1024 0 k ||| place 1024 16 1 ||| place 1024 32 (seqFor k) ||| place 1024 992 0xFFFFFFFF
/-- The tail of data flits that begin with four bytes of ones and go on with zeros. -/
def tailFlit : Flit := place 1024 0 0xFFFFFFFF ||| place 1024 992 0xFFFFFFFF
theorem crc_zeros (n : Nat) : (List.replicate n (0 : Byte)).foldl crcByte 0 = 0 := by
  induction n with
  | zero => rfl
  | succ n ih => rw [List.replicate_succ, List.foldl_cons, show crcByte 0 0 = 0 by decide +kernel, ih]
theorem intact_of (f : Flit) (l : List Byte) (hb : bytesOf 124 f = l ++ List.replicate (124 - l.length) 0)
    (hl : l.foldl crcByte 0xFFFFFFFF#32 = 0) (hc : f.extractLsb' 992 32 = 0xFFFFFFFF#32) : flitIntact f = true := by
  simp only [flitIntact, flitCrc, crc32c, hb, List.foldl_append, hl, crc_zeros, hc]
  decide +kernel
theorem data_intact (n : Nat) : dataIntact (n + 1) (place 1024 0 0xFFFFFFFF :: List.replicate n 0) tailFlit = true := by
  have ht : flitIntact tailFlit = true := intact_of _ [255, 255, 255, 255] (by decide +kernel) (by decide +kernel) (by decide +kernel)
  have hz : ((List.replicate n (0 : Flit)).map (fun f => bytesOf 128 f)).flatten = List.replicate (n * 128) 0 := by
    rw [List.map_replicate, show bytesOf 128 (0 : Flit) = List.replicate 128 0 by decide +kernel, List.flatten_replicate_replicate]
  have hd : dataCrc (place 1024 0 0xFFFFFFFF :: List.replicate n 0) = 0xFFFFFFFF#32 := by
    rw [dataCrc, crc32c, List.map_cons, List.flatten_cons, hz, List.foldl_append,
      show bytesOf 128 (place 1024 0 0xFFFFFFFF) = [255, 255, 255, 255] ++ List.replicate 124 0 by decide +kernel, List.foldl_append,
      show List.foldl crcByte 0xFFFFFFFF#32 [255, 255, 255, 255] = 0 by decide +kernel, crc_zeros, crc_zeros]
    rfl
  simp only [dataIntact, ht, hd, List.length_cons, List.length_replicate]
  decide +kernel
/-- Link 0 UP, expecting the SEQ of the header of a kind; region 0 an enabled member at position 1 below link 0; ridge 0's
Ledge ready; the rail good; energy enough. -/
def member (k : Nat) : State :=
  { withOd [(0x2000, 0x0C, 2), (0x2000, 0x0D, 1), (0x2000, 0x04, 1999)] with
    ao := { up.ao with samples := [3000, 3000, 3000], allowance := 1000000 }
    regions := { entries := [(0, { state := 1 })] }
    ridges := { entries := [(0, { ledgeReady := true })] }
    col := { link0 := { state := 2, lanes := true, rxNext := seqFor k } } }
theorem intact (k : Nat) (h : k ∈ [1, 2, 3, 4, 5, 6, 7, 8, 9, 10, 11, 16]) : flitIntact (flitFor k) = true := by
  refine intact_of _ (bytesOf 8 (flitFor k)) ?_ ?_ ?_ <;> revert k <;> decide +kernel
theorem arrives (k : Nat) (h : k ∈ [2, 3, 4, 5, 6, 7, 8, 9, 10, 11]) : Arrives (member k) 0 k (flitFor k) := by
  refine ⟨rfl, rfl, rfl, intact k (List.mem_of_mem_dropLast (List.mem_of_mem_tail (l := [1, 2, 3, 4, 5, 6, 7, 8, 9, 10, 11, 16].dropLast) h)), ?_, ?_⟩
    <;> revert k <;> decide +kernel
theorem wit_Col_frames_are_taken_in_turn :
    (∀ k ∈ [2, 3, 4, 5, 6, 7, 8, 9, 10, 11], Arrives (member k) 0 k (flitFor k))
    ∧ (let b := counted (member 2) 0 1
       let f := fhFpa (flitFor 2)
       let a := reattach b 0
       (matchFrame b 0 (flitFor 2)).toOption = some 0
       ∧ railLow b = false ∧ memberUnit a 0 (fhHandle (flitFor 2)) = none ∧ frameAddr a 0x09 0 f 0 = true ∧ bankRoom a f 1 = true
         ∧ frameHalf a 0 f 0 = false)
    ∧ (let b := modAo (counted (member 2) 0 1) (fun a => { a with samples := [1000, 1000, 1000] })
       (matchFrame b 0 (flitFor 2)).toOption = some 0 ∧ railLow b = true)
    ∧ (match matchFrame (counted (linkIn { state := 2, lanes := true, rxNext := seqFor 2 }) 0 1) 0 (flitFor 2) with
       | .ok _ => 0
       | .error c => c) = 1
    ∧ (∀ z ∈ [UState.opened, .committed, .programming, .done],
       let b := { counted (member 5) 0 1 with units := { entries := [(0, { state := z, mkey := some (0, 0) })] } }
       let a := reattach b 0
       (matchFrame b 0 (flitFor 5)).toOption = some 0 ∧ railLow b = false ∧ memberUnit a 0 (fhHandle (flitFor 5)) = some 0 ∧ (unit a 0).state = z)
    ∧ (let b := counted (member 7) 0 1
       (matchFrame b 0 (flitFor 7)).toOption = some 0 ∧ railLow b = false ∧ frameAddr (reattach b 0) 0x10 0 (fhFpa (flitFor 7)) 0 = true)
    ∧ dataIntact 128 (place 1024 0 0xFFFFFFFF :: List.replicate 127 0) tailFlit = true
    ∧ dataIntact 132 (place 1024 0 0xFFFFFFFF :: List.replicate 131 0) tailFlit = true :=
  ⟨arrives, by decide +kernel, by decide +kernel, by decide +kernel, by decide +kernel, by decide +kernel, data_intact 127, data_intact 131⟩
theorem wit_Damaged_or_repeated_frames_have_no_effect :
    (flitIntact (flitFor 2 &&& place 1024 0 (2 ^ 992 - 1)) = false ∧ (link (linkIn { state := 2, lanes := true }) 0).state = 2
        ∧ (link (linkIn { state := 2, lanes := true }) 0).lanes = true)
    ∧ (∀ k ∈ [2, 3, 4, 5, 7, 8, 9, 10], flitIntact (flitFor k) = true)
    ∧ (∀ k ∈ [2, 3, 4, 5, 7, 8, 9, 10], fhSeq (flitFor k) ≠ (link (linkIn { state := 2, lanes := true }) 0).rxNext ∧ fhKind (flitFor k) = k) := by
  refine ⟨⟨?_, rfl, rfl⟩, fun k h => intact k ?_, by decide +kernel⟩
  · have hb : bytesOf 124 (flitFor 2 &&& place 1024 0 (2 ^ 992 - 1)) = bytesOf 8 (flitFor 2) ++ List.replicate 116 0 := by decide +kernel
    have hl : (bytesOf 8 (flitFor 2)).foldl crcByte 0xFFFFFFFF#32 = 0 := by decide +kernel
    simp only [flitIntact, flitCrc, crc32c, hb, List.foldl_append, hl, crc_zeros]
    decide +kernel
  · revert k; decide
theorem wit_Links_train_acknowledge_and_fail :
    ((∀ n ∈ [1, 2], ∀ b : Bool, let s := linkIn { state := n, lanes := b }
        (link s 0).state = n ∧ (link s 0).lanes = b ∧ railDown s = false) ∧ fhKind (flitFor 1) = 1 ∧ fhKind (flitFor 16) = 0x10)
    ∧ flitIntact (flitFor 1) = true ∧ flitIntact (flitFor 16) = true
    ∧ (let f : TxFrame := ⟨5, [(0, 0)], 0, 0, none⟩
       (link (linkIn { state := 2, waiting := [f] }) 0).waiting = f :: [] ∧ (link (linkIn { state := 2, waiting := [f] }) 0).credits < f.flits.length)
    ∧ (∃ f ∈ (link (linkIn { state := 2, replay := [⟨5, [(0, 0)], 0, 0, none⟩] }) 0).replay, f.seq = 5)
    ∧ (let s := { linkIn { state := 2, timers := [⟨5, 0, 0, 0, 0, []⟩] } with od := (withOd [(0x2000, 0x0E, 2)]).od }
       (link s 0).timers.find? (fun t => t.seq = 5) = some ⟨5, 0, 0, 0, 0, []⟩
         ∧ ((List.range (min 1 (chainLen s 0))).map (fun k => k + 1)).find? (fun n => !posAcked (link s 0) n 5) = some 1)
    ∧ (∀ own : Bool, let s := { up with ao := { up.ao with timeUs := 10 ^ 9 }, col := { table := [⟨9, 0, 0, own, false, 0⟩] } }
       s.col.table.find? (fun e => decide (e.id = 9) && decide (e.since + od s 0x8000 0x05 * 1000 ≤ s.ao.timeUs)) = some ⟨9, 0, 0, own, false, 0⟩) :=
  ⟨by decide +kernel, intact 1 (by decide), intact 16 (by decide), by decide +kernel, by decide +kernel, by decide +kernel, by decide +kernel⟩

/-! ### Key port, engines, service -/

/-- A key port command in a given condition. -/
def keyWork (j : KeyJob) : State := { up with keyJob := some j }
/-- A LOAD of slot 0 with accesses to come. -/
def loadJob (todo : List KeyAcc) : KeyJob := ⟨.load, 0, 0, 0, [], todo, false, false, false, false, [], 0, none⟩
theorem wit_Key_port_caches_and_tags :
    (let more := [KeyAcc.write 4 0, .unlock]
     (∀ j ∈ [{ loadJob (.lock :: more) with waitLock := true }, { loadJob (.lock :: more) with busy := true }, loadJob (.lock :: more)],
       (keyWork j).keyJob = some j ∧ j.todo = .lock :: more ∧ j.failed = none ∧ j.locked = false)
     ∧ (∀ j ∈ [{ loadJob (.status :: more) with waitPoll := true, locked := true }, { loadJob (.status :: more) with busy := true },
               { loadJob (.status :: more) with locked := true }],
       (keyWork j).keyJob = some j ∧ j.todo = .status :: more ∧ j.failed = none)
     ∧ (let j := { loadJob (.write 8 0 :: more) with busy := true, locked := true }
        (keyWork j).keyJob = some j ∧ j.todo = .write 8 0 :: more ∧ j.failed = none ∧ j.busy = true ∧ j.locked = true)
     ∧ (1 : BitVec 32) ≠ 0 ∧ (1 : BitVec 32).getLsbD 1 = false ∧ (1 : BitVec 32).getLsbD 0 = true ∧ (keyWork (loadJob more)).keyFirst = false)
    ∧ (let s := { keyWork (loadJob []) with keyFirst := true }
       s.keyFirst = true ∧ s.keyBad = false ∧ s.keyReady = false)
    ∧ (∀ n ∈ [0, 32], let c := (List.range n).map (fun k => ((k + 6, 0), (0 : W512)))
       let s := { ridgeIn0 { keyCache := c, keyFills := [(5, 2)] } with keys := { entries := [(5, { state := .live, gen := 2, live := 9 })] } }
       material s (5, 2) = some 9 ∧ keyCached s 0 (5, 2) = false ∧ (ridge s 0).keyFills.contains (5, 2) = true ∧ (ridge s 0).keyCache.length = n
         ∧ (ridge s 0).keyCache.tail.length = n - 1)
    ∧ (material up (5, 2) = none ∧ (ridge up 0).keyFills.contains (5, 2) = false)
    ∧ (∀ x ∈ [(0, 0, (none : Option (Nat × Nat))), (0, 1, none), (3, 1, some (5, 2)), (0, 1, some (5, 2)), (0, 2 ^ 517, some (5, 2))],
       let j : GcmJob := ⟨false, 0, 0, 0, 3, 0, (List.range 64).map (fun i => (i, BitVec.ofNat 528 x.2.1)), x.1, x.2.2, 0⟩
       let s := { ridgeIn0 { gcm1 := some j } with spurs := { entries := [(0, { ctxs := { entries := [(3, { cls := 1 })] } })] }
                                                   keys := { entries := [(5, { state := .live, gen := 2, live := 9 })] } }
       gcmJob s 0 (1 % 2) = some j ∧ j.sealing = false ∧ ctxUsed s j.spur j.ctx = true ∧ j.bad = x.1
         ∧ (∀ l ∈ j.lines, l.2 = BitVec.ofNat 528 x.2.1 ∧ lSealed l.2 = decide (x.2.1 = 2 ^ 517))
         ∧ j.key.bind (laneKey (gcmFree s 0 1) (j.spur / 4)) = x.2.2.map (fun _ => 9)) := by
  decide +kernel
/-- Spur 0 IN with a parked literal context 3. -/
def engine (x : Spur) : State :=
  { spurIn0 { x with svc := .inService, ctxs := { entries := [(3, { parked := true, timer := 1, desc := { op := 0x80 } })] } } with
    image := { state := 2, dispatch := List.replicate 256 (place 64 63 1) } }
theorem wit_Engines_run_and_spares_take_over :
    ((spur (engine { injected := true }) 0).stopped = false ∧ (spur (engine { injected := true }) 0).svc = .inService
      ∧ (spur (engine { injected := true }) 0).injected = true)
    ∧ (spur (engine { csGood := false }) 0).csGood = false
    ∧ ((spur (engine { current := some 3 }) 0).current = some 3 ∧ ctxUsed (engine { current := some 3 }) 0 3 = true
      ∧ (ctxOf (engine { current := some 3 }) 0 3).timer = 1)
    ∧ (let s := spurIn0 { svc := .inService, current := some 3, ctxs := { entries := [(3, { cycles := 512 })] } }
       (spur s 0).current = some 3 ∧ 512 ≤ (ctxOf s 0 3).cycles)
    ∧ (let s := spurIn0 { svc := .inService, ctxs := { entries := [(3, { desc := { op := 0x01 } })] } }
       (spur s 0).current = none ∧ shippedCtxs s 0 ≠ [])
    ∧ ((spur (engine {}) 0).current = none ∧ nextParked (engine {}) 0 = some 3 ∧ resumeRank (engine {}) 0 ≤ popRank (engine {}) 0)
    ∧ (∀ g : Bool, let s := { up with spares := { entries := [(0, { state := 1, spur := 0, csGood := g })] } }
       (spare s 0).state = 1 ∧ (spare s 0).switched = false ∧ (spare s 0).csGood = g ∧ spurSettled s (spare s 0).spur = true)
    ∧ (let s := { up with spares := { entries := [(0, { state := 1, spur := 5, switched := true })] } }
       5 / 16 = 0 ∧ (spare s 0).spur = 5 ∧ (spare s 0).switched = true ∧ (spare s 0).state = 1) := by decide +kernel
theorem wit_Images_load_and_units_leave_and_return :
    (∀ c < 2, let s := { up with image := { state := 1, answer := some (c, bytesOf 16 (0 : BitVec 128)) } }
       s.image.state = 1 ∧ s.image.answer = some (c, bytesOf 16 (0 : BitVec 128)) ∧ bytesOf 16 (0 : BitVec 128) = bytesOf 16 s.image.tag)
    ∧ (let s := { up with image := { state := 1, answer := some (0, []) } }
       s.image.answer = some (0, []) ∧ [] ≠ bytesOf 16 s.image.tag)
    ∧ (let s := ridgeIn0 { svc := .draining }
       (ridge s 0).svc = .draining ∧ (∀ i, i < 4 → (spur s (4 * 0 + i)).svc = .out) ∧ unitsOf s 0 = [])
    ∧ ((spur (spurIn0 { svc := .draining }) 0).svc = .draining ∧ spurIdle (spurIn0 { svc := .draining }) 0 = true
      ∧ spurOwes (flushDraining (spurIn0 { svc := .draining }) (0 / 4)) 0 = false)
    ∧ (let s := { ridgeIn0 { svc := .draining } with spurs := { entries := [(0, { svc := .draining })] }, units := { entries := [(0, { state := .committed })] } }
       spurIdle s 0 = true ∧ spurOwes (flushDraining s (0 / 4)) 0 = true)
    ∧ ((ridge (ridgeIn0 { svc := .returning, firstDone := true }) 0).svc = .returning
      ∧ (ridge (ridgeIn0 { svc := .returning, firstDone := true }) 0).firstDone = true)
    ∧ (∀ g : Bool, let s := { ridgeIn0 { svc := .inService } with spurs := { entries := [(0, { svc := .returning, csGood := g })] } }
       (spur s 0).svc = .returning ∧ (ridge s (0 / 4)).svc = .inService ∧ spurBrought s 0 = true ∧ (spur s 0).storesBad = false
         ∧ engineGood s 0 = g) := by decide +kernel
/-- LUN 0, of declared bins, its channel at bin 7, with its training lost or still to be done on the way out of Dormant. -/
def trained (lost : Bool) (bins : Nat) : State :=
  { lunIn { geom := 0x80601f3c3ff34958, bins := bins } with
    chans := { entries := [(0, { state := 1, lost := lost, untrained := !lost, found := 1, bin := 7, iface := 2 })] }
    ridges := { entries := [(0, { svc := .inService, waking := true })] } }
theorem wit_Channels_come_up_and_train :
    (let s := { spurIn0 { svc := .returning } with chans := { entries := [(0, { rediscover := true })] } }
     (spur s (0 / 2)).svc = .returning ∧ (chan s 0).rediscover = true)
    ∧ (let s := modAo { lunIn { geom := 0x80601f3c3ff34958, readDq := true } with chans := { entries := [(0, { state := 1 })] } } (fun a => { a with timeUs := 10 ^ 9 })
       (chan s 0).state = 1 ∧ tracked s 0 (0 % 8) = true ∧ trackDue s 0 (0 % 8) = true ∧ portTurn s (0 * 16 + 2 * (0 % 8)) 3 (s.turns + 1) = true
         ∧ (∀ d ∈ (chan s 0).delays.entries, d.1 / 64 ≠ 0 % 8)
         ∧ (⟨3, false, 0⟩ : TrackBurst) ∈ [(⟨3, false, 0⟩ : TrackBurst)])
    ∧ (∀ lost : Bool, let s := trained lost 0xFF
       (chan s 0).state = 1 ∧ (chan s 0).lost = lost ∧ (lost = false → (chan s 0).untrained = true ∧ (ridge s (0 / 8)).waking = true)
         ∧ (foundCes s 0).all (fun ce => trains [⟨0, 7, 30, true⟩] ce (chan s 0).bin) = true ∧ foundCes (trainBus s 0) 0 = [0]
         ∧ (lowerBins (trainBus s 0) 0).find? (fun b => (foundCes (trainBus s 0) 0).all (fun ce => trains [⟨0, 7, 30, true⟩] ce b)) = some 7)
    ∧ ((chan (trained true 0) 0).lost = true ∧ lowerBins (trainBus (trained true 0) 0) 0 = []) := by
  decide +kernel

/-! ### Power, recovery, idling -/

theorem wit_Rail_samples_sensors_and_the_ledger :
    up.ao.inAoReset = false ∧ (up.ao.pf = .unarmed ∧ 1000 ≤ (modAo up (fun a => { a with goodRun := 1000 })).ao.goodRun)
    ∧ ((modAo up (fun a => { a with pf := .halted, goodRun := 1000 })).ao.pf = .halted)
    ∧ (let s := modAo up (fun a => { a with denying := true })
       s.ao.denying = true ∧ s.ao.lastDenial = none)
    ∧ ((-56 : Int) < -55 ∧ (150 : Int) < 151)
    ∧ (up.sensors.get {} 0).fault = false
    ∧ signed 16 (od (withOd [(0x7210, 0x02, 150)]) (0x7210 + 0) 0x02) ≥ 150 := by decide +kernel
theorem wit_The_power_fail_sequence_and_shutdown :
    (∀ p ∈ [Pf.armed, Pf.shutdown], let s := modAo up (fun a => { a with pf := p, warnRun := 100000 })
       od s 0x7000 0x06 ≤ s.ao.warnRun ∧ s.ao.pf = p)
    ∧ (∀ p ∈ [Pf.sequence, Pf.shutdown],
       let s := modAo { ridgeIn0 { svc := .inService, firstDone := true } with spurs := { entries := [(0, { svc := .inService })] } } (fun a => { a with pf := p })
       s.ao.pf = p ∧ dieWorkDone s 0 = true ∧ unitsIn s 0 .programming = 0 ∧ takesPart s 0 = true ∧ (ridge s 0).closed = false
         ∧ spursOut s 0 = false ∧ admittedDone s = true ∧ ridgeQuiet s 0 = true ∧ thermalLevel s 0 < 3 ∧ (ridge s 0).refugeWait = []
         ∧ holdDefers s (ridge s 0).manifest = false ∧ (∀ x ∈ refugePairs s 0, holdDefers s x.1 = false))
    ∧ (∀ p ∈ [Pf.sequence, Pf.shutdown], let s := modAo up (fun a => { a with pf := p })
       s.ao.pf = p ∧ allClosed s = true ∧ admittedDone s = true) := by decide +kernel
theorem wit_Recovery_restores_and_ridges_idle :
    (let s := ridgeIn0 { svc := .returning }
     let x : RidgeFound := ⟨0, [], 0, [], [], [], []⟩
     x ∈ [x] ∧ atBarrier s x.ridge = true)
    ∧ (let s := modAo (ridgeIn0 { svc := .inService, units := [7] }) (fun a => { a with pf := .armed })
       (ridge s 0).units.getD 0 0 ≠ 0 ∧ (ridge s 0).svc = .inService ∧ s.ao.pf = .armed)
    ∧ (let s := { ridgeIn0 { svc := .inService, hintUntil := some 100 } with spurs := { entries := [(0, { svc := .inService })] } }
       ((ridge s 0).pstate < chooseState s 0 450 ∧ (ridge s 0).waking = false ∧ railDown s = false ∧ chooseState s 0 450 ≠ 3)
         ∧ chooseState s 0 340000 = 3 ∧ (ridge s 0).pstate < 3)
    ∧ (∀ n ∈ [1, 2, 3], (ridge (ridgeIn0 { pstate := n }) 0).pstate = n)
    ∧ (let s := { ridgeIn0 { waking := true } with chans := { entries := [(0, { state := 1 })] } }
       (ridge s 0).waking = true ∧ (∀ i < 8, (chan s (8 * 0 + i)).state = 1 → (chan s (8 * 0 + i)).untrained = false))
    ∧ (let s := modAo (ridgeIn0 { hintUntil := some 5 }) (fun a => { a with timeUs := 5 })
       (ridge s 0).hintUntil = some 5 ∧ 5 ≤ s.ao.timeUs) := by decide +kernel

/-! ### Ring, log, memory errors, resets -/

/-- up, with the ring enabled. -/
def ringUp : State := withOd [(0x9000, 0x01, 1)]
theorem wit_Crestline_frames_and_ring_checks :
    frameFate ringUp (ringFrame (nodeId ringUp) 5 1 7 [0x1100, 0x0100]) = .request
    ∧ frameFate ringUp (ringFrame (nodeId ringUp) 5 2 7 [0x1100, 0x0100, 1, 0, 0, 0]) = .request
    ∧ frameFate ringUp (ringFrame 9 5 1 7 [0x1100, 0x0100]) = .forward
    ∧ frameFate ringUp ((ringFrame (nodeId ringUp) 5 1 7 [0x1100, 0x0100]).dropLast ++ [0]) = .badCrc
    ∧ frameFate ringUp ((ringFrame (nodeId ringUp) 5 1 7 [0x1100, 0x0100]).dropLast) = .badLen
    ∧ frameFate ringUp (ringFrame (nodeId ringUp) 5 0xD 7 []) = .badKind
    ∧ frameFate ringUp (ringFrame 9 (nodeId ringUp) 8 7 []) = .returned
    ∧ frameFate ringUp (ringFrame (nodeId ringUp) (nodeId ringUp) 0xC 0 []) = .check
    ∧ (od ringUp 0x9000 0x01 = 1 ∧ ringUp.crest.checkOut = false ∧ ringUp.crest.askedOld + ringUp.crest.asked < 8)
    ∧ ({ ringUp with crest := { checkOut := true } } : State).crest.state ≠ 2 := by decide +kernel
/-- A record waiting for the log. -/
def rec0 : CairnReq := ⟨0x43, 0, 0, 0, 0, 0, 0, 0, false⟩
theorem wit_Cairn_records_are_kept_sent_and_cleared :
    (let s := modAo up (fun a => { a with cairnIn := [rec0] })
     s.ao.cairnIn = rec0 :: [] ∧ clearHolds s = false)
    ∧ (let s := modAo (withOd [(0x9200, 0x01, 1)]) (fun a => { a with log := [0], nextSeq := 1 })
       od s 0x9200 0x01 ≠ 0 ∧ s.ao.logFault = false
         ∧ (portSkip (setOd s 0x9200 0x05 0)).ao.log.find? (fun x => decide (recSeq x = od (portSkip (setOd s 0x9200 0x05 0)) 0x9200 0x02)) = some 0)
    ∧ (let s := modAo (withOd [(0x9200, 0x01, 1)]) (fun a => { a with logFault := true, bypass := [{ word := 3, port := true }] })
       od s 0x9200 0x01 ≠ 0 ∧ s.ao.logFault = true ∧ s.ao.bypass = { word := 3, port := true } :: [])
    ∧ (up.ao.nonce.any (nonceFresh up) = false ∧ (0 : W64).toNat + 60000000 ≤ 60000000)
    ∧ (modAo up (fun a => { a with nonce := some (1, 2) })).ao.nonce = some (1, 2)
    ∧ (let c : ClearJob := ⟨3, 1, 1, 0, 0, 4, 4⟩
       (clearSent (modAo up (fun a => { a with clear := some c })) c = true ∧ c.stage = 3)
       ∧ clearSent (withOd [(0x9200, 0x01, 1), (0x9200, 0x02, 4)]) c = false) := by decide +kernel
theorem wit_Memory_errors_and_fabric_timeouts :
    (memClass 3 = true ∧ parityClass 3 = false ∧ memClass 1 = true ∧ parityClass 1 = true
      ∧ up.inject.find? (fun e => decide (e.1 = 3) && decide (e.2.1 = 0)) = none)
    ∧ (∀ p ∈ [Purpose.status 0 0, .done 0, .wdata 0 0, .frag 0 0, .image, .stale], reqOf (asked p) 7 = some (reqFor p)) := by decide +kernel
theorem wit_Resets_clear_all_but_what_survives :
    up.ao.inAoReset = false
    ∧ (State.reset.ao.inAoReset = false ∧ State.reset.ao.inBlkReset = false ∧ State.reset.ao.portsUp = false)
    ∧ (2 : Nat) < 256 ∧ (0x1200 : Nat) ≠ 0x9100 := by decide +kernel

/-! ### Codes, maps and pointers -/

theorem wit_Traverse_maps_one_to_one_past_the_gap :
    (0 < 10 ∧ 9 < 10 ∧ 10 ≤ 10 ∧ 9 < 10)
    ∧ (let f := mkFpa true 0 0 0 9 0 0
       fT f = true ∧ rOd (withOd [(0x2000, 0x03, 4), (0x2000, 0x04, 1999)]) 0 0x03
         + mapOffset (winL (withOd [(0x2000, 0x03, 4), (0x2000, 0x04, 1999)]) 0) 0 1995 (fBlock f) < 32768) := by decide +kernel
theorem wit_Counters_saturate_or_wrap_by_their_type :
    (odRow 0x1200 0x02).map (fun r => r.ty) = some .u32 ∧ (odRow 0x7100 0x01).map (fun r => r.ty) = some .u16
    ∧ (odRow 0x7100 0x02).map (fun r => r.ty) = some .u8 ∧ (odRow 0x6000 0x04).map (fun r => r.ty) = some .u64 := by decide +kernel
theorem wit_Addresses_and_flits_pack_and_unpack :
    127 < 128 ∧ 15 < 16 ∧ 7 < 8 ∧ 32767 < 32768 ∧ 16383 < 16384 ∧ 255 < 256 ∧ fRes (mkFpa true 127 15 7 32767 16383 255) = 0 := by
  decide +kernel
theorem wit_Ring_requests_are_read_back :
    ringUp.ao.portsUp = true ∧ od ringUp 0x9000 0x01 ≠ 0 ∧ nodeId ringUp < 64 ∧ 63 ≠ nodeId ringUp ∧ 255 < 256 ∧ 65535 < 65536 ∧ ringUp.crest.askedOld + ringUp.crest.asked < 8
    ∧ ([1, 2, 3] : List (BitVec 16)).length < 256 := by decide +kernel
theorem wit_Backlog_places_go_in_the_order_of_the_classes :
    backlogUsed (ring (ringIn { pendingQ := [note] }) 0) < 256 ∧ (ring (ringIn { pendingQ := [note] }) 0).pendingQ = note :: []
    ∧ (ring (ringIn { stalled := [4] }) 0).pendingQ = [] ∧ (ring (ringIn { stalled := [4] }) 0).stalled = 4 :: []
    ∧ 256 ≤ backlogUsed (ring (ringIn { reserved := 256 }) 0) := by decide +kernel
theorem wit_Scree_pointers_follow_the_packets :
    (ScreeInv {}) ∧ Scree.room {} 1 = true ∧ Scree.pop (Scree.push {} { op := 1 }) = some ({ op := 1 }, { w := 1, c := 1, p := 1 })
    ∧ (Scree.reserve {} { op := 1 }).packets = (1, false, { op := 1 }) :: [] ∧ ScreeInv { w := 3, c := 3, p := 1, unread := 2 } :=
  ⟨⟨by decide, rfl, rfl, by decide⟩, by decide +kernel, by decide +kernel, by decide +kernel, ⟨by decide, rfl, rfl, by decide⟩⟩
/-- A queue with four of seven entries between DONE 65534 and FETCH 2, its read 9 of the last two outstanding. -/
def wrapped : Queue :=
  { state := .running, done := 65534, fetch := 2, doorbell := 5,
    ents := [{ idx := 65534, rd := 8, order := some 0 }, { idx := 65535, rd := 8 }, { idx := 0, rd := 9 }, { idx := 1, rd := 9 }] }
/-- up, with queue 0 of 16 entries so, its read 9 outstanding under tag 7, and commands waiting. -/
def wrapping (cs : List Instr) : State :=
  { asked (.fetch 0 9) with od := (withOd [(0x3000, 0x05, 4)]).od, queues := { entries := [(0, wrapped)] }, pending := cs }
theorem wit_Queue_distances_stay_ordered :
    QueueOrdered (wrapping [.doorbellWrite 0 8 6]) 0
    ∧ (match step (wrapping [.doorbellWrite 0 8 6]) with
       | .next t => decide (od t 0x3000 0x05 = od (wrapping []) 0x3000 0x05) && decide ((queue t 0).doorbell = 6)
       | _ => false) = true
    ∧ ¬ FailsFetch (wrapping []) (.doorbellWrite 0 8 6)
    ∧ Due (wrapping []) 7 (reqFor (.fetch 0 9)) (.fetch 0 9)
    ∧ (∀ i e, (queue (wrapping []) 0).ents[i]? = some e → e.idx = ((queue (wrapping []) 0).done + i) % 65536 ∧ (9 ≤ e.rd → e.order = none)
      ∧ (∀ j f, i ≤ j → (queue (wrapping []) 0).ents[j]? = some f → e.rd ≤ f.rd))
    ∧ QueueOrdered State.reset 0 := by
  have hq : queue (wrapping []) 0 = wrapped := by decide +kernel
  refine ⟨by unfold QueueOrdered; decide +kernel, by decide +kernel, ?_, ⟨rfl, rfl, rfl⟩, ?_, by unfold QueueOrdered; decide +kernel⟩
  · rintro ⟨tag, r, q, rd, -, -, h | ⟨d, h⟩⟩ <;> cases h
  · rw [hq]
    intro i e h
    rcases i with _ | _ | _ | _ | i <;> simp [wrapped] at h <;> subst h <;> refine ⟨by decide, by decide, fun j f hj hf => ?_⟩ <;>
      rcases j with _ | _ | _ | _ | j <;> simp [wrapped] at hf <;> (try omega) <;> subst hf <;> decide
theorem wit_Asserted_resets_keep_the_ports_down : ResetQuiet State.reset ∧ step State.reset = .next State.reset := by
  refine ⟨⟨by decide, by decide⟩, rfl⟩
theorem wit_Commands_of_one_unit_leave_the_rest :
    up.ao.portsUp = true ∧ 0 ∉ [3, 4, 5, 6] ∧ reqOf up 7 = none
    ∧ (let s := lunIn { ladder := some (ladderAt 1 0) }
       (lunOf s 0).ladder = some (ladderAt 1 0) ∧ (ladderAt 1 0).phase = 0 ∧ (ladderAt 1 0).ctx ≠ 64)
    ∧ (let s := trained false 0xFF
       (chan s 0).state = 1 ∧ (chan s 0).lost = false ∧ (chan s 0).untrained = true ∧ (ridge s (0 / 8)).waking = true
         ∧ (chan s 0).bin ≤ od s 0x4300 0x01 ∧ ifaceBin (chan s 0).iface (chan s 0).bin = true ∧ (chan s 0).bin < 8
         ∧ (∀ l ∈ foundLuns s, l / 16 = 0 → (lunOf s l).bins.testBit (chan s 0).bin = true)
         ∧ (foundCes s 0).all (fun ce => trains [⟨0, 7, 30, true⟩] ce (chan s 0).bin) = true) := by decide +kernel
theorem wit_Merged_and_poisoned_lines_byte_by_byte : 63 < 64 ∧ 255 < 256 ∧ 7 < 8 := by decide
theorem wit_Talus_groups_and_their_copy : up.ao.portsUp = true := rfl
theorem wit_With_the_ports_down_nothing_is_commanded : State.reset.ao.portsUp = false := rfl
theorem wit_Step_runs_front_command : (State.reset.withFetchWord 0 0).pending = [] := rfl

/-! ### Ill-formed commands: for each operand a command checks, a term whose operand lies just outside its range -/

def illFormed0 : List Instr := [
  .tread 0 0 4096, .entryFetchResponse 4096 false [], .lineRead 4096, .sectorRead 4096, .pageRead 4096,
  .gatherLineRead 4096, .lineWrite 4096, .unitOpen 4096, .unitCommit 4096, .pageProgram 4096, .erase 4096, .copyback 4096,
  .scrubRange 4096, .repairServe 4096, .fence 4096, .getFeatures (.enter 4096), .setFeatures (.enter 4096),
  .lunGetFeatures (.enter 4096), .lunSetFeatures (.enter 4096), .integratorOpcode 4096, .descriptorPop 64 0,
  .descriptorPop 0 64, .retireEntry 4096, .statusWriteResponse 4096 false, .doneWordTimer 4096,
  .doneWordResponse 4096 false, .queueEnable 16 0, .queueEnable 0 4096, .queueDisable 16 0, .queueDisable 0 4096,
  .queueOff 4096, .qerrWrite 16 0 0, .qerrWrite 0 4096 0, .qerrWrite 0 0 0x10000000000000000, .watermarkWrite 16 0 0,
  .watermarkWrite 0 4096 0, .watermarkWrite 0 0 0x10000000000000000, .poolPeakWrite 16 0,
  .poolPeakWrite 0 0x10000000000000000, .fenceComplete 4096, .noticeRingEnable 16 0, .noticeRingEnable 0 16,
  .noticeRingDisable 16 0, .noticeRingDisable 0 16, .noticeRecordWrite 16, .noticeRecordResponse 4096 false,
  .tailWordResponse 4096 false, .messageWriteResponse 4096 false]
def illFormed1 : List Instr := [
  .msgHoldoffExpiry 16, .headWordReread 16, .headWordResponse 4096 false 0, .regionEnable 16 0, .regionEnable 0 256,
  .regionDisable 16 0, .regionDisable 0 256, .regionStopped 256, .tvStateWrite 16 0 0, .tvStateWrite 0 256 0,
  .tvStateWrite 0 0 0x10000000000000000, .gapMoveCommit 256 0, .gapMoveCommit 0 2048, .portPhaseSelect 64 0,
  .portPhaseSelect 0 2, .statusPoll 2048 0, .busyTimeout 2048 0, .arrayReadDone 2048, .slotReceived 64 0 ⟨0, []⟩,
  .slotReceived 0 2 ⟨0, []⟩, .readDataWriteResponse 4096 false, .holdWindowExpiry 12288, .resumeRunElapsed 2048,
  .suspendObserved 2048, .suspendPollTimeout 2048 0, .suspendWindowExpiry 2048, .resumeIssue 2048, .decoderAssign 16,
  .decoderWaitTimeout 16, .outerDecodeDone 4 0, .outerDecodeDone 0 8, .thresholdsSet 2048, .chaseDecodeDone 4 0,
  .chaseDecodeDone 0 8, .stepZeroRestored 2048, .poisonRemove 16, .sectorSealed 16 0, .sectorSealed 0 2,
  .dataInSegmentDone 64 0, .dataInSegmentDone 0 2, .programResult 2048 0 0, .programResult 0 64 0, .eraseCommandIssue 2048,
  .intentMarkerResult 2048 0, .eraseResult 2048 0 0, .eraseResult 0 64 0, .doneMarkerResult 2048 0, .heRemove 16]
def illFormed2 : List Instr := [
  .probeResult 2048 [], .scrubStepDue 256, .scrubPageAssessed 64 0, .scrubPageAssessed 0 64, .linkEnable 16 0,
  .linkEnable 0 2, .linkDisable 16 0, .linkDisable 0 2, .helloTimer 2, .hello 2 0, .openFrame 2 0, .lineFrame 2 0,
  .commitFrame 2 0, .discardFrame 2 0, .pageFrame 2 0 [] 0, .eraseFrame 2 0, .copyFrame 2 0, .degradeFrame 2 0,
  .repairReq 2 0, .repairFrame 2 0 [] 0, .ack 2 0, .creditTimeout 2, .replayTimeout 2 0, .replayTimeout 0 0x100000000,
  .hopDeadline 2 0 0, .hopDeadline 0 0x100000000 0, .hopDeadline 0 0 5, .lanesDown 2, .mirrorResync 16 0,
  .mirrorResync 0 256, .mirrorSynced 16 0, .mirrorSynced 0 256, .mirrorDegrade 16 0, .mirrorDegrade 0 256, .load 16,
  .derive 16, .eraseSlot 16 0, .eraseSlot 0 0x10000000000000000, .keyCacheFill 16 0 0, .keyCacheFill 0 1024 0,
  .keyCacheFill 0 0 65536, .tagVerifyDone 16 0, .tagVerifyDone 0 2, .microwordExecute 64, .contextTimerExpiry 64 0,
  .contextTimerExpiry 0 64, .watchdogExpiry 64, .spareTakeover 64 0]
def illFormed3 : List Instr := [
  .spareTakeover 0 0x10000000000000000, .spareClockSwitched 4, .rearm 16 0, .rearm 0 4, .imageCmd 16 0,
  .imageCmd 0 0x10000000000000000, .spurEnable 16 0, .spurEnable 0 64, .spurDisable 16 0, .spurDisable 0 64,
  .ridgeEnable 16 0, .ridgeEnable 0 16, .ridgeDisable 16 0, .ridgeDisable 0 16, .drainComplete false 64,
  .rejoinDone false 64, .engineFaultedWrite 16 0, .engineFaultedWrite 0 64, .mboxLockRead 16 0, .mboxLockRead 0 64,
  .mboxLockRelease 16 0, .mboxLockRelease 0 64, .mboxLockForce 16 0, .mboxLockForce 0 64, .inDataWrite 16 0 0 0,
  .inDataWrite 0 64 0 0, .inDataWrite 0 0 8 0, .inDataWrite 0 0 0 0x10000000000000000, .inPost 16 0 0, .inPost 0 64 0,
  .inPost 0 0 0x10000000000000000, .mailboxTaken 64, .outAck 16 0 0, .outAck 0 64 0, .outAck 0 0 0x10000000000000000,
  .outTimeout 64, .bringupDone 128 [] [], .rediscover 16 0, .rediscover 0 128, .trackingPass 128 0 [],
  .trackingPass 0 8 [], .fullTrainingDone 128 [], .railSample 4096, .ridgeClosingDone 16, .shutdown 16,
  .unitRestore 16 0 [], .dropPending 16 0, .dropPending 0 0x10000000000000000]
def illFormed4 : List Instr := [
  .idleEntry 16 0, .wake 16, .wakeComplete 16, .idleHintUs 16 0 0, .idleHintUs 0 16 0, .idleHintUs 0 0 0x10000000000000000,
  .idleHintExpiry 16, .railMinMvWrite 16 0, .railMinMvWrite 0 0x10000000000000000, .demandPeakWrite 16 0,
  .demandPeakWrite 0 0x10000000000000000, .dictionaryWrite 16 0 0 0, .dictionaryWrite 0 0x8000000 0 0,
  .dictionaryWrite 0 0 256 0, .dictionaryWrite 0 0 0 0x10000000000000000, .crestlineEnable 16, .portSeqWrite 16 0,
  .portSeqWrite 0 0x10000000000000000, .rateWrite 16 0, .rateWrite 0 0x10000000000000000, .nonceReq 16, .clearCmd 16,
  .clearKeyIndexWrite 16 0, .clearKeyIndexWrite 0 0x10000000000000000, .injectEngine 16 0,
  .injectEngine 0 0x10000000000000000, .injectMem 16 0, .injectMem 0 0x10000000000000000, .memoryError 256 0 0 false,
  .memoryError 0 256 0 false, .memoryError 0 0 0x10000000000000000 false, .fabricTimeout 4096, .lateResponse 4096,
  .sensorConversion 17 0, .sensorFault 17, .tempPeakWrite 16 0 0, .tempPeakWrite 0 17 0,
  .tempPeakWrite 0 0 0x10000000000000000, .readData 4096 false [], .reservedKindMessage 16, .getFeatures (.run 64 0 0),
  .getFeatures (.run 0 64 0)]
theorem test_illFormed0_refused : illFormed0.all (fun c => !c.wf) = true := by decide
theorem test_illFormed1_refused : illFormed1.all (fun c => !c.wf) = true := by decide
theorem test_illFormed2_refused : illFormed2.all (fun c => !c.wf) = true := by decide
theorem test_illFormed3_refused : illFormed3.all (fun c => !c.wf) = true := by decide
theorem test_illFormed4_refused : illFormed4.all (fun c => !c.wf) = true := by decide

/-! ### Worked examples of the manual -/

/-- The generator of R145 as a codeword: the message 1, whose LC bits would be 01 and are 00 here (R144, R146). -/
def wrongCheck : Slot := BitVec.ofNat 560 (1 + bchGen % 2 ^ 30 * 2 ^ 530)
theorem gf10Mul_zeros (k : Nat) (h : k = 1 ∨ k = 3 ∨ k = 5) (c : Nat) (l : List Nat) (hl : ∀ i ∈ l, c.testBit i = false) :
    l.foldr (fun i acc => gf10Mul acc (gf10Alpha k) ^^^ (if c.testBit i then 1 else 0)) 0 = 0 := by
  induction l with
  | nil => rfl
  | cons i l ih =>
    rw [List.foldr_cons, ih (fun j hj => hl j (List.mem_cons_of_mem _ hj)), hl i (List.mem_cons_self ..)]
    obtain rfl | rfl | rfl := h <;> decide +kernel
theorem synd_generator (k : Nat) (h : k = 1 ∨ k = 3 ∨ k = 5) : synd k (530 + 30) bchGen = 0 := by
  rw [synd, show 530 + 30 = 31 + 529 by rfl, List.range_add, List.foldr_append, gf10Mul_zeros k h]
  · obtain rfl | rfl | rfl := h <;> decide +kernel
  · intro i hi
    obtain ⟨j, -, rfl⟩ := List.mem_map.1 hi
    exact Nat.testBit_lt_two_pow (Nat.lt_of_lt_of_le (by decide +kernel : bchGen < 2 ^ 31) (Nat.pow_le_pow_right (by decide) (by omega)))
theorem polyMod_one (n : Nat) : polyMod 2 7 n 1 = 1 := by
  induction n with
  | zero => rfl
  | succ n ih =>
    have : (Nat.testBit 1 n && decide (2 ≤ n)) = false := by
      by_cases h : 2 ≤ n
      · rw [Nat.testBit_lt_two_pow (Nat.lt_of_lt_of_le (by decide : 1 < 2 ^ 2) (Nat.pow_le_pow_right (by decide) h))]; rfl
      · simp [h]
    rw [polyMod, this]
    exact ih
theorem bchCorrect_of_zero (b w c : Nat) (hc : codeWord b w = c) (h1 : synd 1 (b + 30) c = 0) (h3 : synd 3 (b + 30) c = 0)
    (h5 : synd 5 (b + 30) c = 0) : bchCorrect b w = some (0, w) := by
  have hl : locator 0 0 0 = some (0, 0, 0, 0) := by decide +kernel
  simp only [bchCorrect, hc, h1, h3, h5, hl, if_true]
theorem lc_of_one (w : BitVec 528) (h : w.toNat = 1) : lcBits w = 1 := by rw [lcBits, h, polyMod_one]
theorem wit_Line_check_bits_are_the_remainder :
    bchCorrect 530 wrongCheck.toNat = some (0, wrongCheck.toNat) ∧ lcBits (BitVec.ofNat 528 wrongCheck.toNat) ≠ (wrongCheck.toNat >>> 528) % 4 := by
  refine ⟨bchCorrect_of_zero 530 _ bchGen (by decide +kernel) (synd_generator 1 (by decide)) (synd_generator 3 (by decide)) (synd_generator 5 (by decide)), ?_⟩
  rw [lc_of_one _ (by decide +kernel)]
  decide +kernel
/-- R54's queue 300: k = 8, DONE 0x03F0, ring of 256 entries. -/
def queue300 (done doorbell : Nat) : State :=
  { withOd [(0x312C, 0x05, 8)] with queues := { entries := [(300, { state := .running, done := done, fetch := done, doorbell := doorbell })] } }
/-- The next state of an outcome, or the state itself. -/
def after (s : State) (o : Host.Outcome State Fault Refusal) : State :=
  match o with
  | .next t => t
  | _ => s
/-- Text after R54: a doorbell of 0x04F0, at page offset 0x0960, is accepted with DONE 0x03F0; 0x04F1 overruns; with DONE 0x03F4 it does not. -/
theorem test_doorbell_of_a_full_ring :
    (queue (after up (exec (.doorbellWrite 0x0960 8 0x04F0) (queue300 0x03F0 0x03F0))) 300).doorbell = 0x04F0
    ∧ (queue (after up (exec (.doorbellWrite 0x0960 8 0x04F1) (queue300 0x03F0 0x03F0))) 300).state = .halted
    ∧ (queue (after up (exec (.doorbellWrite 0x0960 8 0x04F1) (queue300 0x03F4 0x04F0))) 300).doorbell = 0x04F1 := by decide +kernel
/-- R8's example: OD 0x2104.03 lies at 0x01082018. -/
theorem test_dictionary_address : odKey 0x2104 0x03 * 8 = 0x01082018 := by decide
/-- The two-plane page read of chapter 4 and the gather read of chapter 5: FPAs and Cornice entries. -/
theorem test_flash_addresses :
    mkFpa false 70 3 2 812 5000 0 = 0x46340CB138800000 ∧ mkFpa false 70 3 2 812 5000 10 = 0x46340CB13880A000
    ∧ mkFpa false 9 12 3 812 9000 255 = 0x09C60CB2328FF000 ∧ fBlun 0x46340CB13880A000 = 1123 ∧ cornOf 1123 2 = 6740
    ∧ cornOf (fBlun 0x09C60CB2328FF000) 3 = 939 ∧ fSpur 0x4702_0CB0_04D0_3000 = 35 := by decide +kernel
/-- Chapter 6: a LUN of 3,000 blocks per plane has GROUP_SHIFT 6, so block 1,500 lies in group 23. -/
theorem test_group_shift : groupShift 3000 16 0 = 6 ∧ 1500 / 2 ^ groupShift 3000 16 0 = 23 := by decide
/-- Chapter 12: the geometry word 0x80742EDD7FF74800 of a LUN of 3,000 blocks. -/
theorem test_geometry_word : lunBlocks (lunIn { geom := 0x80742EDD7FF74800 }) 0 = 3000 := by decide +kernel
/-- Chapter 7: unit record 17 of ridge 2 at generation 0x0041 has handle 0x20110041; META0 of rows A to D. -/
theorem test_unit_handle_and_meta :
    hRidge 0x20110041 = 2 ∧ hIndex 0x20110041 = 17 ∧ hGen 0x20110041 = 0x41
    ∧ bitsOf (mkLine 0 true true false 0 0) 519 512 = 0xC0 ∧ bitsOf (mkLine 0 true true false 1 0) 519 512 = 0xC1
    ∧ bitsOf (mkLine 0 true false false 2 0) 519 512 = 0x82 ∧ bitsOf (mkLine 0 true false false 5 0) 519 512 = 0x85 := by decide +kernel
/-- After R222: the first 16 bytes of the INTENT record. -/
theorem test_intent_marker :
    bytesOf 16 (markerBody 1 0x0F 1980 3 0 2 0x4A17 0)
      = [0x01, 0x0F, 0xBC, 0x07, 0x03, 0x00, 0x02, 0x00, 0x17, 0x4A, 0x00, 0x00, 0x00, 0x00, 0x00, 0x00] := by decide +kernel
/-- Chapter 13: a 2.2 mF bank at 12 V gives E = 87,852 µJ and a limit of 70,281 µJ. -/
theorem test_ledger_limit :
    let s := modAo (withOd [(0x7000, 0x07, 2200), (0x7000, 0x04, 11400), (0x7000, 0x05, 6000), (0x7000, 0x08, 850)])
      (fun a => { a with pf := .armed, samples := [2400, 2400, 2400] })
    eAvail s = 87852 ∧ ledgerLimit s = 70281 := by decide +kernel

/-- R149's example: the seed of slot 10 of block 812, page 5,000 in region 40, and the first bytes of its mask. -/
theorem test_scrambler :
    scrambleSeed 0x7A110028 812 5000 10 = 0x79499C62 ∧ bytesOf 4 (scramble 0x79499C62 (0 : BitVec 32)) = [0x9E, 0x92, 0x39, 0x46] := by
  decide +kernel
/-- R208, R330, R336: an SLC erase of two planes of a die of three bits per cell whose profile has SLC_PREFIX A2h, in one
multi-plane operation and plane by plane. -/
theorem test_erase_cycles :
    let s := fun m => lunIn { geom := place 64 17 3, commands := 0xA2, multiErase := m }
    eraseCycles (s true) 0 0 [1, 2] = [.cmd 0xA2, .cmd 0x60, .row 1, .cmd 0xD1, .cmd 0x60, .row 2, .cmd 0xD0]
    ∧ eraseCycles (s false) 0 0 [1, 2] = [.cmd 0xA2, .cmd 0x60, .row 1, .cmd 0xD0, .cmd 0xA2, .cmd 0x60, .row 2, .cmd 0xD0] := by
  decide +kernel
/-- R339: the order of a TLC program on two planes, and what ends each page: 11h inside a position, ONE_SHOT_MID (1Ah) before the
next, 10h at the end. -/
theorem test_one_shot_order :
    let d := fun pg : Nat => ({ state := .programming, region := 0, phys := mkFpa false 0 0 0 100 pg 0, planesM1 := 1 } : Led)
    let s := { withOd [(0x2000, 0x06, 1)] with
      luns := { entries := [(0, { geom := place 64 0 1120 ||| place 64 17 3 ||| place 64 20 767, commands := 0x1A00,
                                  busy := .program [0, 1, 2] [0, 1] 100 })] }
      units := { entries := [(0, d 3), (1, d 4), (2, d 5)] } }
    programRows s 0 = [(0, 0), (0, 1), (1, 0), (1, 1), (2, 0), (2, 1)]
    ∧ (List.range 6).map (fun i => (segmentCycles s 0 (5 - i))[1]?)
        = [some (.cmd 0x11), some (.cmd 0x1A), some (.cmd 0x11), some (.cmd 0x1A), some (.cmd 0x11), some (.cmd 0x10)] := by
  decide +kernel

/-! ### Small runs of one step -/

/-- A read-only entry is refused and reported; a good write is stored. -/
theorem test_control_writes :
    (after up (exec (.dictionaryWrite 1 (odKey 0x1000 1 * 8) 0xFF 5) up)).sent = [.ctl 1 2 0]
    ∧ od (after up (exec (.dictionaryWrite 1 (odKey 0x2000 3 * 8) 0xFF 100) up)) 0x2000 3 = 100 := by decide +kernel
/-- A rail sample counts one microsecond and keeps the newest three codes (R353). -/
theorem test_rail_sample :
    (after up (exec (.railSample 2400) (modAo up (fun a => { a with samples := [1, 2, 3] })))).ao.samples = [2400, 1, 2]
    ∧ (after up (exec (.railSample 2400) up)).ao.timeUs = 1 := by decide +kernel
/-- The step takes the front command and leaves the rest. -/
theorem test_step_order :
    (after up (step { up with pending := [.wake 0, .fetchTurn] })).pending = [.fetchTurn] := by decide +kernel

end Sys2Proof.Tests
end

section
/-! PROOFS. What reset leaves (R444, R446), and what control-port writes and their refusals do (R8, R386, R387, R430, R431). -/

open Sys2Proof.Claims

namespace Sys2Proof.Machine

/-! ### Keys of the dictionary -/

/-- R8: the address of an entry over 8 tells its index and its subindex. -/
theorem odKey_inj {i j sub u : Nat} (hs : sub < 256) (hu : u < 256) (h : odKey j u = odKey i sub) : (j, u) = (i, sub) := by
  unfold odKey at h
  obtain rfl : j = i := by omega
  obtain rfl : u = sub := by omega
  rfl

/-- The default at an entry's key is the entry's default. -/
theorem odKeyDefault_odKey (i : Nat) {sub : Nat} (h : sub < 256) : odKeyDefault (odKey i sub) = odDefault i sub := by
  have hi : (i * 256 + sub) / 256 = i := by omega
  have hs : (i * 256 + sub) % 256 = sub := by omega
  rw [odKeyDefault, odKey, hi, hs]

/-- R444: after reset an entry reads its default. -/
theorem od_reset (i : Nat) {sub : Nat} (h : sub < 256) : od State.reset i sub = odDefault i sub :=
  odKeyDefault_odKey i h

/-- With both reset inputs released nothing is asked of a quiet reset. -/
theorem resetQuiet_of_released {s : State} (ha : s.ao.inAoReset = false) (hb : s.ao.inBlkReset = false) : ResetQuiet s := by
  simp [ResetQuiet, ha, hb]

/-- Settles O2: the reset state lists no record of any unit, so each reads back as its default, and the single units stand as
declared. -/
theorem reset_leaves_every_unit_at_rest : Obligations.Reset_leaves_every_unit_at_rest := by
  unfold Obligations.Reset_leaves_every_unit_at_rest
  have hod : ∀ i sub, od State.reset i sub = odDefault i sub ∨ 256 ≤ sub := fun i sub =>
    (Nat.lt_or_ge sub 256).imp_left (od_reset i)
  have hquiet : ResetQuiet State.reset := resetQuiet_of_released rfl rfl
  exact ⟨rfl, hod, fun _ => rfl, fun _ => rfl, fun _ => rfl, fun _ => rfl, fun _ => rfl, fun _ => rfl, fun _ => rfl,
    rfl, rfl, fun _ => rfl, rfl, rfl, rfl, rfl, rfl, hquiet⟩

/-! ### Refused writes -/

/-- A counter stands in the dictionary, and counting changes nothing else. -/
theorem countBy_changes_od_only (s : State) (i sub n : Nat) : countBy s i sub n = { s with od := (countBy s i sub n).od } := by
  unfold countBy
  dsimp only
  split <;> rfl

/-- Counting one entry leaves every other alone. -/
theorem od_countBy_other (s : State) (i sub n j u : Nat) (h : odKey j u ≠ odKey i sub) :
    od (countBy s i sub n) j u = od s j u := by
  unfold countBy
  dsimp only
  split
  · exact od_setOd_other _ _ _ _ _ _ h
  · rfl

/-- R387: REFUSED_WRITES and LAST_REFUSAL stand in the dictionary, and a refusal changes nothing else. -/
theorem refuseWrite_changes_od_only (s : State) (q : Req) (i sub code : Nat) :
    refuseWrite s q i sub code = { s with od := (refuseWrite s q i sub code).od } := by
  unfold refuseWrite count
  rw [countBy_changes_od_only s 0x1020 0x01 1]
  rfl

/-- R387, R395: a refusal leaves every entry but REFUSED_WRITES and LAST_REFUSAL alone. -/
theorem od_refuseWrite_other (s : State) (q : Req) (i sub code j u : Nat) (h1 : odKey j u ≠ odKey 0x1020 1)
    (h2 : odKey j u ≠ odKey 0x1020 2) : od (refuseWrite s q i sub code) j u = od s j u := by
  unfold refuseWrite count
  rw [od_setOd_other _ _ _ _ _ _ h2, od_countBy_other _ _ _ _ _ _ h1]

/-- State t is s with a write of master mid refused with a code (R387, R395, R430): the answer is on the port, and entries of
index 0x1020 alone may differ. -/
def WriteRefused (s t : State) (mid code : Nat) : Prop :=
  t.sent = .ctl mid code 0 :: s.sent ∧ t = { s with od := t.od, sent := t.sent }
    ∧ ∀ j u, u < 256 → (j, u) ≠ (0x1020, 1) → (j, u) ≠ (0x1020, 2) → od t j u = od s j u

/-- A refusal that is noted and answered with its code changes no more than that. -/
theorem writeRefused_refuseWrite (s : State) (q : Req) (mid i sub code : Nat) :
    WriteRefused s (emit (refuseWrite s q i sub code) (.ctl mid code 0)) mid code := by
  have hod := refuseWrite_changes_od_only s q i sub code
  refine ⟨?_, ?_, fun j u hu h1 h2 => ?_⟩
  · rw [hod]; rfl
  · rw [hod]; rfl
  · exact od_refuseWrite_other s q i sub code j u (fun h => h1 (odKey_inj (by decide) hu h)) (fun h => h2 (odKey_inj (by decide) hu h))

/-! ### Writes on the control port -/

/-- R386: a write with any other code than OK is refused with that code. -/
theorem ctlWrite_refused (s : State) (mid i sub v : Nat) (h : writeCode s ⟨false, mid⟩ i sub v ≠ 0) :
    ctlWrite s mid i sub v = emit (refuseWrite s ⟨false, mid⟩ i sub (writeCode s ⟨false, mid⟩ i sub v))
      (.ctl mid (writeCode s ⟨false, mid⟩ i sub v) 0) := by
  simp only [ctlWrite, dictWrite, if_pos h]

/-- A write that passes leaves what okWrite says (R420, R430). -/
theorem ctlWrite_eq_okWrite (s : State) (mid i sub v : Nat) (h : writeCode s ⟨false, mid⟩ i sub v = 0)
    (ht : isTvState i sub = false) : ctlWrite s mid i sub v = okWrite (applyWrite s ⟨false, mid⟩ i sub v) mid i sub :=
  ctlWrite_ok s mid i sub v h ht

/-- A command meets its meaning while the ports are up. -/
theorem gate_up {s : State} (h : s.ao.portsUp = true) (t : State) : gate s t = .next t := by
  rw [gate, if_pos h]

/-- R8: the address of an entry is aligned, and its index and subindex are found in it. -/
theorem entry_of_address {i sub : Nat} (hi : i < 65536) (hs : sub < 256) :
    (i * 256 + sub) * 8 % 8 = 0 ∧ (i * 256 + sub) * 8 / 2048 % 65536 = i ∧ (i * 256 + sub) * 8 / 8 % 256 = sub := by
  omega

/-- R8, R386: a full-word write at an entry's address is the write of that entry. -/
theorem exec_dictionaryWrite_word (s : State) (mid i sub data : Nat) (hp : s.ao.portsUp = true) (hi : i < 65536) (hs : sub < 256) :
    exec (.dictionaryWrite mid ((i * 256 + sub) * 8) 0xFF data) s = .next (ctlWrite s mid i sub data) := by
  obtain ⟨haligned, hindex, hsub⟩ := entry_of_address hi hs
  have hword : ¬ (0xFF ≠ 0xFF ∨ (i * 256 + sub) * 8 % 8 ≠ 0) := by simp [haligned]
  show execDictionaryWrite mid ((i * 256 + sub) * 8) 0xFF data s = _
  rw [execDictionaryWrite, gate_up hp, if_neg hword, hindex, hsub]

/-- R431: a write whose byte enables are not all set is refused with WIDTH. -/
theorem exec_dictionaryWrite_width (s : State) (mid addr be data : Nat) (hp : s.ao.portsUp = true) (hbe : be ≠ 0xFF) :
    exec (.dictionaryWrite mid addr be data) s
      = .next (emit (refuseWrite s ⟨false, mid⟩ (addr / 2048 % 65536) (addr / 8 % 256) 8) (.ctl mid 8 0)) := by
  show execDictionaryWrite mid addr be data s = _
  rw [execDictionaryWrite, gate_up hp, if_pos (Or.inl hbe)]

/-! ### The first codes of a control-port write (R386) -/

/-- R423: master 0 reaches no entry. -/
theorem writeCode_master_zero (s : State) (i sub v : Nat) : writeCode s ⟨false, 0⟩ i sub v = 7 := by
  simp [writeCode, pathOk]

/-- Another master's write of an entry that no table defines. -/
theorem writeCode_no_entry (s : State) (mid i sub v : Nat) (hm : mid ≠ 0) (hr : odRow i sub = none) :
    writeCode s ⟨false, mid⟩ i sub v = 1 := by
  simp [writeCode, pathOk, hm, hr]

/-- Another master's write of a read-only entry. -/
theorem writeCode_read_only (s : State) (mid i sub v : Nat) (r : OdRow) (hm : mid ≠ 0) (hr : odRow i sub = some r)
    (ha : r.acc = .ro) : writeCode s ⟨false, mid⟩ i sub v = 2 := by
  simp [writeCode, pathOk, hm, hr, ha]

/-- Settles O22: a full-word write is the write of its entry, whose code decides between its effect and a refusal; a write of
fewer bytes is a refusal with WIDTH; and a refusal touches index 0x1020 alone. -/
theorem refused_writes_change_nothing_else : Obligations.Refused_writes_change_nothing_else := by
  unfold Obligations.Refused_writes_change_nothing_else
  intro s mid i sub data be hp hi hs addr code
  have hword : exec (.dictionaryWrite mid addr 0xFF data) s = .next (ctlWrite s mid i sub data) :=
    exec_dictionaryWrite_word s mid i sub data hp hi hs
  refine ⟨fun hcode => ?refused, fun hbe => ?width, fun hcode htv => ?accepted, ?masterZero, ?noEntry, ?readOnly⟩
  case refused => exact ⟨_, hword.trans (congrArg _ (ctlWrite_refused s mid i sub data hcode)), writeRefused_refuseWrite ..⟩
  case width => exact ⟨_, exec_dictionaryWrite_width s mid addr be data hp hbe, writeRefused_refuseWrite ..⟩
  case accepted => rw [hword, ctlWrite_eq_okWrite s mid i sub data hcode htv]
  case masterZero => rintro rfl; exact writeCode_master_zero s i sub data
  case noEntry => exact writeCode_no_entry s mid i sub data
  case readOnly => exact fun row hm hrow hro => writeCode_read_only s mid i sub data row hm hrow hro

end Sys2Proof.Machine
end

section
/-! PROOFS. What folds keep, and what a notice leaves alone (R85). -/

namespace Sys2Proof.Machine

/-- What every step of a fold keeps the fold keeps. -/
theorem foldl_keeps {α β : Type} (g : State → β) (f : State → α → State) (h : ∀ s x, g (f s x) = g s) (l : List α) (s : State) :
    g (l.foldl f s) = g s :=
  (List.foldl_hom g (g₂ := fun b _ => b) (fun s x => (h s x).symm)).symm.trans (List.foldl_fixed l)

/-- R85: a notice goes into its ring or is counted as dropped, and no more changes. -/
theorem postAuto_changes_rings_od (s : State) (n : Nat) (x : Notice) :
    postAuto s n x = { s with rings := (postAuto s n x).rings, od := (postAuto s n x).od } := by
  unfold postAuto
  split
  · rfl
  · rw [count, countBy_changes_od_only]
    rfl

/-- R85: of the dictionary a notice to the block's ring touches the count of those dropped alone. -/
theorem od_blockNotice_other (s : State) (code detail extra i : Nat) {sub : Nat} (hs : sub < 256) (h : sub ≠ 0x0D) :
    od (blockNotice s code detail extra) i sub = od s i sub := by
  unfold blockNotice postAuto
  split
  · rfl
  · exact od_countBy_other _ _ _ _ _ _ (by unfold odKey; omega)

end Sys2Proof.Machine
end

section
/-! PROOFS. What the Gate makes of a front entry that fails its checks (R14, R69, R75). -/

open Sys2Proof.Claims
namespace Sys2Proof.Machine

/-! ### Refusals at the Gate (R14, R75) -/

/-- R14, R69: an entry whose verdict is a refusal takes its place in the admission order and its status. -/
theorem admitEnt_refuse {s : State} {x : Ent} {st : Status} {f : W64} (q : Nat) (hfits : holdFits s x = true)
    (hv : verdict s x = .refuse st f) : admitEnt s q x = finalise (takeOrder s q x.idx) q x.idx st f := by
  simp [admitEnt, hfits, hv, refuseEntry]

/-- R75, R76: a row of the Gate whose opcode is the front entry's refuses it, and goes on behind it. -/
theorem exec_row_refuses {s : State} {q : Nat} {x : Ent} {st : Status} {f : W64} {c : Instr} {p : W512 → Bool} (h : Front s q x)
    (hv : verdict s x = .refuse st f) (hc : exec c s = gate s (admitRow p q s)) (hp : p x.raw = true) :
    exec c s = .next (refuseLoop (finalise (takeOrder s q x.idx) q x.idx st f) q (queue s q).ents.length) := by
  obtain ⟨hports, hfront, -, harrived, hmay, hfits⟩ := h
  rw [hc, gate_up hports, admitRow_front s q x p hfront harrived hmay hp, admitEnt_refuse q hfits hv]

/-- Settles O10: each opcode has its own row at the Gate, and every row judges the front entry alike. -/
theorem failing_entries_are_refused_at_once : Obligations.Failing_entries_are_refused_at_once := by
  unfold Obligations.Failing_entries_are_refused_at_once
  intro s q x st f hfront hv
  have row : ∀ {c : Instr} (p : W512 → Bool), exec c s = gate s (admitRow p q s) → p x.raw = true → exec c s = _ :=
    fun p hc hp => exec_row_refuses hfront hv hc hp
  refine ⟨?host, ?feature, fun hop => row _ rfl (decide_eq_true hop)⟩
  case host =>
    simp only [List.forall_mem_cons]
    refine ⟨?_, ?_, ?_, ?_, ?_, ?_, ?_, ?_, ?_, ?_, ?_, ?_, ?_, fun _ h => nomatch h⟩ <;>
      exact fun hop => row _ rfl (decide_eq_true hop)
  case feature =>
    simp only [List.forall_mem_cons]
    refine ⟨?_, ?_, ?_, ?_, fun _ h => nomatch h⟩ <;>
      exact fun hop hsub => row _ rfl (Bool.and_eq_true_iff.2 ⟨decide_eq_true hop, decide_eq_true hsub⟩)

end Sys2Proof.Machine
end

section
/-! PROOFS. Descriptors that leave the hold store at their timeout, and those an engine pops (R16, R17, R21, R303). -/

open Sys2Proof.Claims
namespace Sys2Proof.Machine

/-! ### Timeouts of the hold store (R16, R17) -/

section
variable {s : State} {n : Nat} {h : Held} (hp : s.ao.portsUp = true) (hfind : s.hold.find? (fun h => h.id = n) = some h)
include hp hfind

/-- R16: before BRINGUP_TIMEOUT_MS a held descriptor stays. -/
theorem exec_holdTimeout_early (hus : s.ao.timeUs - h.since < od s 0x7100 0x01 * 1000) : exec (.holdTimeout n) s = .next s := by
  show execHoldTimeout n s = _
  simp only [execHoldTimeout, gate_up hp, hfind, if_pos hus]

variable (hus : od s 0x7100 0x01 * 1000 ≤ s.ao.timeUs - h.since)
include hus

/-- R16, R232: work of the block itself stays, but a patrol's read held for a unit gives its step up. -/
theorem exec_holdTimeout_own (hq : h.desc.q = 0xFFFF) : exec (.holdTimeout n) s
    = .next (if h.desc.op = 0x40 ∧ h.cause = .unitNotReady then scrubTimeout (unhold s n) h.desc.region else s) := by
  show execHoldTimeout n s = _
  simp only [execHoldTimeout, gate_up hp, hfind, if_neg (Nat.not_lt.2 hus), if_pos hq]

variable (hq : h.desc.q ≠ 0xFFFF)
include hq

/-- R16: a descriptor that waits for its unit ends NOT_READY. -/
theorem exec_holdTimeout_unit (hc : h.cause = .unitNotReady) (hsrc : h.desc.source ≠ 1) : exec (.holdTimeout n) s
    = .next (reportDesc (unhold s n) h.desc (notReady s h.desc.named (s.ao.timeUs - h.since))) := by
  show execHoldTimeout n s = _
  simp only [execHoldTimeout, gate_up hp, hfind, if_neg (Nat.not_lt.2 hus), if_neg hq, hc, if_neg hsrc, decide_eq_false hsrc,
    Bool.false_and]
  cases entOf s h.desc.q h.desc.idx with
  | none => rfl
  | some x =>
    have hnone : (entryFpas x.raw).find? (fun _ => false) = none := List.find?_eq_none.2 fun _ _ => Bool.false_ne_true
    simp only [hnone, Option.elim_none]

/-- R16: a held entry whose queue has it no more names the descriptor's own address. -/
theorem exec_holdTimeout_entryGone (hc : h.cause = .unitNotReady) (hsrc : h.desc.source = 1) (he : entOf s h.desc.q h.desc.idx = none) :
    exec (.holdTimeout n) s
      = .next (finalise (unhold s n) h.desc.q h.desc.idx (notReady s h.desc.named (s.ao.timeUs - h.since)) 0) := by
  show execHoldTimeout n s = _
  simp only [execHoldTimeout, gate_up hp, hfind, if_neg (Nat.not_lt.2 hus), if_neg hq, hc, if_pos hsrc, he]

/-- R16, R113: a held entry ends NOT_READY for the first of its addresses whose spur is not ready. -/
theorem exec_holdTimeout_entry {x : Ent} {r : Nat} {f : W64} {more : List (Nat × W64)} (hc : h.cause = .unitNotReady)
    (hsrc : h.desc.source = 1) (he : entOf s h.desc.q h.desc.idx = some x)
    (hfpa : (entryFpas x.raw).filter (fun y => !spurReady s (fSpur y.2)) = (r, f) :: more) : exec (.holdTimeout n) s
      = .next (finalise (unhold s n) h.desc.q h.desc.idx (notReady s f (s.ao.timeUs - h.since)) 0) := by
  have hfirst : (entryFpas x.raw).find? (fun y => !spurReady s (fSpur y.2)) = some (r, f) := by
    rw [← List.head?_filter, hfpa, List.head?_cons]
  show execHoldTimeout n s = _
  simp only [execHoldTimeout, gate_up hp, hfind, if_neg (Nat.not_lt.2 hus), if_neg hq, hc, if_pos hsrc, he, decide_eq_true hsrc,
    Bool.true_and, hfirst, Option.elim_some]

/-- R264: an entry that waits for its key ends KEY_UNAVAILABLE cause 3. -/
theorem exec_holdTimeout_key (hc : h.cause = .keyLoading) : exec (.holdTimeout n) s
    = .next (finalise (unhold s n) h.desc.q h.desc.idx ⟨0x22, rOd s h.desc.region 0x0B, 3⟩ 0) := by
  show execHoldTimeout n s = _
  simp only [execHoldTimeout, gate_up hp, hfind, if_neg (Nat.not_lt.2 hus), if_neg hq, hc, slotOf]

/-- R16: an entry that waits for a link ends NOT_READY. -/
theorem exec_holdTimeout_link {l : Nat} (hc : h.cause = .link l) : exec (.holdTimeout n) s
    = .next (finalise (unhold s n) h.desc.q h.desc.idx ⟨0x40, 6 * 256 + l, sat (2 ^ 32 - 1) (s.ao.timeUs - h.since)⟩ 0) := by
  show execHoldTimeout n s = _
  simp only [execHoldTimeout, gate_up hp, hfind, if_neg (Nat.not_lt.2 hus), if_neg hq, hc]

/-- R16, R307: what waits for a gap move, for energy or for room in a class has no timeout. -/
theorem exec_holdTimeout_stays (hc : h.cause ∈ [.gapMove, .ledger, .ledgerStalls, .screeFull]) : exec (.holdTimeout n) s = .next s := by
  show execHoldTimeout n s = _
  simp only [List.mem_cons, List.not_mem_nil, or_false] at hc
  rcases hc with hc | hc | hc | hc <;>
    simp only [execHoldTimeout, gate_up hp, hfind, if_neg (Nat.not_lt.2 hus), if_neg hq, hc]

end

/-! ### A pop (R21, R294, R303, R305) -/

/-- The state once the oldest packet of class k, d, has left its queue for z, and what its going makes room for has moved on. -/
def packetPopped (s : State) (p k : Nat) (d : Desc) (z : Scree) : State :=
  let t := modSpur s p (fun x => Spur.popped { x with classes := setAt x.classes k z } k)
  screeDrain (if 0x80 ≤ d.op then t else readBodies t p k (d.items - 1)) p k

/-- The state once the packet stands in its context and is counted. -/
def packetPlaced (t : State) (p c : Nat) (d : Desc) : State :=
  stamp (modSpur (count t (0x4100 + p) 0x0D) p (fun x => { x with ctxs := x.ctxs.set {} c (newCtx t d) }))

/-- A routine run word by word finds free values in the eleven registers it starts with. -/
def regsDrawn (t : State) : State := { t with free := t.free + 11 }

theorem ctxOf_packetPlaced (t : State) (p c : Nat) (d : Desc) : ctxOf (packetPlaced t p c d) p c = newCtx t d := by
  have hspur : spur (packetPlaced t p c d) p
      = { spur (count t (0x4100 + p) 0x0D) p with ctxs := (spur (count t (0x4100 + p) 0x0D) p).ctxs.set {} c (newCtx t d) } :=
    spur_modSpur _ _ _
  rw [ctxOf, hspur]
  exact SMap.get_set_same _ _ _ _

/-- R21, R303: an engine that may pop takes the packet and starts it; a routine run word by word takes its free registers. -/
theorem exec_descriptorPop {s : State} {p c k : Nat} {d : Desc} {z : Scree} (hp : s.ao.portsUp = true)
    (hsvc : (spur s p).svc = .inService ∨ (spur s p).svc = .draining) (hstopped : (spur s p).stopped = false) (hrail : railDown s = false)
    (hcur : (spur s p).current = none) (hpower : (ridge s (p / 4)).pstate = 0) (hc : c < 63) (hfree : ctxUsed s p c = false)
    (hrank : popRank s p < resumeRank s p) (hclass : popClass s p = some k) (hpop : (screeOf s p k).pop = some (d, z)) :
    let t := packetPlaced (packetPopped s p k d z) p c d
    exec (.descriptorPop p c) s = .next (startDesc (if 0x80 ≤ d.op then regsDrawn t else t) p c) := by
  show execDescriptorPop p c s = _
  rw [execDescriptorPop, gate_up hp]
  dsimp only
  rw [if_pos ⟨hsvc, hcur, by simp [hstopped], by simp [hrail], hpower, hc, by simp [hfree], hrank⟩]
  simp only [popInto, hclass, hpop]
  rfl

/-- R290, R294: an integrator opcode's context is in charge of its engine, from its entry word on. -/
theorem startDesc_integrator {s : State} {p c : Nat} (hop : 0x80 ≤ (ctxOf s p c).desc.op) :
    startDesc s p c = modSpur (modCtx s p c (fun x => { x with stage := 3 })) p
      (fun x => { x with current := if x.current = none then some c else x.current }) := by
  unfold startDesc
  dsimp only
  repeat rw [if_neg (by omega)]
  rw [if_pos (by omega)]

/-- R294, R303: the context of an integrator opcode goes on with its descriptor, and the engine runs it or what it already ran. -/
theorem runs_startDesc_integrator {s : State} {p c : Nat} {x : Ctx} (hctx : ctxOf s p c = x) (hop : 0x80 ≤ x.desc.op) :
    ctxOf (startDesc s p c) p c = { x with stage := 3 } ∧ (spur (startDesc s p c) p).current ≠ none := by
  subst hctx
  rw [startDesc_integrator hop, ctxOf, spur_modSpur]
  constructor
  · show ctxOf (modCtx s p c _) p c = _
    rw [ctxOf, modCtx, spur_modSpur]
    exact SMap.get_modify_same _ _ _ _
  · dsimp only
    split
    · exact Option.some_ne_none c
    · assumption

/-- Settles O12: a timeout ends what is held by the cause it waits for, and an engine starts the packet R21 chooses. -/
theorem descriptors_wait_and_start : Obligations.Descriptors_wait_and_start := by
  unfold Obligations.Descriptors_wait_and_start
  refine ⟨fun s n h hp hfind => ⟨exec_holdTimeout_early hp hfind, fun hus hq => ⟨fun hop hc => ?patrol, fun hother => ?own⟩, fun hus hq =>
    ⟨exec_holdTimeout_unit hp hfind hus hq, exec_holdTimeout_entryGone hp hfind hus hq,
     fun x r f more => exec_holdTimeout_entry hp hfind hus hq, exec_holdTimeout_key hp hfind hus hq,
     fun l => exec_holdTimeout_link hp hfind hus hq, exec_holdTimeout_stays hp hfind hus hq⟩⟩, ?pop⟩
  case patrol => rw [exec_holdTimeout_own hp hfind hus hq, if_pos ⟨hop, hc⟩]
  case own =>
    rw [exec_holdTimeout_own hp hfind hus hq, if_neg (not_and_or.2 hother)]
  case pop =>
    intro s p c k d z hp hsvc hstopped hrail hcur hpower hc hfree hrank hclass hpop
    have hexec := exec_descriptorPop hp hsvc hstopped hrail hcur hpower hc hfree hrank hclass hpop
    dsimp only at hexec
    have hctx := ctxOf_packetPlaced (packetPopped s p k d z) p c d
    refine ⟨_, packetPopped s p k d z, packetPlaced (packetPopped s p k d z) p c d, rfl, rfl, rfl, hctx, fun hop => ?shipped, fun hop => ?word⟩
    case shipped => rw [hexec, if_neg (by omega)]
    case word =>
      rw [if_pos hop] at hexec
      have hdrawn : ctxOf (regsDrawn (packetPlaced (packetPopped s p k d z) p c d)) p c = newCtx (packetPopped s p k d z) d := hctx
      obtain ⟨hstart, hcurrent⟩ := runs_startDesc_integrator hdrawn hop
      exact ⟨_, hexec, by rw [hstart]; rfl, by rw [hstart], hcurrent⟩

end Sys2Proof.Machine
end

section
/-! PROOFS. What the outer decoders do with staged interleaves (R23, R154, R162, R164). -/

open Sys2Proof.Claims
namespace Sys2Proof.Machine

/-! ### Outer decoders (R23, R154, R162, R164) -/

/-- R23: the interleave that goes next takes the decoder chosen for it. -/
theorem exec_decoderAssign {s : State} {rg d k : Nat} {t : Stage} (hp : s.ao.portsUp = true) (hnext : nextStage s (rg / 4) = some t)
    (hdec : decoderFor s t.ridge t = some (d, k)) :
    exec (.decoderAssign rg) s = .next (stageRetry (modDec (modRidge s t.ridge (fun r => { r with staged := r.staged.erase t })) d
      (fun x => { x with jobs := x.jobs.set none k (some t) })) t.ridge) := by
  show execDecoderAssign rg s = _
  simp only [execDecoderAssign, gate_up hp, hnext, hdec]

/-- R164: with no island ready, the interleaves of a ridge that have waited out the timeout fail in order. -/
theorem exec_decoderWaitTimeout {s : State} (rg : Nat) (hp : s.ao.portsUp = true) (hready : ∀ d < 4, (dec s d).ready = false) :
    exec (.decoderWaitTimeout rg) s
      = .next (((ridge s rg).staged.filter (fun t => decide (s.ao.timeUs - t.since ≥ od s 0x7100 0x01 * 1000))).foldl (fun s t =>
          failDesc s t.spur t.ctx ⟨0x40, 3 * 256 + rg / 4, sat (2 ^ 32 - 1) (s.ao.timeUs - t.since)⟩) s) := by
  have hnone : ((List.range 4).any fun d => (dec s d).ready) = false :=
    List.any_eq_false.2 fun d hd => by simp [hready d (List.mem_range.1 hd)]
  show execDecoderWaitTimeout rg s = _
  rw [execDecoderWaitTimeout, gate_up hp, if_neg (by simp [hnone])]

/-- R154: column decoding of a hard interleave finishes it with its lines. -/
theorem exec_outerDecodeDone {s : State} {isl k : Nat} {t : Stage} (hp : s.ao.portsUp = true) (hjob : (dec s isl).jobs.get none k = some t)
    (hhard : t.soft = []) : exec (.outerDecodeDone isl k) s = .next (finishDecode s isl k t t.lines []) := by
  show execOuterDecodeDone isl k s = _
  simp only [execOuterDecodeDone, gate_up hp, hjob, if_pos hhard]

/-- R162: the Chase decode of a soft interleave finishes it with the lines it passed. -/
theorem exec_chaseDecodeDone {s : State} {isl k : Nat} {t : Stage} (hp : s.ao.portsUp = true) (hjob : (dec s isl).jobs.get none k = some t)
    (hsoft : t.soft ≠ []) : exec (.chaseDecodeDone isl k) s = .next (finishDecode
      (if ctxUsed s t.spur t.ctx then countBy s (0x2110 + t.spur / 4) 0x0B (chaseCount s t) else s) isl k t
      ((List.range 128).map (fun i => ((chaseLines s t).find? (fun y => y.1 = i)).map (fun y => y.2.2))) (chaseLines s t)) := by
  show execChaseDecodeDone isl k s = _
  simp only [execChaseDecodeDone, gate_up hp, hjob, if_neg hsoft]

/-- Settles O27: each command finds the interleave it serves, and the timeout's fold runs over the one that waits. -/
theorem outer_decoders_serve_staged_interleaves : Obligations.Outer_decoders_serve_staged_interleaves := by
  unfold Obligations.Outer_decoders_serve_staged_interleaves
  intro s rg isl k t hp
  refine ⟨fun d => exec_decoderAssign hp, fun hready hstaged hlate => ?timeout,
    fun hjob => ⟨exec_outerDecodeDone hp hjob, exec_chaseDecodeDone hp hjob⟩⟩
  case timeout =>
    rw [exec_decoderWaitTimeout rg hp hready, hstaged, List.filter_singleton]
    simp [hlate]

end Sys2Proof.Machine
end

section
/-! PROOFS. Programs: their start, their segments and their end (R180, R183, R198, R199). -/

open Sys2Proof.Claims
namespace Sys2Proof.Machine

/-! ### Polls that find their LUN ready (R128, R313, R332) -/

@[simp] theorem luns_latchDie (s : State) (l : Nat) (byte : Byte) :
    (latchDie s l byte).luns = (modLun s l (fun x => { x with dieStatus := byte.toNat })).luns :=
  foldl_keeps (·.luns) _ (fun s e => by split <;> rfl) _ _

@[simp] theorem chans_latchDie (s : State) (l : Nat) (byte : Byte) : (latchDie s l byte).chans = s.chans :=
  foldl_keeps (·.chans) _ (fun s e => by split <;> rfl) _ _

/-- A poll latches its byte in the LUN and goes out on the bus: no more of the LUN changes. -/
theorem lunOf_latchDie_bus (s : State) (l : Nat) (cs : List BusCyc) (byte : Byte) :
    lunOf (latchDie (bus s l cs) l byte) l = { lunOf s l with dieStatus := byte.toNat } := by
  rw [lunOf_congr (modLun (bus s l cs) l (fun x => { x with dieStatus := byte.toNat })) _ l (luns_latchDie ..), lunOf_modLun]
  rfl

/-- The LUN of a valid poll: its byte stands latched, and no invalid one is pending (R313, R332). -/
theorem lunOf_polled (s : State) (l : Nat) (byte : Byte) :
    lunOf (polled s l byte) l = { lunOf s l with dieStatus := byte.toNat, invalid := 0 } := by
  rw [polled, lunOf_modLun, lunOf_latchDie_bus]

/-- A poll that finds what its LUN runs at its end goes on from the state polled. -/
theorem dieResult_of_ready {s : State} {l : Nat} {byte : Byte} (h : Ready s l byte) (f : State → State) :
    dieResult s l byte f = f (polled s l byte) := by
  obtain ⟨hturn, hbusy, hvalid, hrdy⟩ := h
  have hchan : chan (latchDie (bus s l (pollCycles s l)) l byte) (l / 16) = chan s (l / 16) := chan_congr _ _ _ (chans_latchDie ..)
  have hstill : ¬ (lunOf (latchDie (bus s l (pollCycles s l)) l byte) l).busy = .idle := by
    rw [lunOf_latchDie_bus]; exact hbusy
  rw [dieResult, if_neg (by simp [hturn])]
  dsimp only
  rw [if_neg hstill, hchan, if_neg (by simp [hvalid]), if_pos hrdy, polled]

/-! ### The start of a program (R180, R183, R369) -/

/-- Filling a hole leaves the units listed as they are. -/
theorem units_fillHole (u : Nat) (s : State) (h : Nat × Nat) : (fillHole u s h).units = s.units := by
  simp only [fillHole, peakDemand, notePeak, cairn, modAo_frame, count]
  rw [countBy_changes_od_only]
  split <;> rfl

/-- A unit but for its place in the order of completion (R183). -/
def unturned (s : State) (v : Nat) : Led := { unit s v with turn := 0 }

theorem unturned_modUnit_turn (s : State) (u v n : Nat) : unturned (modUnit s u (fun d => { d with turn := n })) v = unturned s v := by
  unfold unturned
  by_cases h : v = u
  · rw [h, unit_modUnit]
  · rw [unit_modUnit_other _ _ _ _ h]

/-- A group that is noted complete takes its turn, and no more of any unit changes. -/
theorem unturned_noteComplete (s : State) (u v : Nat) : unturned (noteComplete s u) v = unturned s v := by
  unfold noteComplete
  split
  · exact foldl_keeps (unturned · v) _ (fun t (e : Nat × Led) => unturned_modUnit_turn t e.1 v _) _ _
  · rfl

/-- A group filled at once takes its turn, and no more of any listed unit changes (R195, R369). -/
theorem unturned_fillGroup (s : State) (u v : Nat) : unturned (fillGroup s u) v = unturned s v := by
  have hfills : ((((groupHoles s u).filter (fun h => true && !moveOwes s u h))).foldl (fillHole u) s).units = s.units :=
    foldl_keeps (·.units) _ (units_fillHole u) _ _
  rw [fillGroup, fillSome, unturned_noteComplete, unturned, unit_congr _ _ v hfills, unturned]

/-- R180, R183, R195: what lets the program of a unit's group start but for its turn on the port. -/
theorem programReady_iff (s : State) (u : Nat) : programReady s u = true ↔
    let d := unit s u
    let l := fBlun d.phys
    d.state = .committed ∧ (d.restored = false ∨ (region s d.region).state = 1) ∧ groupComplete s u = true ∧ turnAhead s u = false
      ∧ lunIdle s l = true ∧ arrayOpen s l = true ∧ ((spur s (lunSpur l)).svc = .inService ∨ (spur s (lunSpur l)).svc = .draining)
      ∧ (spur s (lunSpur l)).stopped = false := by
  simp [programReady, and_assoc]

/-- The state the program of a unit finds: in an orderly shutdown its group is filled at once (R369). -/
def startState (s : State) (u : Nat) : State := if s.ao.pf = .shutdown then fillGroup s u else s

theorem unturned_startState (s : State) (u v : Nat) : unturned (startState s u) v = unturned s v := by
  unfold startState
  split
  · exact unturned_fillGroup s u v
  · rfl

/-- R180, R183: the program of a complete group begins once its LUN and its port let it. -/
theorem exec_programStart {s : State} {h : BitVec 32} {u : Nat} {d : Led} (hp : s.ao.portsUp = true) (hu : unitKey h = u) (hd : unit s u = d)
    (hgen : d.gen = hGen h) (hstate : d.state = .committed) (hready : programReady (startState s u) u = true)
    (hturn : portTurn (startState s u) (fBlun d.phys) d.cls d.turn = true) :
    exec (.programStart h) s = .next (beginProgram (tookTurn (startState s u) (fBlun d.phys) d.cls) u) := by
  subst hu hd
  have hstart : (if s.ao.pf = .shutdown ∧ (unit s (unitKey h)).gen = hGen h ∧ (unit s (unitKey h)).state = .committed
      then fillGroup s (unitKey h) else s) = startState s (unitKey h) := by
    simp only [startState, hgen, hstate, and_self, and_true]
  show execProgramStart h s = _
  rw [execProgramStart, gate_up hp]
  dsimp only
  rw [hstart, if_pos ⟨hgen, hready, hturn⟩]

/-! ### Segments of the data-in (R22, R199) -/

/-- R22: a segment ends with its cycles on the bus; the last one confirms the program. -/
theorem exec_dataInSegmentDone {s : State} {p k u n : Nat} (hp : s.ao.portsUp = true) (hk : k < 2) (hseg : (port s p k).seg = some (u, .dataIn, n)) :
    exec (.dataInSegmentDone p k) s = .next (
      let l := fBlun (unit s u).phys
      let b := bus (modPort s p k (fun y => { y with seg := none })) l (segmentCycles s l n)
      if n = 0 then
        let c := modPort b p k (fun y => { y with waiting := y.waiting.filter (fun ph => !(decide (ph.kind = .dataIn) && decide (ph.lun = l))) })
        judgeWaiting (modLun c l (fun x =>
          { x with startUs := c.ao.timeUs, issueUs := c.ao.timeUs, ranUs := 0, runOk := decide (od c 0x5800 0x03 = 0) })) l
      else modPort b p k (fun y =>
        { y with waiting := y.waiting.map (fun ph => if ph.kind = .dataIn ∧ ph.ctx = u then { ph with step := n } else ph) })) := by
  show execDataInSegmentDone p k s = _
  rw [execDataInSegmentDone, gate_up hp]
  dsimp only
  rw [Nat.mod_eq_of_lt hk, hseg]

/-! ### The end of a program (R198, R199) -/

/-- R332: FAIL clear: no plane has failed. -/
theorem failingPlanes_pass (now : List Nat) (mask : Nat) {byte : Byte} (h : byte.getLsbD 0 = false) : failingPlanes now mask byte = [] := by
  rw [failingPlanes, if_pos (by rw [h]; exact Bool.false_ne_true)]

/-- R332: FAIL set: the mask says which, where it names one. -/
theorem failingPlanes_named {now : List Nat} {mask : Nat} {byte : Byte} (h : byte.getLsbD 0 = true) (hm : ∃ k ∈ now, mask.testBit k = true) :
    failingPlanes now mask byte = now.filter (fun k => mask.testBit k) := by
  rw [failingPlanes, if_neg (not_not.2 h), if_pos (List.any_eq_true.2 hm)]

/-- R332: FAIL set and a mask that names none: all have failed. -/
theorem failingPlanes_all {now : List Nat} {mask : Nat} {byte : Byte} (h : byte.getLsbD 0 = true) (hm : ∀ k ∈ now, mask.testBit k = false) :
    failingPlanes now mask byte = now := by
  have hnone : ¬ now.any (fun k => mask.testBit k) = true := fun hany => by
    obtain ⟨k, hk, ht⟩ := List.any_eq_true.1 hany
    exact absurd ht (by rw [hm k hk]; exact Bool.false_ne_true)
  rw [failingPlanes, if_neg (not_not.2 h), if_neg hnone]

/-- R198: with no plane left the program ends. -/
theorem programResult_last {z : State} {l mask blk : Nat} {byte : Byte} {us now : List Nat} (hbusy : (lunOf z l).busy = .program us now blk)
    (hleft : (lunOf z l).planesLeft = []) :
    programResult z l mask byte = endProgram (if failingPlanes now mask byte = [] then z else countProgramFail z l) l
      ((lunOf z l).planesFailed ++ (failingPlanes now mask byte).map (fun k => (k, byte.toNat))) none := by
  rw [programResult, hbusy]
  dsimp only
  rw [hleft]

/-- R195, R198: where the planes go one by one the next is posted. -/
theorem programResult_next {z : State} {l mask blk k : Nat} {byte : Byte} {us now left : List Nat}
    (hbusy : (lunOf z l).busy = .program us now blk) (hleft : (lunOf z l).planesLeft = k :: left) :
    programResult z l mask byte = postDataIn (modLun (if failingPlanes now mask byte = [] then z else countProgramFail z l) l (fun x =>
      { x with busy := .program us [k] blk, planesLeft := left,
               planesFailed := (lunOf z l).planesFailed ++ (failingPlanes now mask byte).map (fun k => (k, byte.toNat)),
               seqFirst := x.seqFirst + (programRows z l).length })) l (us.headD 0) := by
  rw [programResult, hbusy]
  dsimp only
  rw [hleft]

/-- R198: a poll that shows a confirmed program ready gives its result. -/
theorem exec_programResult {s : State} {l : Nat} {byte : Byte} {us now : List Nat} {blk : Nat} (mask : Nat) (hp : s.ao.portsUp = true)
    (hready : Ready s l byte) (hconfirmed : dataInOpen s l = false) (hbusy : (lunOf s l).busy = .program us now blk) :
    exec (.programResult l mask byte) s = .next (programResult (polled s l byte) l mask byte) := by
  show execProgramResult l mask byte s = _
  rw [execProgramResult, gate_up hp, hbusy]
  simp only [hconfirmed, dieResult_of_ready hready]
  rfl

/-- Settles O30: filling its group leaves a unit all but its turn, and a poll its LUN all but the byte latched, so each clause is read off
the state before. -/
theorem programs_start_transfer_and_end : Obligations.Programs_start_transfer_and_end := by
  unfold Obligations.Programs_start_transfer_and_end
  intro s hp
  refine ⟨fun h => ?start, fun p k u n hk hseg => ?segment,
    fun now mask byte => ⟨failingPlanes_pass now mask, failingPlanes_named, failingPlanes_all⟩,
    fun l mask byte us now blk hready hconfirmed hbusy => ?result, fun l byte _ => ?poll⟩
  case start =>
    intro u d l hgen hstate a hregion hcomplete hturn hidle hopen hport hsvc hgo
    have hsame : unturned a u = unturned s u := unturned_startState s u u
    have hstate' : (unit a u).state = d.state := congrArg (·.state) hsame
    have hrestored : (unit a u).restored = d.restored := congrArg (·.restored) hsame
    have hreg : (unit a u).region = d.region := congrArg (·.region) hsame
    have hphys : (unit a u).phys = d.phys := congrArg (·.phys) hsame
    have hready : programReady a u = true := by
      rw [programReady_iff]
      dsimp only
      rw [hstate', hrestored, hreg, hphys]
      exact ⟨hstate, hregion, hcomplete, hturn, hidle, hopen, hsvc, hgo⟩
    exact exec_programStart hp rfl rfl hgen hstate hready hport
  case segment =>
    rw [exec_dataInSegmentDone hp hk hseg]
    exact ⟨fun h => by simp only [h, if_true], fun h => by simp only [if_neg h]⟩
  case result =>
    intro z bad c failed
    have hz : (lunOf z l).busy = .program us now blk := by rw [lunOf_polled]; exact hbusy
    rw [exec_programResult mask hp hready hconfirmed hbusy]
    exact ⟨fun hleft => congrArg _ (programResult_last hz hleft), fun k left hleft => congrArg _ (programResult_next hz hleft)⟩
  case poll =>
    intro z
    rw [lunOf_polled]
    exact ⟨rfl, rfl, rfl, rfl, rfl⟩

end Sys2Proof.Machine
end

section
/-! PROOFS. Engines, their timers and watchdog, and the spares that take over (R294, R296, R317, R318, R320). -/

open Sys2Proof.Claims
namespace Sys2Proof.Machine

/-! ### A word, a timer, the watchdog (R292, R294, R296, R317, R422) -/

/-- R422: has the engine that runs a spur an injected fault before it? -/
def engineInjected (s : State) (n : Nat) : Bool := if (spur s n).onSpare then (spare s (n / 16)).injected else (spur s n).injected

/-- R317: is the control store of the engine that runs a spur good? -/
def engineStoreGood (s : State) (n : Nat) : Bool := if (spur s n).onSpare then (spare s (n / 16)).csGood else (spur s n).csGood

/-- An engine in service that is not stopped is not barred from its word. -/
theorem engine_runs {s : State} {n : Nat} (hgo : (spur s n).stopped = false) (hsvc : (spur s n).svc = .inService) :
    ¬ ((spur s n).stopped = true ∨ ((spur s n).svc ≠ .inService ∧ (spur s n).svc ≠ .draining)) := by
  simp [hgo, hsvc]

section
variable {s : State} {n : Nat} (hp : s.ao.portsUp = true) (hgo : (spur s n).stopped = false) (hsvc : (spur s n).svc = .inService)
include hp hgo

/-- R296: 512 cycles of the context in charge, or time spent in a shipped routine, fault the engine with cause 1. -/
theorem exec_watchdogExpiry (hdue : watchdogDue s n = true) : exec (.watchdogExpiry n) s = .next (engineFault s n 1) := by
  show execWatchdogExpiry n s = _
  rw [execWatchdogExpiry, gate_up hp, if_pos ⟨hdue, by simp [hgo]⟩]

include hsvc

/-- R422: an injected fault strikes at the next word. -/
theorem exec_microwordExecute_injected (hinj : engineInjected s n = true) : exec (.microwordExecute n) s = .next (engineFault
    (modSpare s (n / 16) (fun y => if (spur s n).onSpare then { y with injected := false } else y)) n 5) := by
  show execMicrowordExecute n s = _
  rw [execMicrowordExecute, gate_up hp]
  dsimp only
  rw [if_neg (engine_runs hgo hsvc)]
  exact congrArg _ (if_pos hinj)

variable (hinj : engineInjected s n = false)
include hinj

/-- R317: a bad control store faults the engine with cause 2. -/
theorem exec_microwordExecute_badStore (hgood : engineStoreGood s n = false) :
    exec (.microwordExecute n) s = .next (engineFault s n 2) := by
  show execMicrowordExecute n s = _
  rw [execMicrowordExecute, gate_up hp]
  dsimp only
  rw [if_neg (engine_runs hgo hsvc)]
  exact congrArg _ ((if_neg (Bool.eq_false_iff.1 hinj)).trans (if_pos (Bool.eq_false_iff.1 hgood)))

variable (hgood : engineStoreGood s n = true)
include hgood

/-- R291: the context in charge runs its word. -/
theorem exec_microwordExecute_current {c : Nat} (hcur : (spur s n).current = some c) (hused : ctxUsed s n c = true) :
    exec (.microwordExecute n) s = .next (runWord s n c) := by
  show execMicrowordExecute n s = _
  rw [execMicrowordExecute, gate_up hp]
  dsimp only
  rw [if_neg (engine_runs hgo hsvc)]
  refine congrArg _ ((if_neg (Bool.eq_false_iff.1 hinj)).trans ((if_neg (not_not.2 hgood)).trans ?_))
  rw [hcur]
  exact if_pos hused

/-- R294: with none in charge the parked context that ranks no lower than a pop resumes. -/
theorem exec_microwordExecute_parked {c : Nat} (hcur : (spur s n).current = none) (hrank : resumeRank s n ≤ popRank s n)
    (hnext : nextParked s n = some c) :
    exec (.microwordExecute n) s = .next (runWord (modSpur s n (fun y => { y with current := some c })) n c) := by
  show execMicrowordExecute n s = _
  rw [execMicrowordExecute, gate_up hp]
  dsimp only
  rw [if_neg (engine_runs hgo hsvc)]
  refine congrArg _ ((if_neg (Bool.eq_false_iff.1 hinj)).trans ((if_neg (not_not.2 hgood)).trans ?_))
  rw [hcur]
  dsimp only
  rw [if_neg (Nat.not_lt.2 hrank), hnext]

end

/-- R292: a running timer of a context in use expires. -/
theorem exec_contextTimerExpiry {s : State} {n c : Nat} (hp : s.ao.portsUp = true) (hused : ctxUsed s n c = true)
    (hrun : (ctxOf s n c).timer = 1) : exec (.contextTimerExpiry n c) s = .next (modCtx s n c (fun x => { x with timer := 2 })) := by
  show execContextTimerExpiry n c s = _
  rw [execContextTimerExpiry, gate_up hp, if_pos ⟨hused, hrun⟩]

/-! ### Spares (R20, R318, R320) -/

/-- R318: a spare whose spur has settled stands on its clock if its store is good; else it is FAULTED and the fault not cured. -/
theorem exec_spareClockSwitched {s : State} {g : Nat} (hp : s.ao.portsUp = true) (hstate : (spare s g).state = 1)
    (hnot : (spare s g).switched = false) (hsettled : spurSettled s (spare s g).spur = true) :
    exec (.spareClockSwitched g) s = .next (if (spare s g).csGood = true then modSpare s g (fun y => { y with switched := true })
      else uncured (setOd (modSpare s g (fun y => { y with state := 3, spur := 0xFF })) (0x4100 + (spare s g).spur) 0x08 1) (spare s g).spur) := by
  show execSpareClockSwitched g s = _
  rw [execSpareClockSwitched, gate_up hp]
  dsimp only
  rw [if_neg (by simp [hstate, hnot, hsettled]), ite_not]

/-- Counting and notices leave the engines as they are. -/
theorem engines_blockNotice_count (s : State) (i sub code detail extra : Nat) :
    (blockNotice (count s i sub) code detail extra).spares = s.spares ∧ (blockNotice (count s i sub) code detail extra).spurs = s.spurs := by
  rw [blockNotice, postAuto_changes_rings_od, count, countBy_changes_od_only]
  exact ⟨rfl, rfl⟩

/-- R318 step 5: what the end of a takeover leaves: the spare IN USE, the spur running on it, ENGINE_FAULTED 1. -/
theorem takeover_ends (s : State) (g n code detail extra rcode unit region rdetail : Nat) (f : W64) (arg0 arg1 arg2 : Nat) :
    let b := modSpur (modSpare s g (fun y => { y with state := 2 })) n (fun y => { y with onSpare := true, stopped := false })
    let t := cairn (blockNotice (count (setOd b (0x4100 + n) 0x08 1) 0x4000 0x0B) code detail extra) rcode unit region rdetail f arg0 arg1 arg2
    (spare t g).state = 2 ∧ (spur t n).onSpare = true ∧ (spur t n).stopped = false ∧ od t (0x4100 + n) 0x08 = 1 := by
  intro b t
  obtain ⟨hspares, hspurs⟩ := engines_blockNotice_count (setOd b (0x4100 + n) 0x08 1) 0x4000 0x0B code detail extra
  have hspare : spare t g = spare b g := spare_congr b t g hspares
  have hspur : spur t n = spur b n := spur_congr b t n hspurs
  have hod : od t (0x4100 + n) 0x08 = od (setOd b (0x4100 + n) 0x08 1) (0x4100 + n) 0x08 :=
    (od_blockNotice_other _ _ _ _ _ (by decide) (by decide)).trans (od_countBy_other _ _ _ _ _ _ (by unfold odKey; omega))
  have hbspare : spare b g = { spare s g with state := 2 } := spare_modSpare s g _
  have hbspur : spur b n = { spur (modSpare s g (fun y => { y with state := 2 })) n with onSpare := true, stopped := false } :=
    spur_modSpur _ n _
  rw [hspare, hspur, hod, hbspare, hbspur, od_setOd]
  exact ⟨rfl, rfl, rfl, rfl⟩

/-- R318: a spare that stands on its spur's clock takes over. -/
theorem exec_spareTakeover {s : State} {n : Nat} (ready : Nat) (hp : s.ao.portsUp = true) (hstate : (spare s (n / 16)).state = 1)
    (hspur : (spare s (n / 16)).spur = n) (hsw : (spare s (n / 16)).switched = true) :
    ∃ t, exec (.spareTakeover n ready) s = .next t ∧ (spare t (n / 16)).state = 2 ∧ (spur t n).onSpare = true
      ∧ (spur t n).stopped = false ∧ od t (0x4100 + n) 0x08 = 1 := by
  have hgo : ¬ ((spare s (n / 16)).state ≠ 1 ∨ (spare s (n / 16)).spur ≠ n ∨ ¬ (spare s (n / 16)).switched = true) := by
    simp [hstate, hspur, hsw]
  have hexec : exec (.spareTakeover n ready) s = execSpareTakeover n ready s := rfl
  rw [hexec, execSpareTakeover, gate_up hp]
  dsimp only
  rw [if_neg hgo]
  exact ⟨_, rfl, takeover_ends ..⟩

/-- Settles O37: an engine's word, timer and watchdog by the state of its spur, a spare by its own. -/
theorem engines_run_and_spares_take_over : Obligations.Engines_run_and_spares_take_over := by
  unfold Obligations.Engines_run_and_spares_take_over
  refine ⟨fun s n c hp hgo hsvc => ⟨?word, exec_contextTimerExpiry hp, fun k hcur hcycles => ?watchdog, fun hcur hshipped => ?shipped⟩,
    fun s g hp hstate => ⟨fun hnot hgood hsettled => ?switched, fun hnot hbad hsettled => ?uncured, ?takeover⟩⟩
  case word =>
    rintro inj good rfl rfl
    exact ⟨exec_microwordExecute_injected hp hgo hsvc, exec_microwordExecute_badStore hp hgo hsvc,
      fun hinj hgood => exec_microwordExecute_current hp hgo hsvc hinj hgood,
      fun hinj hgood => exec_microwordExecute_parked hp hgo hsvc hinj hgood⟩
  case watchdog => exact exec_watchdogExpiry hp hgo (by simp [watchdogDue, hcur, hcycles])
  case shipped => exact exec_watchdogExpiry hp hgo (by simp [watchdogDue, hcur, hshipped])
  case switched => rw [exec_spareClockSwitched hp hstate hnot hsettled, if_pos hgood]
  case uncured => rw [exec_spareClockSwitched hp hstate hnot hsettled, if_neg (Bool.eq_false_iff.1 hbad)]
  case takeover =>
    rintro n ready rfl hspur hsw
    exact exec_spareTakeover ready hp hstate hspur hsw

end Sys2Proof.Machine
end

section
/-! PROOFS. Rail samples, the ledger and the sensors (R353 to R358, R456, R457). -/

open Sys2Proof.Claims
namespace Sys2Proof.Machine

/-! ### Rail samples (R353, R354) -/

/-- What a sample's tick sets, and the queues: its other work leaves them alone. -/
def railView (s : State) : SMap Queue × Nat × List Nat := (s.queues, s.ao.timeUs, s.ao.samples)

theorem railView_countBy (s : State) (i sub n : Nat) : railView (countBy s i sub n) = railView s := by
  rw [countBy_changes_od_only]
  rfl

theorem railView_countIdle (s : State) (r : Nat) : railView (countIdle s r) = railView s := by
  unfold countIdle
  split
  · exact railView_countBy ..
  · exact railView_countBy ..
  · exact railView_countBy ..
  · rfl

theorem railView_countHot (s : State) (n : Nat) : railView (countHot s n) = railView s := by
  unfold countHot
  split
  · exact railView_countBy ..
  · rfl

theorem railView_countTime (s : State) : railView (countTime s) = railView s :=
  (foldl_keeps railView _ railView_countHot _ _).trans (foldl_keeps railView _ railView_countIdle _ s)

theorem railView_fabDrain (s : State) : railView (fabDrain s) = railView s := by
  unfold fabDrain
  split <;> rfl

theorem railView_tagsFreed (s : State) : railView (tagsFreed s) = railView s := by
  unfold tagsFreed
  dsimp only
  split
  · rfl
  · exact foldl_keeps railView _ (fun s _ => railView_fabDrain s) _ _

theorem railView_railRuns (s : State) : railView (railRuns s) = railView s := by
  unfold railRuns
  dsimp only
  split
  · rfl
  · split <;> rfl

theorem railView_railNotice (s : State) (event extra : Nat) : railView (railNotice s event extra) = railView s := by
  have hnote : railView (if s.ao.inBlkReset = true then s else blockNotice s 0x39 (event * 4096 + s.ao.samples.headD 0 % 4096) extra)
      = railView s := by
    split
    · rfl
    · rw [blockNotice, postAuto_changes_rings_od]
      rfl
  unfold railNotice
  dsimp only
  split <;> exact hnote

theorem railView_railAbove (s : State) : railView (railAbove s) = railView s := by
  unfold railAbove
  split
  · exact railView_railNotice ..
  · rfl

theorem railView_answersSent (s : State) : railView (answersSent s) = railView s := rfl

/-- Counters of time, tags set aside, the runs of R354 and event 8: what a sample does besides its tick. -/
theorem railView_afterTick (s : State) :
    railView (railAbove (railRuns (if s.ao.inBlkReset then s else answersSent (tagsFreed (countTime s))))) = railView s := by
  have htime : railView (if s.ao.inBlkReset then s else answersSent (tagsFreed (countTime s))) = railView s := by
    split
    · rfl
    · rw [railView_answersSent, railView_tagsFreed, railView_countTime]
  rw [railView_railAbove, railView_railRuns, htime]

/-- R353: outside always-on reset a sample moves block time by a microsecond and joins the last three. -/
theorem exec_railSample {s : State} (code : Nat) (h : s.ao.inAoReset = false) :
    ∃ t, exec (.railSample code) s = .next t ∧ t.ao.timeUs = s.ao.timeUs + 1
      ∧ t.ao.samples = ((code % 4096) :: s.ao.samples).take 3 ∧ t.queues = s.queues := by
  have hexec : exec (.railSample code) s = execRailSample code s := rfl
  rw [hexec, execRailSample, if_neg (by simp [h])]
  have hview := railView_afterTick
    (modAo s (fun a => { a with timeUs := a.timeUs + 1, samples := ((code % 4096) :: a.samples).take 3 }))
  obtain ⟨hqueues, hrail⟩ := Prod.mk.inj hview
  obtain ⟨htime, hsamples⟩ := Prod.mk.inj hrail
  exact ⟨_, rfl, htime, hsamples, hqueues⟩

/-! ### Sensors (R456, R457) -/

/-- R456: a reading in range that is no new peak is stored, and steps the level of a good sensor. -/
theorem exec_sensorConversion_good {s : State} {n : Nat} {temp : Int} (hp : s.ao.portsUp = true) (hlo : -55 ≤ temp) (hhi : temp ≤ 150)
    (hgood : (s.sensors.get {} n).fault = false) (hpeak : signed 16 (od s (0x7210 + n) 0x02) ≥ temp) :
    exec (.sensorConversion n temp) s = .next (levelStep (setOd s (0x7210 + n) 0x01 (unsigned 16 temp)) n temp) := by
  have hkept : od (setOd s (0x7210 + n) 0x01 (unsigned 16 temp)) (0x7210 + n) 0x02 = od s (0x7210 + n) 0x02 :=
    od_setOd_other _ _ _ _ _ _ (by unfold odKey; omega)
  show execSensorConversion n temp s = _
  rw [execSensorConversion, gate_up hp, if_neg (by omega)]
  dsimp only
  rw [hkept, if_neg (Int.not_lt.2 hpeak)]
  simp only [setOd_frame, hgood, Bool.false_eq_true, if_false]

/-- Settles O40: a sample's other work leaves time, samples and queues, and the rest is read off the state met. -/
theorem rail_samples_sensors_and_the_ledger : Obligations.Rail_samples_sensors_and_the_ledger := by
  unfold Obligations.Rail_samples_sensors_and_the_ledger
  refine ⟨fun s => ⟨fun code => exec_railSample code, fun hp => ⟨fun hun hgood => ?armed, fun hhalt hgood => ?recovered, ?grant,
    fun hdeny hlast => ?resumed⟩⟩, fun s n hp => ⟨fun temp hout => ?outside, fun temp => exec_sensorConversion_good hp, ?fault⟩⟩
  case armed =>
    show execRailArmed s = _
    rw [execRailArmed, gate_up hp, if_pos ⟨hun, hgood⟩]
  case recovered =>
    show execRailRecovered s = _
    rw [execRailRecovered, gate_up hp, if_pos ⟨hhalt, hgood⟩]
  case grant => exact ⟨_, gate_up hp _, rfl⟩
  case resumed =>
    have hquiet : s.ao.lastDenial.all (fun t => decide (t + 1000 ≤ s.ao.timeUs)) = true := by
      cases h : s.ao.lastDenial with
      | none => rfl
      | some u => simpa using hlast u h
    show execAdmissionResumed s = _
    rw [execAdmissionResumed, gate_up hp, if_pos ⟨hdeny, hquiet⟩]
  case outside =>
    show execSensorConversion n temp s = _
    rw [execSensorConversion, gate_up hp, if_pos hout]
  case fault => exact gate_up hp _

end Sys2Proof.Machine
end

section
/-! PROOFS. The barrier of recovery, restored units and idle states (R371, R374, R378, R379). -/

open Sys2Proof.Claims
namespace Sys2Proof.Machine

/-! ### Recovery (R371, R374) -/

/-- R371: with a ridge at the barrier, EPOCH goes one above the highest read, and each ridge there goes on. -/
theorem exec_recoveryBarrier {s : State} {found : List RidgeFound} {x : RidgeFound} (hp : s.ao.portsUp = true) (hx : x ∈ found)
    (hat : atBarrier s x.ridge = true) :
    let now := (found.filter (fun x => atBarrier s x.ridge)).map (readable s)
    let b := now.foldl (fun s x => modRidge s x.ridge (fun y => { y with epochFound := highestEpoch x })) s
    exec (.recoveryBarrier found) s
      = .next (svcKick (releaseUnits (now.foldl recoverRidge (setOd b 0x2100 0x06 ((epochTop b + 1) % 65536))))) := by
  intro now b
  have hnow : now ≠ [] := List.ne_nil_of_mem (List.mem_map_of_mem (f := readable s) (List.mem_filter.2 ⟨hx, hat⟩))
  show execRecoveryBarrier found s = _
  rw [execRecoveryBarrier, gate_up hp, if_neg hnow]

/-- R374: an entry that still waits is treated once its ridge is IN and the block ARMED. -/
theorem exec_unitRestore {s : State} {r i : Nat} (pages : List RefugeGranule) (hp : s.ao.portsUp = true)
    (he : (ridge s r).units.getD i 0 ≠ 0) (hin : (ridge s r).svc = .inService) (harmed : s.ao.pf = .armed) :
    exec (.unitRestore r i pages) s = .next (announceRidge (treatUnit s r i ((ridge s r).units.getD i 0) pages) r) := by
  show execUnitRestore r i pages s = _
  rw [execUnitRestore, gate_up hp, if_pos ⟨he, hin, harmed⟩]

/-! ### Idle states (R19, R378, R379) -/

/-- R378, R379: an idle ridge goes to a deeper state chosen; at Dormant its Cornice entries are invalid and its write protects low. -/
theorem exec_idleEntry {s : State} {r t : Nat} (hp : s.ao.portsUp = true) (hdeep : (ridge s r).pstate < chooseState s r t)
    (hawake : (ridge s r).waking = false) (hrail : railDown s = false) :
    exec (.idleEntry r t) s = .next (
      let a := modRidge s r (fun x => { x with pstate := chooseState s r t })
      if chooseState s r t = 3 then ridgeProtect (invalidateLuns a ((List.range 128).map (fun i => 128 * r + i))) r false else a) := by
  have hgo : ¬ (chooseState s r t ≤ (ridge s r).pstate ∨ (ridge s r).waking = true ∨ railDown s = true) := by
    simp [hawake, hrail, hdeep]
  show execIdleEntry r t s = _
  rw [execIdleEntry, gate_up hp, if_neg hgo]

/-- R379: the wake of an idle ridge begins, out of Dormant with its PHYs. -/
theorem exec_wake {s : State} {r : Nat} (hp : s.ao.portsUp = true) (hidle : (ridge s r).pstate ≠ 0) :
    exec (.wake r) s = .next (modRidge (if (ridge s r).pstate = 3 then ridgeProtect s r true else s) r (fun x => { x with waking := true })) := by
  show execWake r s = _
  rw [execWake, gate_up hp, if_neg hidle]

/-- R19, R345: the wake ends once every channel of the ridge that is UP is trained. -/
theorem exec_wakeComplete {s : State} {r : Nat} (hp : s.ao.portsUp = true) (hwake : (ridge s r).waking = true)
    (htrained : ∀ i, i < 8 → (chan s (8 * r + i)).state = 1 → (chan s (8 * r + i)).untrained = false) :
    exec (.wakeComplete r) s = .next (wakeRidge s r) := by
  have hall : (List.range 8).all (fun i => decide ((chan s (8 * r + i)).state ≠ 1) || !(chan s (8 * r + i)).untrained) = true := by
    refine List.all_eq_true.2 fun i hi => ?_
    by_cases hup : (chan s (8 * r + i)).state = 1
    · simp [htrained i (List.mem_range.1 hi) hup]
    · simp [hup]
  show execWakeComplete r s = _
  rw [execWakeComplete, gate_up hp, if_pos ⟨hwake, hall⟩]

/-- R378: a hint whose time has come ends. -/
theorem exec_idleHintExpiry {s : State} {r t : Nat} (hp : s.ao.portsUp = true) (hhint : (ridge s r).hintUntil = some t) (ht : t ≤ s.ao.timeUs) :
    exec (.idleHintExpiry r) s = .next (modRidge s r (fun x => { x with hintUntil := none })) := by
  show execIdleHintExpiry r s = _
  rw [execIdleHintExpiry, gate_up hp, if_pos (by simp [hhint, ht])]

/-- Settles O42: a ridge at the barrier makes the list of those there non-empty; a state chosen is taken if it is deeper. -/
theorem recovery_restores_and_ridges_idle : Obligations.Recovery_restores_and_ridges_idle := by
  unfold Obligations.Recovery_restores_and_ridges_idle
  refine ⟨fun s hp => ⟨fun found x hx hat => exec_recoveryBarrier hp hx hat, fun r i pages => exec_unitRestore pages hp⟩,
    fun s r hp => ⟨fun t hdeep hawake hrail hshallow => ?idle, fun t hdeep hawake hrail hdormant => ?dormant, fun hidle => ?wake,
      fun hdormant => ?wakeDormant, exec_wakeComplete hp, fun t => exec_idleHintExpiry hp⟩⟩
  case idle => rw [exec_idleEntry hp hdeep hawake hrail, if_neg hshallow]
  case dormant =>
    rw [exec_idleEntry hp (hdormant ▸ hdeep) hawake hrail, if_pos hdormant, hdormant]
  case wake =>
    rw [exec_wake hp (by omega), if_neg (by omega)]
  case wakeDormant =>
    rw [exec_wake hp (by omega), if_pos hdormant]

end Sys2Proof.Machine
end

section
/-! PROOFS. Control-port writes of the image, ridges, spurs, spares, channels and injection (R309, R320 to R322, R341, R422). -/

open Sys2Proof.Claims
namespace Sys2Proof.Machine

/-! ### Rows of the engines' and ridges' entries -/

theorem odRows_ridge (r : Nat) (h : r < 16) : odRows (0x4010 + r) = od4010 := by
  unfold odRows
  repeat rw [if_neg (by omega)]
  rw [if_pos (by omega)]
theorem odRows_spur (p : Nat) (h : p < 64) : odRows (0x4100 + p) = od4100 := by
  unfold odRows
  repeat rw [if_neg (by omega)]
  rw [if_pos (by omega)]
theorem odRows_spare (g : Nat) (h : g < 4) : odRows (0x4180 + g) = od4180 := by
  unfold odRows
  repeat rw [if_neg (by omega)]
  rw [if_pos (by omega)]
theorem odRows_chan (c : Nat) (h : c < 128) : odRows (0x4400 + c) = od4400 := by
  unfold odRows
  repeat rw [if_neg (by omega)]
  rw [if_pos (by omega)]

/-- The entries of the image, ridges, spurs, spares, channels and injection that no rule but their row bars from being written (R386):
all but CS_TRACE (0x4000.0D) and INJECT_MEM (0xA000.02), whose ranges are their own. -/
abbrev PlainEntry (i sub : Nat) : Prop :=
  (0x4000 ≤ i ∧ i < 0x4200 ∨ 0x4400 ≤ i ∧ i < 0x4480 ∨ i = 0xA000) ∧ sub < 0x0D ∧ (i ≠ 0xA000 ∨ sub ≠ 2)

theorem rangeOk_plain (s : State) {i sub : Nat} (v : Nat) (h : PlainEntry i sub) : rangeOk s i sub v = true := by
  have hgroup : ¬ (0x2140 ≤ i ∧ i < 0x2148 ∧ sub = 0x01) := by omega
  have hlock : ¬ (0x4200 ≤ i ∧ i < 0x4240 ∧ sub = 0x01) := by omega
  unfold rangeOk
  split
  iterate 12 exact absurd h (by decide)
  rw [if_neg hgroup, if_neg hlock, ite_self]

/-- R386: a control-port write of such an entry passes when its row takes the value. -/
theorem writeCode_plain (s : State) {mid i sub v : Nat} {r : OdRow} (hm : mid ≠ 0) (h : PlainEntry i sub)
    (hr : odRow i sub = some r) (ha : r.acc = .rw ∨ r.acc = .wo) (hv : (tyFits r.ty v && decide (r.lo ≤ v) && decide (v ≤ r.hi)) = true) :
    writeCode s ⟨false, mid⟩ i sub v = 0 := by
  have hrange := rangeOk_plain s v h
  have hrws : r.acc ≠ .rws := by rcases ha with h | h <;> simp [h]
  refine writeCode_ok s mid i sub v r hm hr ha ?once ?stop ?busy ?owner ?value
  case once => simp [onceWritten, show i ≠ 0x9100 by omega]
  case stop => simp [needsStop, hrws, show i ≠ 0x9000 by omega, show i ≠ 0x9200 by omega]
  case busy => simp [odBusy, show i ≠ 0x6000 by omega, show i ≠ 0x9100 by omega]
  case owner => simp [ownerOnly]; omega
  case value => simp only [valueOk, hv, hrange, Bool.and_self, Bool.or_true]

/-- What such a write leaves once its row takes the value. -/
theorem gate_ctlWrite_plain {s : State} {mid i sub v : Nat} {r : OdRow} (hp : s.ao.portsUp = true) (hm : mid ≠ 0) (h : PlainEntry i sub)
    (hr : odRow i sub = some r) (ha : r.acc = .rw ∨ r.acc = .wo) (hv : (tyFits r.ty v && decide (r.lo ≤ v) && decide (v ≤ r.hi)) = true) :
    gate s (ctlWrite s mid i sub v) = .next (okWrite (applyWrite s ⟨false, mid⟩ i sub v) mid i sub) := by
  have htv : isTvState i sub = false := by
    simp [isTvState]; omega
  rw [gate_up hp, ctlWrite_eq_okWrite s mid i sub v (writeCode_plain s hm h hr ha hv) htv]

/-! ### What these writes do -/

/-- An entry of 0x4000 to 0x41FF or 0x4400 to 0x447F, no selector, is written as applyMid says. -/
theorem applyWrite_mid (s : State) (q : Req) {i sub : Nat} (v : Nat) (hi : 0x4010 ≤ i ∧ i < 0x4300 ∨ 0x4400 ≤ i ∧ i < 0x5000) :
    applyWrite s q i sub v = (applyMid s q i sub v).getD (setOd s i sub v) := by
  have hsel : isSel i sub = false := by simp [isSel]; omega
  rw [applyWrite, hsel, if_neg Bool.false_ne_true, if_neg (by omega), if_pos (by omega)]

theorem applyWrite_ridgeEnable (s : State) (q : Req) {r : Nat} (v : Nat) (h : r < 16) :
    applyWrite s q (0x4010 + r) 0x01 v = if v = 1 then enableRidge s r else disableRidge s r := by
  rw [applyWrite_mid s q v (by omega), applyMid, if_neg (by omega), if_neg (by omega), if_pos (by omega), if_pos rfl, Option.getD_some,
    Nat.add_sub_cancel_left]

theorem applyWrite_spurEnable (s : State) (q : Req) {p : Nat} (v : Nat) (h : p < 64) :
    applyWrite s q (0x4100 + p) 0x01 v = if v = 1 then enableSpur s p else disableSpur s p := by
  rw [applyWrite_mid s q v (by omega), applyMid, if_neg (by omega), if_neg (by omega), if_neg (by omega), if_pos (by omega), if_pos rfl,
    Option.getD_some, Nat.add_sub_cancel_left]

theorem applyWrite_engineFaulted (s : State) (q : Req) {p : Nat} (v : Nat) (h : p < 64) :
    applyWrite s q (0x4100 + p) 0x08 v = writeEngineFaulted s p v := by
  rw [applyWrite_mid s q v (by omega), applyMid, if_neg (by omega), if_neg (by omega), if_neg (by omega), if_pos (by omega),
    if_neg (by decide), if_neg (by decide), if_pos rfl, Option.getD_some, Nat.add_sub_cancel_left]

theorem applyWrite_rearm (s : State) (q : Req) {g : Nat} (v : Nat) (h : g < 4) :
    applyWrite s q (0x4180 + g) 0x03 v = if v = 1 then rearmSpare s g else s := by
  rw [applyWrite_mid s q v (by omega), applyMid, if_neg (by omega), if_neg (by omega), if_neg (by omega), if_neg (by omega), if_pos (by omega),
    Option.getD_some, Nat.add_sub_cancel_left]

theorem applyWrite_rediscover (s : State) (q : Req) {c : Nat} (v : Nat) (h : c < 128) :
    applyWrite s q (0x4400 + c) 0x05 v = if v = 1 then rediscoverChan s c else s := by
  rw [applyWrite_mid s q v (by omega), applyMid, if_neg (by omega), if_neg (by omega), if_neg (by omega), if_neg (by omega), if_neg (by omega),
    if_neg (by omega), if_pos (by omega), Option.getD_some, Nat.add_sub_cancel_left]

/-! ### The commands -/

section
variable {s : State} {mid : Nat} (hp : s.ao.portsUp = true) (hm : mid ≠ 0)
include hp hm

/-- R320: a write of 1 to REARM. -/
theorem exec_rearm {g : Nat} (h : g < 4) : exec (.rearm mid g) s = .next (okWrite (rearmSpare s g) mid (0x4180 + g) 0x03) := by
  have hrow : odRow (0x4180 + g) 0x03 = some ⟨3, 3, .bool, .wo, 0, 0, 1⟩ := by rw [odRow, odRows_spare g h]; rfl
  show execRearm mid g s = _
  rw [execRearm, gate_ctlWrite_plain hp hm (by omega) hrow (.inr rfl) rfl, applyWrite_rearm s _ 1 h, if_pos rfl]

/-- R309: a write of 1 to IMAGE_CMD. -/
theorem exec_imageCmd : exec (.imageCmd mid 1) s = .next (okWrite (imageStart s) mid 0x4000 0x04) :=
  gate_ctlWrite_plain hp hm (i := 0x4000) (sub := 0x04) (r := ⟨4, 4, .u8, .wo, 0, 1, 1⟩) (by omega) rfl (.inr rfl) rfl

/-- R31, R321: a write of a ridge's ENABLE. -/
theorem gate_ridgeEnable {r v : Nat} (h : r < 16) (hv : v ≤ 1) : gate s (ctlWrite s mid (0x4010 + r) 0x01 v)
    = .next (okWrite (if v = 1 then enableRidge s r else disableRidge s r) mid (0x4010 + r) 0x01) := by
  have hrow : odRow (0x4010 + r) 0x01 = some ⟨1, 1, .bool, .rw, 1, 0, 1⟩ := by rw [odRow, odRows_ridge r h]; rfl
  rw [gate_ctlWrite_plain hp hm (by omega) hrow (.inl rfl) (by simp [tyFits, hv]), applyWrite_ridgeEnable s _ v h]

/-- R321: a write of a spur's ENABLE. -/
theorem gate_spurEnable {p v : Nat} (h : p < 64) (hv : v ≤ 1) : gate s (ctlWrite s mid (0x4100 + p) 0x01 v)
    = .next (okWrite (if v = 1 then enableSpur s p else disableSpur s p) mid (0x4100 + p) 0x01) := by
  have hrow : odRow (0x4100 + p) 0x01 = some ⟨1, 1, .bool, .rw, 1, 0, 1⟩ := by rw [odRow, odRows_spur p h]; rfl
  rw [gate_ctlWrite_plain hp hm (by omega) hrow (.inl rfl) (by simp [tyFits, hv]), applyWrite_spurEnable s _ v h]

/-- R321: a write of 0 to ENGINE_FAULTED. -/
theorem exec_engineFaultedWrite {p : Nat} (h : p < 64) :
    exec (.engineFaultedWrite mid p) s = .next (okWrite (svcKick (setOd s (0x4100 + p) 0x08 0)) mid (0x4100 + p) 0x08) := by
  have hrow : odRow (0x4100 + p) 0x08 = some ⟨8, 8, .bool, .rw, 0, 0, 1⟩ := by rw [odRow, odRows_spur p h]; rfl
  show execEngineFaultedWrite mid p s = _
  rw [execEngineFaultedWrite, gate_ctlWrite_plain hp hm (by omega) hrow (.inl rfl) rfl, applyWrite_engineFaulted s _ 0 h, writeEngineFaulted,
    if_pos rfl]

/-- R341: a write of 1 to REDISCOVER. -/
theorem exec_rediscover {c : Nat} (h : c < 128) :
    exec (.rediscover mid c) s = .next (okWrite (modChan s c (fun x => { x with again := true })) mid (0x4400 + c) 0x05) := by
  have hrow : odRow (0x4400 + c) 0x05 = some ⟨5, 5, .bool, .wo, 0, 0, 1⟩ := by rw [odRow, odRows_chan c h]; rfl
  show execRediscover mid c s = _
  rw [execRediscover, gate_ctlWrite_plain hp hm (by omega) hrow (.inr rfl) rfl, applyWrite_rediscover s _ 1 h, if_pos rfl, rediscoverChan]

/-- R422: a write of INJECT_ENGINE. -/
theorem exec_injectEngine {e : Nat} (h : e < 68) : exec (.injectEngine mid e) s = .next (okWrite (injectEngine s e) mid 0xA000 0x01) :=
  gate_ctlWrite_plain hp hm (i := 0xA000) (sub := 0x01) (r := ⟨1, 1, .u8, .wo, 0, 0, 67⟩) (by omega) rfl (.inr rfl)
    (by simp [tyFits]; omega)

end

/-! ### Their effects by the state they meet -/

/-- R320: a FAULTED spare whose control store is good again is free. -/
theorem rearmSpare_faulted {s : State} {g : Nat} (hf : (spare s g).state = 3) (hg : (spare s g).csGood = true) :
    rearmSpare s g = modSpare s g (fun y => { y with state := 0, spur := 0xFF, switched := false }) := by
  rw [rearmSpare, if_pos ⟨hf, hg⟩]

/-- R309: an image at an aligned address is loaded while none is loading and, over a loaded one, every spur is OUT. -/
theorem imageStart_loads {s : State} (hl : s.image.state ≠ 1) (hout : s.image.state = 2 → ∀ p < 64, (spur s p).svc = .out)
    (ha : od s 0x4000 0x01 % 64 = 0) : imageStart s = imageAsk { s with image := { state := 1 } } 64 := by
  have hfree : ¬ (s.image.state = 2 ∧ ¬ (List.range 64).all (fun p => decide ((spur s p).svc = .out)) = true) :=
    fun ⟨h2, hn⟩ => hn (List.all_eq_true.2 fun p hp => decide_eq_true (hout h2 p (List.mem_range.1 hp)))
  rw [imageStart, if_neg hl, if_neg hfree, if_neg (not_not.2 ha)]

/-- R309: over a loaded image with a spur not OUT the load is refused. -/
theorem imageStart_refused {s : State} (hl : s.image.state = 2) (hin : ∃ p < 64, (spur s p).svc ≠ .out) :
    imageStart s = { s with image := { s.image with result := 1, cause := 0 } } := by
  obtain ⟨p, hp, hs⟩ := hin
  have hall : ¬ (List.range 64).all (fun p => decide ((spur s p).svc = .out)) = true :=
    fun h => hs (of_decide_eq_true (List.all_eq_true.1 h p (List.mem_range.2 hp)))
  rw [imageStart, if_neg (by omega), if_pos ⟨hl, hall⟩]

/-- R322: a spur that is OUT begins to return, or is refused with the check it fails. -/
theorem enableSpur_out {s : State} {p : Nat} (h : (spur s p).svc = .out) :
    let b := modSpur s p (fun x => { x with chosenOut := x.chosenOut && decide (x.svc = .draining) })
    enableSpur s p = if spurRefusal b p = 0 then startSpur b p
      else modSpur (setOd b (0x4100 + p) 0x01 0) p (fun x => { x with refusal := spurRefusal b p }) := by
  simp only [enableSpur, spur_modSpur, h]

/-- R321: ENABLE 0 drains a spur that does not return. -/
theorem disableSpur_drains {s : State} {p : Nat} (h : (spur s p).svc ≠ .returning) :
    disableSpur s p = drainSpur (modSpur (setOd s (0x4100 + p) 0x01 0) p (fun x => { x with chosenOut := true })) p 1 := by
  have hsvc : (spur (modSpur (setOd s (0x4100 + p) 0x01 0) p (fun x => { x with chosenOut := true })) p).svc = (spur s p).svc := by
    rw [spur_modSpur]; rfl
  unfold disableSpur drainSpur
  simp only [hsvc]
  cases hs : (spur s p).svc with
  | out => rfl
  | returning => exact absurd hs h
  | inService => rfl
  | draining => rfl

/-- Log entry 22: a RETURNING spur stays RETURNING. -/
theorem disableSpur_returning {s : State} {p : Nat} (h : (spur s p).svc = .returning) :
    disableSpur s p = modSpur (setOd s (0x4100 + p) 0x01 0) p (fun x => { x with chosenOut := true }) := by
  have hsvc : (spur (modSpur (setOd s (0x4100 + p) 0x01 0) p (fun x => { x with chosenOut := true })) p).svc = .returning := by
    rw [spur_modSpur]; exact h
  unfold disableSpur
  dsimp only
  rw [hsvc, if_neg (by decide)]

/-- R321: a ridge that is OUT begins to return once an image is loaded. -/
theorem enableRidge_out {s : State} {r : Nat} (h : (ridge s r).svc = .out) (hi : s.image.state = 2) :
    enableRidge s r = startRidge (modRidge s r (fun x => { x with chosenOut := x.chosenOut && decide (x.svc = .draining) })) r := by
  simp [enableRidge, h, hi]

/-- Settles O18: each write passes at its row, and its effect is read off the state it meets. -/
theorem engine_and_service_writes : Obligations.Engine_and_service_writes := by
  unfold Obligations.Engine_and_service_writes
  intro s mid p r g c hp hm hpl hrl hgl hcl
  refine ⟨fun hf hg => ?rearm, fun hl hout ha => ?load, fun hl hin => ?refuse, fun hout => ?spurOn, fun hs => ?spurOff, fun hs => ?spurBack,
    fun hs hi => ?ridgeOn, ?ridgeOff, exec_engineFaultedWrite hp hm hpl, exec_rediscover hp hm hcl, fun e he => ?injSpur, ?injSpare⟩
  case rearm => rw [exec_rearm hp hm hgl, rearmSpare_faulted hf hg]
  case load => rw [exec_imageCmd hp hm, imageStart_loads hl hout ha]
  case refuse => rw [exec_imageCmd hp hm, imageStart_refused hl hin]
  case spurOn =>
    have hexec : exec (.spurEnable mid p) s = .next (okWrite (enableSpur s p) mid (0x4100 + p) 0x01) := gate_spurEnable hp hm hpl (v := 1) le_rfl
    rw [hexec, enableSpur_out hout]
    exact ⟨fun h => by rw [if_pos h], fun h => by rw [if_neg h]⟩
  case spurOff =>
    rw [← disableSpur_drains hs]
    exact gate_spurEnable hp hm hpl (v := 0) (Nat.zero_le 1)
  case spurBack =>
    rw [← disableSpur_returning hs]
    exact gate_spurEnable hp hm hpl (v := 0) (Nat.zero_le 1)
  case ridgeOn =>
    rw [← enableRidge_out hs hi]
    exact gate_ridgeEnable hp hm hrl (v := 1) le_rfl
  case ridgeOff => exact gate_ridgeEnable hp hm hrl (v := 0) (Nat.zero_le 1)
  case injSpur => rw [exec_injectEngine hp hm (by omega), injectEngine, if_pos he]
  case injSpare => rw [exec_injectEngine hp hm (by omega), injectEngine, if_neg (by omega), if_pos (by omega), Nat.add_sub_cancel_left]

end Sys2Proof.Machine
end

section
/-! PROOFS. Flash addresses and Col flits, packed and unpacked (R33, R241, R242). -/

open Sys2Proof.Claims
namespace Sys2Proof.Machine

/-! ### Fields of a word -/

theorem testBit_bitsOf {n : Nat} (w : BitVec n) (hi lo j : Nat) :
    (bitsOf w hi lo).testBit j = (decide (j < hi + 1 - lo) && w.getLsbD (lo + j)) := by
  rw [bitsOf, BitVec.testBit_toNat, BitVec.getLsbD_extractLsb']

theorem getLsbD_place (n p v i : Nat) : (place n p v).getLsbD i = (decide (i < n) && decide (p ≤ i) && v.testBit (i - p)) := by
  by_cases hn : i < n
  · have hsub : i - p < n := by omega
    rw [place, BitVec.getLsbD_shiftLeft, BitVec.getLsbD_ofNat]
    simp [hn, hsub, ← decide_not]
  · simp [place, hn]

theorem bitsOf_or {n : Nat} (v w : BitVec n) (hi lo : Nat) : bitsOf (v ||| w) hi lo = bitsOf v hi lo ||| bitsOf w hi lo := by
  rw [bitsOf, BitVec.extractLsb'_or, BitVec.toNat_or]; rfl

/-- A field is below the power of two of its width. -/
theorem bitsOf_lt {n : Nat} (w : BitVec n) (hi lo : Nat) : bitsOf w hi lo < 2 ^ (hi + 1 - lo) := BitVec.isLt _

theorem bitsOf_eq_div_mod {n : Nat} (w : BitVec n) (hi lo : Nat) : bitsOf w hi lo = w.toNat / 2 ^ lo % 2 ^ (hi + 1 - lo) := by
  rw [bitsOf, BitVec.extractLsb'_toNat, Nat.shiftRight_eq_div_pow]

/-- A value placed at a field it fits is read back. -/
theorem bitsOf_place_same {n hi lo v : Nat} (hn : hi < n) (hv : v < 2 ^ (hi + 1 - lo)) : bitsOf (place n lo v) hi lo = v := by
  refine Nat.eq_of_testBit_eq fun j => ?_
  rw [testBit_bitsOf, getLsbD_place]
  by_cases hj : j < hi + 1 - lo
  · simp [hj, show lo + j < n by omega]
  · have hbit : v.testBit j = false := Nat.testBit_lt_two_pow (hv.trans_le (Nat.pow_le_pow_right (by decide) (by omega)))
    simp [hj, hbit]

/-- A value placed below a field leaves it 0. -/
theorem bitsOf_place_below {n hi lo p v w : Nat} (hv : v < 2 ^ w) (hp : p + w ≤ lo) : bitsOf (place n p v) hi lo = 0 := by
  refine Nat.eq_of_testBit_eq fun j => ?_
  have hbit : v.testBit (lo + j - p) = false := Nat.testBit_lt_two_pow (hv.trans_le (Nat.pow_le_pow_right (by decide) (by omega)))
  simp [testBit_bitsOf, getLsbD_place, hbit]

/-- A value placed above a field leaves it 0. -/
theorem bitsOf_place_above {n hi lo p v : Nat} (hp : hi < p) : bitsOf (place n p v) hi lo = 0 := by
  refine Nat.eq_of_testBit_eq fun j => ?_
  rw [testBit_bitsOf, getLsbD_place]
  by_cases hj : j < hi + 1 - lo
  · simp [show ¬ p ≤ lo + j by omega]
  · simp [hj]

/-! ### Flash addresses (R33) -/

theorem fT_eq (f : W64) : fT f = decide (bitsOf f 63 63 = 1) := by
  rw [fT, bitsOf_eq_div_mod, BitVec.getLsbD, Nat.testBit_eq_decide_div_mod_eq]
  rfl

/-- Every field of an address built reads back, cut to its width, and none of the reserved bits is set. -/
theorem fields_mkFpa (t : Bool) (ch lun pl blk pg ln : Nat) :
    let f := mkFpa t ch lun pl blk pg ln
    fT f = t ∧ fChan f = ch % 128 ∧ fLun f = lun % 16 ∧ fPlane f = pl % 8 ∧ fBlock f = blk % 32768 ∧ fPage f = pg % 16384
      ∧ fLine f = ln % 256 ∧ fRes f = 0 := by
  have ht : (if t then 1 else 0) < 2 ^ 1 := by cases t <;> decide
  have hch : ch % 128 < 2 ^ 7 := Nat.mod_lt _ (by decide)
  have hlun : lun % 16 < 2 ^ 4 := Nat.mod_lt _ (by decide)
  have hpl : pl % 8 < 2 ^ 3 := Nat.mod_lt _ (by decide)
  have hblk : blk % 32768 < 2 ^ 15 := Nat.mod_lt _ (by decide)
  have hpg : pg % 16384 < 2 ^ 14 := Nat.mod_lt _ (by decide)
  have hln : ln % 256 < 2 ^ 8 := Nat.mod_lt _ (by decide)
  simp (disch := omega) only [mkFpa, fT_eq, fChan, fLun, fPlane, fBlock, fPage, fLine, fRes, bitsOf_or, bitsOf_place_same, bitsOf_place_above,
    bitsOf_place_below hch, bitsOf_place_below hlun, bitsOf_place_below hpl, bitsOf_place_below hblk,
    bitsOf_place_below hpg, bitsOf_place_below hln, Nat.or_zero, Nat.zero_or]
  cases t <;> simp

/-- An address is known by its fields. -/
theorem fpa_ext {f g : W64} (ht : fT f = fT g) (hch : fChan f = fChan g) (hlun : fLun f = fLun g) (hpl : fPlane f = fPlane g)
    (hblk : fBlock f = fBlock g) (hpg : fPage f = fPage g) (hln : fLine f = fLine g) (hres : fRes f = fRes g) : f = g := by
  have ht' : bitsOf f 63 63 = bitsOf g 63 63 := by
    have hf := bitsOf_lt f 63 63
    have hg := bitsOf_lt g 63 63
    rw [fT_eq, fT_eq, decide_eq_decide] at ht
    omega
  simp only [fChan, fLun, fPlane, fBlock, fPage, fLine, fRes, bitsOf_eq_div_mod] at ht' hch hlun hpl hblk hpg hln hres
  have hf := f.isLt
  have hg := g.isLt
  exact BitVec.eq_of_toNat_eq (by omega)

/-- R33: packing the fields of an address without reserved bits gives it back. -/
theorem mkFpa_fields {f : W64} (hres : fRes f = 0) :
    mkFpa (fT f) (fChan f) (fLun f) (fPlane f) (fBlock f) (fPage f) (fLine f) = f := by
  obtain ⟨ht, hch, hlun, hpl, hblk, hpg, hln, hr⟩ := fields_mkFpa (fT f) (fChan f) (fLun f) (fPlane f) (fBlock f) (fPage f) (fLine f)
  refine fpa_ext ht (hch.trans ?_) (hlun.trans ?_) (hpl.trans ?_) (hblk.trans ?_) (hpg.trans ?_) (hln.trans ?_) (hr.trans hres.symm)
    <;> exact Nat.mod_eq_of_lt (bitsOf_lt f _ _)

/-- With T and the block replaced, every other field stands. -/
theorem fields_fSetBlock (f : W64) (t : Bool) {b : Nat} (hb : b < 32768) :
    let p := fSetBlock f t b
    fT p = t ∧ fBlock p = b ∧ fChan p = fChan f ∧ fLun p = fLun f ∧ fPlane p = fPlane f ∧ fPage p = fPage f ∧ fLine p = fLine f := by
  obtain ⟨ht, hch, hlun, hpl, hblk, hpg, hln, -⟩ := fields_mkFpa t (fChan f) (fLun f) (fPlane f) b (fPage f) (fLine f)
  refine ⟨ht, hblk.trans (Nat.mod_eq_of_lt hb), hch.trans ?_, hlun.trans ?_, hpl.trans ?_, hpg.trans ?_, hln.trans ?_⟩
    <;> exact Nat.mod_eq_of_lt (bitsOf_lt f _ _)

/-! ### Flits (R241, R242) -/

/-- Sealing leaves every field below the CRC as it was. -/
theorem extractLsb'_sealFlit (f : Flit) {lo w : Nat} (h : lo + w ≤ 992) : (sealFlit f).extractLsb' lo w = f.extractLsb' lo w := by
  ext i hi
  have hbody : lo + i < 992 := by omega
  have hword : lo + i < 1024 := by omega
  simp [sealFlit, hbody, hword]

theorem extractLsb'_sealFlit_crc (f : Flit) : (sealFlit f).extractLsb' 992 32 = flitCrc f := by
  ext i hi
  have hword : 992 + i < 1024 := by omega
  simp [sealFlit, hword, BitVec.getLsbD_eq_getElem hi]

/-- The CRC covers the bytes that sealing leaves alone. -/
theorem flitCrc_sealFlit (f : Flit) : flitCrc (sealFlit f) = flitCrc f := by
  have hbytes : bytesOf 124 (sealFlit f) = bytesOf 124 f :=
    List.map_congr_left fun i hi => extractLsb'_sealFlit f (by have := List.mem_range.1 hi; omega)
  rw [flitCrc, hbytes, flitCrc]

theorem flitIntact_sealFlit (f : Flit) : flitIntact (sealFlit f) = true :=
  decide_eq_true ((flitCrc_sealFlit f).trans (extractLsb'_sealFlit_crc f).symm)

theorem bitsOf_sealFlit (f : Flit) {hi lo : Nat} (h : lo + (hi + 1 - lo) ≤ 992) : bitsOf (sealFlit f) hi lo = bitsOf f hi lo :=
  congrArg BitVec.toNat (extractLsb'_sealFlit f h)

/-- Settles O51: an address is known by its fields, which read back, and the CRC of a flit stands above all it covers. -/
theorem addresses_and_flits_pack_and_unpack : Obligations.Addresses_and_flits_pack_and_unpack := by
  unfold Obligations.Addresses_and_flits_pack_and_unpack
  refine ⟨⟨fun t ch lun pl blk pg ln hch hlun hpl hblk hpg hln => ?fields, fun f => mkFpa_fields⟩, fun f => ⟨flitIntact_sealFlit f, ?body,
    bitsOf_sealFlit f (by decide), bitsOf_sealFlit f (by decide), extractLsb'_sealFlit f (by decide), extractLsb'_sealFlit f (by decide)⟩⟩
  case fields =>
    have h := fields_mkFpa t ch lun pl blk pg ln
    rwa [Nat.mod_eq_of_lt hch, Nat.mod_eq_of_lt hlun, Nat.mod_eq_of_lt hpl, Nat.mod_eq_of_lt hblk, Nat.mod_eq_of_lt hpg,
      Nat.mod_eq_of_lt hln] at h
  case body =>
    rw [BitVec.setWidth_eq_extractLsb' (by decide), extractLsb'_sealFlit f (by decide), BitVec.setWidth_eq_extractLsb' (by decide)]

end Sys2Proof.Machine
end

section
/-! PROOFS. The Traverse map (R43). -/

open Sys2Proof.Claims
namespace Sys2Proof.Machine

/-! ### Offsets of a window (R43) -/

section
variable {L S G : Nat} (hS : S < L)
include hS

/-- Turning by S and back: the two sums of R43 undo each other. -/
theorem add_mod_sub_mod {l : Nat} (hl : l < L) : ((l + S) % L + (L - S % L)) % L = l := by
  rw [Nat.mod_eq_of_lt hS, Nat.mod_add_mod, show l + S + (L - S) = l + L by omega, Nat.add_mod_right, Nat.mod_eq_of_lt hl]

theorem sub_mod_add_mod {p : Nat} (hp : p < L) : ((p + (L - S % L)) % L + S) % L = p := by
  rw [Nat.mod_eq_of_lt hS, Nat.mod_add_mod, show p + (L - S) + S = p + L by omega, Nat.add_mod_right, Nat.mod_eq_of_lt hp]

/-- A logical block lies at an offset up to L that is not the gap, and is found there. -/
theorem mapOffset_spec {l : Nat} (hl : l < L) :
    mapOffset L S G l ≤ L ∧ mapOffset L S G l ≠ G ∧ unmapOffset L S G (mapOffset L S G l) = some l := by
  have hp : (l + S) % L < L := Nat.mod_lt _ (by omega)
  have hback := add_mod_sub_mod hS hl
  rw [unmapOffset, mapOffset]
  by_cases hg : (l + S) % L ≥ G
  · have hpast : (l + S) % L + 1 > G := by omega
    rw [if_pos hg, if_neg hpast.ne', if_pos hpast, Nat.add_sub_cancel]
    exact ⟨by omega, hpast.ne', congrArg some hback⟩
  · have hbelow : (l + S) % L < G := by omega
    rw [if_neg hg, if_neg hbelow.ne, if_neg hbelow.not_gt]
    exact ⟨by omega, hbelow.ne, congrArg some hback⟩

/-- At every offset but the gap lies a logical block. -/
theorem unmapOffset_spec (hG : G ≤ L) {o : Nat} (ho : o ≤ L) (hne : o ≠ G) :
    ∃ l, l < L ∧ unmapOffset L S G o = some l ∧ mapOffset L S G l = o := by
  have hL : 0 < L := by omega
  refine ⟨_, Nat.mod_lt _ hL, by rw [unmapOffset, if_neg hne], ?_⟩
  rw [mapOffset, sub_mod_add_mod hS (by split <;> omega)]
  split <;> split <;> omega

end

/-- R43: the physical address of a logical one. -/
theorem physOf_logical {s : State} {r : Nat} {f : W64} (ht : fT f = true) : physOf s r f
    = fSetBlock f false (rOd s r 0x03 + mapOffset (winL s r) (tvOf s r (fBlun f)).start (tvOf s r (fBlun f)).gap (fBlock f)) :=
  if_pos ht

/-- Settles O47: turning by S is undone by turning back, and the offsets from G on are shifted by one past the gap. -/
theorem traverse_maps_one_to_one_past_the_gap : Obligations.Traverse_maps_one_to_one_past_the_gap := by
  unfold Obligations.Traverse_maps_one_to_one_past_the_gap
  refine ⟨fun L S G _ hS hG => ⟨fun l => mapOffset_spec hS, fun o => unmapOffset_spec hS hG, if_pos rfl⟩, fun s r f ht => ?phys⟩
  case phys =>
    dsimp only
    rw [physOf_logical ht]
    exact fields_fSetBlock f false

end Sys2Proof.Machine
end

section
/-! PROOFS. Control-port writes of a region's ENABLE and of TV_STATE, and a region that stops (R40, R41, R44). -/

open Sys2Proof.Claims
namespace Sys2Proof.Machine

/-! ### Writes of a region's entries (R44, R386) -/

/-- The entries of a region have no range but that of their rows. -/
theorem rangeOk_region (s : State) {r : Nat} (sub v : Nat) (h : r < 256) : rangeOk s (0x2000 + r) sub v = true := by
  generalize hi : 0x2000 + r = i
  unfold rangeOk
  split
  iterate 12 omega
  rw [if_neg (by omega), if_neg (by omega), ite_self]

/-- R386: a control-port write of a writable entry of a region passes when its row takes the value, unless the entry asks the region
to be STOPPED: TV_STATE does not, for its own rule says how a write of a region that runs is answered (R44). -/
theorem writeCode_region (s : State) {mid r sub v : Nat} {row : OdRow} (hm : mid ≠ 0) (h : r < 256) (hr : odRow (0x2000 + r) sub = some row)
    (ha : row.acc = .rw ∨ row.acc = .rws ∧ sub = 0x19) (hv : (tyFits row.ty v && decide (row.lo ≤ v) && decide (v ≤ row.hi)) = true) :
    writeCode s ⟨false, mid⟩ (0x2000 + r) sub v = 0 := by
  have hpath : pathOk s ⟨false, mid⟩ true (0x2000 + r) sub = true := by simp [pathOk, hm]
  have hwritable : ¬ (row.acc = .ro ∨ onceWritten s (0x2000 + r) sub = true) := by
    have hro : row.acc ≠ .ro := by rcases ha with ha | ⟨ha, -⟩ <;> simp [ha]
    simp [onceWritten, hro, show 0x2000 + r ≠ 0x9100 by omega]
  have hstop : ¬ (needsStop row (0x2000 + r) sub = true ∧ ¬ unitStopped s (reqCtx ⟨false, mid⟩) (0x2000 + r) sub = true) := by
    rcases ha with ha | ⟨-, rfl⟩
    · simp [needsStop, ha, show 0x2000 + r ≠ 0x9000 by omega, show 0x2000 + r ≠ 0x9200 by omega]
    · rw [unitStopped, if_neg (by omega), if_pos (by omega)]
      simp
  have hbusy : odBusy s (0x2000 + r) sub = false := by
    simp [odBusy, show 0x2000 + r ≠ 0x6000 by omega, show 0x2000 + r ≠ 0x9100 by omega]
  have howner : ownerOnly (0x2000 + r) sub = false := by simp [ownerOnly]; omega
  have hvalue : valueOk s row (0x2000 + r) sub v = true := by simp only [valueOk, hv, rangeOk_region s sub v h, Bool.and_self, Bool.or_true]
  simp only [writeCode, hr]
  rw [if_neg (by simp [hpath]), if_neg hwritable, if_neg hstop, if_neg (by simp [hbusy]), if_neg (by simp [howner]), if_neg (by simp [hvalue])]

theorem applyWrite_regionEnable (s : State) (q : Req) {r : Nat} (v : Nat) (h : r < 256) :
    applyWrite s q (0x2000 + r) 0x01 v = if v = 1 then enableRegion s r else disableRegion s r := by
  have hsel : isSel (0x2000 + r) 0x01 = false := by simp [isSel]; omega
  rw [applyWrite, hsel, if_neg Bool.false_ne_true, if_pos (by omega), applyLow, if_neg (by omega), if_neg (by omega), if_pos (by omega),
    Option.getD_some, Nat.add_sub_cancel_left]

section
variable {s : State} {mid r : Nat} (hp : s.ao.portsUp = true) (hm : mid ≠ 0) (h : r < 256)
include hp hm h

/-- R40, R41: a write of a region's ENABLE. -/
theorem gate_regionEnable {v : Nat} (hv : v ≤ 1) : gate s (ctlWrite s mid (0x2000 + r) 0x01 v)
    = .next (okWrite (if v = 1 then enableRegion s r else disableRegion s r) mid (0x2000 + r) 0x01) := by
  have hrow : odRow (0x2000 + r) 0x01 = some ⟨1, 1, .bool, .rw, 0, 0, 1⟩ := by rw [odRow, odRows_region r h]; rfl
  have hcode := writeCode_region s hm h hrow (.inl rfl) (v := v) (by simp [tyFits, hv])
  rw [gate_up hp, ctlWrite_eq_okWrite s mid _ _ v hcode (by simp [isTvState]), applyWrite_regionEnable s _ v h]

/-- R44: a write of TV_STATE has the state the word's own rule gives, or is refused with that rule's code. -/
theorem gate_tvState {v : Nat} (hv : v < 2 ^ 64) : gate s (ctlWrite s mid (0x2000 + r) 0x19 v)
    = .next (let w := writeTv s r (selOf s mid (0x2000 + r) 0x18) v
        if w.1 = 0 then okWrite w.2 mid (0x2000 + r) 0x19
        else emit (refuseWrite s ⟨false, mid⟩ (0x2000 + r) 0x19 w.1) (.ctl mid w.1 0)) := by
  have hrow : odRow (0x2000 + r) 0x19 = some ⟨25, 25, .u64, .rws, 2305843009213693952, 0, 18446744073709551615⟩ := by
    rw [odRow, odRows_region r h]; rfl
  have hcode := writeCode_region s hm h hrow (.inr ⟨rfl, rfl⟩) (v := v) (by simp [tyFits]; omega)
  have htv : isTvState (0x2000 + r) 0x19 = true := by simp [isTvState]; omega
  rw [gate_up hp, ctlWrite, dictWrite]
  simp only [hcode, htv, reqCtx, Nat.add_sub_cancel_left]
  by_cases hw : (writeTv s r (selOf s mid (0x2000 + r) 0x18) v).1 = 0
  · simp [hw]; rfl
  · simp [hw]

end

/-! ### What they do by the state of the region (R40, R41, R44) -/

/-- R40: a STOPPED region whose checks pass runs. -/
theorem enableRegion_passes {s : State} {r : Nat} (hstopped : (region s r).state = 0) (hpass : regionRefusal s r = 0) :
    enableRegion s r = (
      let a := adoptTraverse (setOd s (0x2000 + r) 0x01 1) r
      let b := modRegion a r (fun g => { g with state := 1, refusal := 0, block := rOd a r 0x03, page := 0, scrubOut := 0,
                                                scrubLate := false, refresh := [], mirror := mirrorAtEnable a r })
      askRepairs (goRestored b r) r) := by
  rw [enableRegion, if_neg (by omega), if_neg (by omega), if_neg (not_not.2 hpass)]

/-- R40: REFUSAL of a STOPPED region names the check that fails. -/
theorem enableRegion_refused {s : State} {r : Nat} (hstopped : (region s r).state = 0) (hfail : regionRefusal s r ≠ 0) :
    enableRegion s r = modRegion (setOd s (0x2000 + r) 0x01 0) r (fun g => { g with refusal := regionRefusal s r }) := by
  rw [enableRegion, if_neg (by omega), if_neg (by omega), if_pos hfail]

theorem enableRegion_running {s : State} {r : Nat} (hrun : (region s r).state = 1) : enableRegion s r = s := by
  rw [enableRegion, if_neg (by omega), if_pos hrun]

theorem enableRegion_draining {s : State} {r : Nat} (hdrain : (region s r).state = 2) :
    enableRegion s r = modRegion s r (fun g => { g with refusal := 0x10 }) := by
  rw [enableRegion, if_pos hdrain]

/-- R41: a RUNNING region drains, its OPEN units committed. -/
theorem disableRegion_running {s : State} {r : Nat} (hrun : (region s r).state = 1) : disableRegion s r = (
    let b := modRegion (setOd s (0x2000 + r) 0x01 0) r (fun g => { g with state := 2 })
    fillGroups (closeUnits b (fun d => decide (d.region = r))) (fun d => decide (d.region = r))) := by
  have hsame : region (setOd s (0x2000 + r) 0x01 0) r = region s r := rfl
  rw [disableRegion, hsame, if_neg (not_not.2 hrun)]

/-- R41: a DRAINING region with no work left is STOPPED. -/
theorem exec_regionStopped {s : State} {r : Nat} (hp : s.ao.portsUp = true) (hdrain : (region s r).state = 2) (hidle : regionBusy s r = false) :
    exec (.regionStopped r) s = .next (modRegion s r (fun g => { g with state := 0, scrubLate := false, refresh := [], mirror := 7 })) := by
  show execRegionStopped r s = _
  rw [execRegionStopped, gate_up hp, if_pos ⟨hdrain, by simp [hidle]⟩]

/-- The fields START, GAP and STALLED of a TV_STATE word (R44). -/
theorem tvState_fields {v : Nat} (hv : v < 2 ^ 64) : bitsOf (BitVec.ofNat 64 v) 31 16 = v / 2 ^ 16 % 2 ^ 16
    ∧ bitsOf (BitVec.ofNat 64 v) 15 0 = v % 2 ^ 16 ∧ (BitVec.ofNat 64 v).getLsbD 62 = v.testBit 62 := by
  have hnat : (BitVec.ofNat 64 v).toNat = v := Nat.mod_eq_of_lt hv
  refine ⟨by rw [bitsOf_eq_div_mod, hnat], by rw [bitsOf_eq_div_mod, hnat, Nat.pow_zero, Nat.div_one], by rw [BitVec.getLsbD, hnat]⟩

/-- R44: while STOPPED a word in range is stored. -/
theorem writeTv_stopped {s : State} {r v : Nat} (l : Nat) (hv : v < 2 ^ 64) (hstopped : (region s r).state = 0)
    (hstart : v / 2 ^ 16 % 2 ^ 16 < winL s r) (hgap : v % 2 ^ 16 ≤ winL s r) :
    writeTv s r l v = (0, modTv s r l (fun _ => tvOfWord (BitVec.ofNat 64 v))) := by
  obtain ⟨hs, hg, -⟩ := tvState_fields hv
  simp only [writeTv, hs, hg]
  rw [if_pos hstopped, if_neg (by omega)]

/-- R44: while STOPPED a word with START or GAP out of range is refused with OUT_OF_RANGE. -/
theorem writeTv_outOfRange {s : State} {r v : Nat} (l : Nat) (hv : v < 2 ^ 64) (hstopped : (region s r).state = 0)
    (hrange : winL s r ≤ v / 2 ^ 16 % 2 ^ 16 ∨ winL s r < v % 2 ^ 16) : writeTv s r l v = (4, s) := by
  obtain ⟨hs, hg, -⟩ := tvState_fields hv
  simp only [writeTv, hs, hg]
  rw [if_pos hstopped, if_pos hrange]

/-- R44: of a region that is not STOPPED a word with STALLED set is answered UNIT_RUNNING. -/
theorem writeTv_runs_stalled {s : State} {r v : Nat} (l : Nat) (hv : v < 2 ^ 64) (hruns : (region s r).state ≠ 0)
    (hstalled : v.testBit 62 = true) : writeTv s r l v = (3, s) := by
  obtain ⟨-, -, hbit⟩ := tvState_fields hv
  simp only [writeTv, hbit]
  rw [if_neg hruns, if_pos hstalled]

/-- R44: of such a region a word with STALLED clear clears STALLED alone, and the next move may start. -/
theorem writeTv_runs_clears {s : State} {r v : Nat} (l : Nat) (hv : v < 2 ^ 64) (hruns : (region s r).state ≠ 0)
    (hstalled : v.testBit 62 = false) : writeTv s r l v = (0, maybeMove (modTv s r l (fun t => { t with stalled := false })) r l) := by
  obtain ⟨-, -, hbit⟩ := tvState_fields hv
  simp only [writeTv, hbit]
  rw [if_neg hruns, if_neg (by simp [hstalled])]

/-- Settles O15: the writes pass at their rows, and what they do is read off the state of the region and the word's fields. -/
theorem region_control_commands : Obligations.Region_control_commands := by
  unfold Obligations.Region_control_commands
  intro s mid r hp hm h
  have henable : exec (.regionEnable mid r) s = .next (okWrite (enableRegion s r) mid (0x2000 + r) 0x01) :=
    gate_regionEnable hp hm h (v := 1) le_rfl
  have hdisable : exec (.regionDisable mid r) s = .next (okWrite (disableRegion s r) mid (0x2000 + r) 0x01) :=
    gate_regionEnable hp hm h (v := 0) (Nat.zero_le 1)
  refine ⟨fun hstopped hpass => ?runs, fun hstopped hfail => ?refused, fun hrun => ?again, fun hdrain => ?draining, fun hrun => ?drains,
    exec_regionStopped hp, fun v l hv hl => ?tvState⟩
  case runs => rw [henable, enableRegion_passes hstopped hpass]
  case refused => rw [henable, enableRegion_refused hstopped hfail]
  case again => rw [henable, enableRegion_running hrun]
  case draining => rw [henable, enableRegion_draining hdrain]
  case drains => rw [hdisable, disableRegion_running hrun]
  case tvState =>
    subst hl
    have hwrite : exec (.tvStateWrite mid r v) s = _ := gate_tvState hp hm h hv
    refine ⟨fun hstopped hstart hgap => ?stored, fun hstopped hrange => ?outOfRange, fun hruns hstalled => ?stalled, fun hruns hstalled => ?clears⟩
    case stored => rw [hwrite, writeTv_stopped _ hv hstopped hstart hgap]; rfl
    case outOfRange => rw [hwrite, writeTv_outOfRange _ hv hstopped hrange]; rfl
    case stalled => rw [hwrite, writeTv_runs_stalled _ hv hruns hstalled]; rfl
    case clears => rw [hwrite, writeTv_runs_clears _ hv hruns hstalled]; rfl

end Sys2Proof.Machine
end

section
/-! PROOFS. Gap moves that commit, hold windows that end, and suspensions (R46, R123, R132, R133, R340). -/

open Sys2Proof.Claims
namespace Sys2Proof.Machine

/-! ### Gap moves (R46) -/

/-- R46 step 4: a move that has no context left and whose pages are programmed commits. -/
theorem exec_gapMoveCommit {s : State} {r lun : Nat} {m : Move} (hp : s.ao.portsUp = true) (hm : moveOf s r lun = some m)
    (hstage : m.stage = 4) (hctx : m.ctx = none) :
    let sg := afterMove (winL s r) (tvOf s r lun).start (tvOf s r lun).gap
    exec (.gapMoveCommit r lun) s = .next (
      let a := remapOpen (modTv s r lun (fun t => { t with moving := false, start := sg.1, gap := sg.2 })) r lun
      let b := count a (0x2000 + r) 0x14
      let c := cairn b 0x18 (cu 12 lun) r 0 0 (sg.1 * 65536 + sg.2) (od b (0x2000 + r) 0x14) 0
      testMoves (releaseMoves { c with moves := c.moves.filter (fun x => ¬ (x.region = r ∧ x.lun = lun)) }) lun) := by
  obtain ⟨rfl, rfl⟩ : m.region = r ∧ m.lun = lun := by simpa using List.find?_some hm
  show execGapMoveCommit m.region m.lun s = _
  simp only [execGapMoveCommit, hm]
  rw [gate_up hp, if_pos hstage]
  simp only [commitMove, hctx]
  rfl

/-! ### Hold windows and suspensions (R123, R132, R133, R340) -/

section
variable {s : State} {l : Nat} (hp : s.ao.portsUp = true)
include hp

/-- R132: the time an erase or a program has to run undisturbed is over. -/
theorem exec_resumeRunElapsed (hbusy : (∃ pl b, (lunOf s l).busy = .erase pl b) ∨ ∃ us pl b, (lunOf s l).busy = .program us pl b) :
    exec (.resumeRunElapsed l) s = .next (judgeWaiting (modLun s l (fun x => { x with runOk := true })) l) := by
  show execResumeRunElapsed l s = _
  rw [execResumeRunElapsed, gate_up hp]
  obtain ⟨pl, b, h⟩ | ⟨us, pl, b, h⟩ := hbusy <;> simp only [h]

/-- R340: a suspension that a poll has shown is observed, and the reads that joined are served. -/
theorem exec_suspendObserved {u : Susp} (hsusp : (lunOf s l).susp = some u) (hobs : u.observed = false) (hshown : u.shown = true) :
    exec (.suspendObserved l) s = .next (climbWaiting (modLun s l (fun x =>
      { x with susp := some { u with observed := true, issueUs := x.issueUs, ranUs := x.ranUs + (s.ao.timeUs - x.startUs) },
               suspended := some x.busy, busy := .idle })) l) := by
  show execSuspendObserved l s = _
  simp only [execSuspendObserved, hsusp]
  rw [gate_up hp, if_neg (by simp [hobs, hshown])]

/-- R340: a suspension no poll has shown stays as it is. -/
theorem exec_suspendObserved_unshown {u : Susp} (hsusp : (lunOf s l).susp = some u) (hshown : u.shown = false) :
    exec (.suspendObserved l) s = .next s := by
  show execSuspendObserved l s = _
  simp only [execSuspendObserved, hsusp]
  rw [gate_up hp, if_pos (by simp [hshown])]

/-- R133: the end of its window changes the suspension alone. -/
theorem exec_suspendWindowExpiry {u : Susp} (hsusp : (lunOf s l).susp = some u) :
    ∃ t, exec (.suspendWindowExpiry l) s = .next t ∧ (lunOf t l).susp = some { u with windowOpen := false }
      ∧ t = { s with luns := t.luns } ∧ (∀ j, j ≠ l → lunOf t j = lunOf s j) := by
  refine ⟨_, gate_up hp _, ?_, rfl, fun j => lunOf_modLun_other s l j _⟩
  rw [lunOf_modLun, hsusp]
  rfl

/-- R133, R340: an operation that can be resumed is resumed at its turn on the port. -/
theorem exec_resumeIssue {u : Susp} (hsusp : (lunOf s l).susp = some u) (hready : resumeReady s l = true)
    (hturn : portTurn s l (suspendedClass s l) u.no = true) :
    exec (.resumeIssue l) s = .next (resumeLun (tookTurn s l (suspendedClass s l)) l) := by
  show execResumeIssue l s = _
  simp only [execResumeIssue, hsusp]
  rw [gate_up hp, if_pos ⟨hready, hturn⟩]

end

/-- R133: an observed suspension can end once every read that joined is done, no ladder left on the LUN. -/
theorem resumeReady_of_reads_done {s : State} {l : Nat} {u : Susp} (hsusp : (lunOf s l).susp = some u) (hobs : u.observed = true)
    (hidle : (lunOf s l).busy = .idle) (hrail : railDown s = false) (hladder : (lunOf s l).ladder = none)
    (hreads : ∀ c ∈ u.reads, dieDone s l c = true) : resumeReady s l = true := by
  simpa [resumeReady, hsusp, hobs, hidle, hrail, hladder] using hreads

/-- R365: once the rail is down a suspended program is resumed as soon as its LUN is free, an erase is not. -/
theorem resumeReady_of_railDown {s : State} {l : Nat} {u : Susp} (hsusp : (lunOf s l).susp = some u) (hobs : u.observed = true)
    (hidle : (lunOf s l).busy = .idle) (hrail : railDown s = true) (herase : eraseSuspended (lunOf s l) = false) : resumeReady s l = true := by
  simp [resumeReady, hsusp, hobs, hidle, hrail, herase]

/-- Settles O26: a move's region and LUN are those it is found by, and what can be resumed is resumed at its turn. -/
theorem moves_holds_suspends_and_resumes : Obligations.Moves_holds_suspends_and_resumes := by
  unfold Obligations.Moves_holds_suspends_and_resumes
  refine ⟨fun s r lun m hp => exec_gapMoveCommit hp, fun s l e hp => ⟨gate_up hp _, fun pl b hb => exec_resumeRunElapsed hp (.inl ⟨pl, b, hb⟩),
    fun us pl b hb => exec_resumeRunElapsed hp (.inr ⟨us, pl, b, hb⟩), fun u => exec_suspendObserved hp,
    fun u hsusp _ hshown => exec_suspendObserved_unshown hp hsusp hshown, fun u => exec_suspendWindowExpiry hp,
    fun u hsusp hobs hidle hturn => ⟨fun hrail hladder hreads => ?done, fun hrail herase => ?railDown⟩⟩⟩
  case done => exact exec_resumeIssue hp hsusp (resumeReady_of_reads_done hsusp hobs hidle hrail hladder hreads) hturn
  case railDown => exact exec_resumeIssue hp hsusp (resumeReady_of_railDown hsusp hobs hidle hrail herase) hturn

end Sys2Proof.Machine
end

section
/-! PROOFS. What the two resets clear and keep, their releases, and the self-tests of the log and the ports (R444, R446, R447). -/

open Sys2Proof.Claims
namespace Sys2Proof.Machine

/-! ### Sparse maps whose keys pass a test -/

theorem SMap.get_filterKeys_kept {α : Type} (m : SMap α) (p : Nat → Bool) (d : α) {k : Nat} (h : p k = true) :
    (m.filterKeys p).get d k = m.get d k := by
  obtain ⟨l⟩ := m
  show SMap.find d (l.filter (fun e => p e.1)) k = SMap.find d l k
  induction l with
  | nil => rfl
  | cons e l ih =>
    by_cases he : e.1 = k
    · simp [SMap.find, he, h]
    · by_cases hp : p e.1 = true <;> simp [SMap.find, he, hp, ih]

theorem SMap.get_filterKeys_dropped {α : Type} (m : SMap α) (p : Nat → Bool) (d : α) {k : Nat} (h : p k = false) :
    (m.filterKeys p).get d k = d := by
  obtain ⟨l⟩ := m
  show SMap.find d (l.filter (fun e => p e.1)) k = d
  induction l with
  | nil => rfl
  | cons e l ih =>
    by_cases hp : p e.1 = true
    · have he : e.1 ≠ k := fun he => by simp [← he, hp] at h
      simp [SMap.find, he, hp, ih]
    · simp [hp, ih]

/-! ### Entries after block reset (R408, R446) -/

/-- R446: the entries block reset keeps, by index and subindex. -/
theorem keptEntry_odKey (i : Nat) {sub : Nat} (hs : sub < 256) : keptEntry (odKey i sub) = true ↔
    (i = 0x1000 ∧ sub = 0x03) ∨ (i = 0x1200 ∧ (sub = 0x07 ∨ sub = 0x08))
      ∨ (i = 0x9100 ∧ sub ≠ 0x14 ∧ sub ≠ 0x15 ∧ sub ≠ 0x19) := by
  simp only [keptEntry, Bool.or_eq_true, Bool.and_eq_true, decide_eq_true_eq]
  unfold odKey
  omega

theorem oldestSeq_eq (s : State) : oldestSeq s = (s.ao.log.head?.map recSeq).getD s.ao.nextSeq := by
  unfold oldestSeq
  cases s.ao.log <;> rfl

/-- R408: PORT_SEQ, the one entry block reset writes, is that of the oldest record kept. -/
theorem od_blockReset_portSeq (s : State) : od (blockReset s) 0x9200 0x02 = (s.ao.log.head?.map recSeq).getD s.ao.nextSeq :=
  (od_setOd _ _ _ _).trans (oldestSeq_eq _)

section
variable (s : State) {i sub : Nat} (hs : sub < 256) (hport : ¬ (i = 0x9200 ∧ sub = 0x02))
include hs hport

theorem od_blockReset_kept (hkept : keptEntry (odKey i sub) = true) : od (blockReset s) i sub = od s i sub :=
  (od_setOd_other _ _ _ _ _ _ fun h => hport (Prod.mk.inj (odKey_inj (by decide) hs h))).trans (SMap.get_filterKeys_kept _ _ _ hkept)

theorem od_blockReset_cleared (hcleared : keptEntry (odKey i sub) = false) : od (blockReset s) i sub = od State.reset i sub :=
  (od_setOd_other _ _ _ _ _ _ fun h => hport (Prod.mk.inj (odKey_inj (by decide) hs h))).trans (SMap.get_filterKeys_dropped _ _ _ hcleared)

end

/-! ### The block reset counted (R450) -/

/-- R450, log entry 40: the state after BLOCK_RESET, counted while AO_RST_N is released. -/
def blockResetCounted (s : State) : State :=
  if s.ao.inAoReset then blockReset s else count (setOd (blockReset s) 0x1200 0x07 2) 0x1200 0x08

theorem exec_blockReset (s : State) : exec .blockReset s = .next (blockResetCounted s) := rfl

theorem blockResetCounted_changes_od_only (s : State) :
    blockResetCounted s = { blockReset s with od := (blockResetCounted s).od } := by
  unfold blockResetCounted
  split
  · rfl
  · rw [count, countBy_changes_od_only]; rfl

/-- Counting it touches RESET_CAUSE and BLOCK_RESETS alone. -/
theorem od_blockResetCounted_other (s : State) {i sub : Nat} (hs : sub < 256) (h : ¬ (i = 0x1200 ∧ (sub = 0x07 ∨ sub = 0x08))) :
    od (blockResetCounted s) i sub = od (blockReset s) i sub := by
  unfold blockResetCounted
  split
  · rfl
  · have hkey : ∀ u, u = 0x07 ∨ u = 0x08 → odKey i sub ≠ odKey 0x1200 u := fun u hu hk => by
      obtain ⟨hi, rfl⟩ := Prod.mk.inj (odKey_inj (by omega) hs hk)
      exact h ⟨hi, hu⟩
    rw [count, od_countBy_other _ _ _ _ _ _ (hkey _ (.inr rfl)), od_setOd_other _ _ _ _ _ _ (hkey _ (.inl rfl))]

/-- R450: RESET_CAUSE reads a block reset, and BLOCK_RESETS, a U32 counter, has risen. -/
theorem od_blockResetCounted_counts {s : State} (h : s.ao.inAoReset = false) : od (blockResetCounted s) 0x1200 0x07 = 2
    ∧ od (blockResetCounted s) 0x1200 0x08 = min (od s 0x1200 0x08 + 1) (2 ^ 32 - 1) := by
  have hresets : od (setOd (blockReset s) 0x1200 0x07 2) 0x1200 0x08 = od s 0x1200 0x08 :=
    (od_setOd_other _ _ _ _ _ _ (by decide)).trans (od_blockReset_kept s (by decide) (by decide) (by decide))
  have hrow : odRow 0x1200 0x08 = some ⟨8, 8, .u32, .ro, 0, 0, 4294967295⟩ := rfl
  rw [blockResetCounted, h, if_neg Bool.false_ne_true, count]
  refine ⟨?_, ?_⟩
  · rw [od_countBy_other _ _ _ _ _ _ (by decide), od_setOd]
  · rw [countBy, hresets, hrow]
    exact (od_setOd _ _ _ _).trans (Nat.min_def ..).symm

/-- Log entry 40: under AO_RST_N neither changes. -/
theorem od_blockResetCounted_uncounted {s : State} (h : s.ao.inAoReset = true) : od (blockResetCounted s) 0x1200 0x07 = od s 0x1200 0x07
    ∧ od (blockResetCounted s) 0x1200 0x08 = od s 0x1200 0x08 := by
  rw [blockResetCounted, h, if_pos rfl]
  exact ⟨od_blockReset_kept s (by decide) (by decide) (by decide), od_blockReset_kept s (by decide) (by decide) (by decide)⟩

/-! ### Ports and self-tests (R432, R445, R447) -/

/-- R432, R445: what falls on the ports, one by one. -/
theorem portsFall_eq (s : State) : portsFall s = (if s.ao.pf = .halted then [PortOut.halted false] else [])
    ++ ((if od s 0x8011 0x01 = 1 then [.linkEnable 1 false] else []) ++ ((if od s 0x8010 0x01 = 1 then [.linkEnable 0 false] else []) ++ s.sent)) := by
  by_cases h1 : od s 0x8011 0x01 = 1 <;> by_cases h0 : od s 0x8010 0x01 = 1 <;> simp [portsFall, h0, h1]

/-- R447: the log's self-test ends once AO_RST_N is released. -/
theorem exec_selfTestDone_log {s : State} (ha : s.ao.inAoReset = false) (pass : Bool) :
    exec (.selfTestDone .log pass) s = .next (selfTested s .log pass) := by
  show execSelfTestDone .log pass s = _
  rw [execSelfTestDone, ha, if_neg Bool.false_ne_true]

/-- R376, R447: the self-test of the ports brings them up, and the key store engine's STATUS is read first. -/
theorem exec_selfTestDone_ports {s : State} (ha : s.ao.inAoReset = false) (hb : s.ao.inBlkReset = false) (hp : s.ao.portsUp = false) :
    exec (.selfTestDone .ports true) s
      = .next (emit { modAo s (fun a => { a with portsUp := true }) with keyFirst := true } (.key false 0x18 0 (keyClient s))) := by
  show execSelfTestDone .ports true s = _
  simp [execSelfTestDone, ha, hb, selfTested, hp]

/-- Settles O46: block reset keeps an entry or leaves it at its default by its key, counting it touches two entries more, and
every other part of the state is set as the reset declares it. -/
theorem resets_clear_all_but_what_survives : Obligations.Resets_clear_all_but_what_survives := by
  unfold Obligations.Resets_clear_all_but_what_survives
  intro s fell
  have hfell : portsFall s = fell := portsFall_eq s
  refine ⟨?aoReset, ⟨blockResetCounted s, exec_blockReset s, ?block, ?ao, ?kept, fun sub hs h14 h15 h19 => ?log, fun sub hsub => ?nonce, ?portSeq,
    fun i sub hs hlog hinst hresets hport => ?cleared, od_blockResetCounted_counts, od_blockResetCounted_uncounted⟩, rfl, rfl,
    fun ha => ⟨exec_selfTestDone_log ha, exec_selfTestDone_ports ha⟩⟩
  case aoReset => rw [← hfell]; rfl
  case block => rw [blockResetCounted_changes_od_only, ← hfell]; rfl
  case ao => rw [blockResetCounted_changes_od_only]; rfl
  case kept =>
    rw [od_blockResetCounted_other s (by decide) (by decide), od_blockReset_kept s (by decide) (by decide) (by decide)]
  case log =>
    rw [od_blockResetCounted_other s hs (by omega), od_blockReset_kept s hs (by omega) ((keptEntry_odKey _ hs).2 (by omega))]
  case nonce =>
    have hs : sub < 256 := by omega
    rw [od_blockResetCounted_other s hs (by omega),
      od_blockReset_cleared s hs (by omega) (Bool.eq_false_iff.2 fun h => by have := (keptEntry_odKey _ hs).1 h; omega)]
  case portSeq => rw [od_blockResetCounted_other s (by decide) (by decide), od_blockReset_portSeq]
  case cleared =>
    rw [od_blockResetCounted_other s hs hresets,
      od_blockReset_cleared s hs hport (Bool.eq_false_iff.2 fun h => by have := (keptEntry_odKey _ hs).1 h; omega)]

end Sys2Proof.Machine
end

section
/-! PROOFS. Fetch turns and the responses to fetch reads (R65 to R68, R73). -/

open Sys2Proof.Claims
namespace Sys2Proof.Machine

/-! ### Pieces of a fetch (R426) -/

/-- The entries that some pieces of a fetch bring. -/
def pieceSlots (l : List (Nat × Nat)) : Nat := (l.map (fun p => p.2 / 64)).sum

/-- R426: cutting a transfer brings no more entries than it has bytes for. -/
theorem pieceSlots_fabPieces_le (k a n : Nat) : pieceSlots (fabPieces k a n) ≤ n / 64 := by
  induction k generalizing a n with
  | zero => exact Nat.zero_le _
  | succ k ih =>
    unfold fabPieces
    dsimp only
    split
    · exact Nat.zero_le _
    · split
      · simp [pieceSlots]
      · have h := ih (a + (4096 - a % 4096)) (n - (4096 - a % 4096))
        simp only [pieceSlots, List.map_cons, List.sum_cons] at h ⊢
        omega

/-- R426: a transfer of whole entries, from an entry's address on, is cut into pieces that bring them all. -/
theorem pieceSlots_fabPieces {k a n : Nat} (ha : a % 64 = 0) (hn : n % 64 = 0) (hlen : n ≤ 4096 * k + (4096 - a % 4096)) :
    pieceSlots (fabPieces (k + 1) a n) = n / 64 := by
  induction k generalizing a n with
  | zero =>
    unfold fabPieces
    split
    · next h => subst h; rfl
    · rw [if_pos (by omega)]; simp [pieceSlots]
  | succ k ih =>
    unfold fabPieces
    dsimp only
    split
    · next h => subst h; rfl
    · split
      · simp [pieceSlots]
      · have h := ih (a := a + (4096 - a % 4096)) (n := n - (4096 - a % 4096)) (by omega) (by omega) (by omega)
        simp only [pieceSlots, List.map_cons, List.sum_cons] at h ⊢
        omega

theorem pieceSlots_append (l r : List (Nat × Nat)) : pieceSlots (l ++ r) = pieceSlots l + pieceSlots r := by
  simp [pieceSlots]

/-- R67: the reads of n slots bring no more than n entries. -/
theorem pieceSlots_fetchReads_le (s : State) (q i n : Nat) : pieceSlots (fetchReads s q i n) ≤ n := by
  unfold fetchReads
  dsimp only
  have h1 := pieceSlots_fabPieces_le 3 (qOd s q 0x04 + i % 2 ^ qOd s q 0x05 * 64) (min n (2 ^ qOd s q 0x05 - i % 2 ^ qOd s q 0x05) * 64)
  have h2 := pieceSlots_fabPieces_le 3 (qOd s q 0x04) ((n - min n (2 ^ qOd s q 0x05 - i % 2 ^ qOd s q 0x05)) * 64)
  rw [pieceSlots_append]
  omega

/-- R67: the reads of up to 16 slots of a ring whose base is a multiple of 4,096 bring them all. -/
theorem pieceSlots_fetchReads {s : State} {q n : Nat} (i : Nat) (hbase : qOd s q 0x04 % 4096 = 0) (hn : n ≤ 16) :
    pieceSlots (fetchReads s q i n) = n := by
  unfold fetchReads
  dsimp only
  generalize i % 2 ^ qOd s q 0x05 = s0
  generalize 2 ^ qOd s q 0x05 - s0 = r
  rw [pieceSlots_append, pieceSlots_fabPieces (by omega) (by omega) (by omega), pieceSlots_fabPieces (by omega) (by omega) (by omega)]
  omega

/-! ### Fetch reads (R67) -/

/-- The queue whose entries a piece brings. -/
theorem queue_fetchPiece (q : Nat) (s : State) (p : Nat × Nat) : queue (fetchPiece q s p) q = { queue s q with
    fetch := ((queue s q).fetch + p.2 / 64) % 65536, nextRd := (queue s q).nextRd + 1,
    ents := (queue s q).ents ++ (List.range (p.2 / 64)).map (fun j =>
      ({ idx := ((queue s q).fetch + j) % 65536, rd := (queue s q).nextRd, place := (Config.freePick s.free + j) % 32768 } : Ent)) } :=
  queue_modQueue _ _ _

theorem queue_fetchPiece_other {q j : Nat} (s : State) (p : Nat × Nat) (h : j ≠ q) : queue (fetchPiece q s p) j = queue s j :=
  queue_modQueue_other _ _ _ _ h

/-- The state once the entries of some pieces have been asked for. -/
def fetched (s : State) (q : Nat) (l : List (Nat × Nat)) : State := l.foldl (fetchPiece q) s

/-- Pieces change the queues, the fabric port and what goes out on it. -/
theorem fetched_changes (s : State) (q : Nat) (l : List (Nat × Nat)) : ∃ queues fab free sent,
    fetched s q l = { s with queues := queues, fab := fab, free := free, sent := sent } := by
  induction l generalizing s with
  | nil => exact ⟨_, _, _, _, rfl⟩
  | cons p l ih =>
    obtain ⟨queues, fab, free, sent, h⟩ := ih (fetchPiece q s p)
    exact ⟨queues, fab, free, sent, h⟩

theorem queue_fetched_other {q j : Nat} (s : State) (l : List (Nat × Nat)) (h : j ≠ q) : queue (fetched s q l) j = queue s j :=
  foldl_keeps (fun s => queue s j) (fetchPiece q) (fun s p => queue_fetchPiece_other s p h) l s

/-- What pieces leave of their queue, and the entries they add. -/
theorem queue_fetched (s : State) (q : Nat) (l : List (Nat × Nat)) :
    (queue (fetched s q l) q).doorbell = (queue s q).doorbell ∧ (queue (fetched s q l) q).done = (queue s q).done
      ∧ (queue (fetched s q l) q).state = (queue s q).state
      ∧ (queue (fetched s q l) q).ents.length = (queue s q).ents.length + pieceSlots l := by
  induction l generalizing s with
  | nil => exact ⟨rfl, rfl, rfl, rfl⟩
  | cons p l ih =>
    obtain ⟨hbell, hdone, hstate, hents⟩ := ih (fetchPiece q s p)
    rw [queue_fetchPiece] at hbell hdone hstate hents
    refine ⟨hbell, hdone, hstate, hents.trans ?_⟩
    simp [pieceSlots, Nat.add_assoc]

/-- FETCH passes the entries that pieces bring. -/
theorem fetch_fetched (s : State) (q : Nat) (l : List (Nat × Nat)) : (queue (fetched s q l) q).fetch
    = if l = [] then (queue s q).fetch else ((queue s q).fetch + pieceSlots l) % 65536 := by
  induction l generalizing s with
  | nil => rfl
  | cons p l ih =>
    have h := ih (fetchPiece q s p)
    rw [queue_fetchPiece] at h
    rw [if_neg (List.cons_ne_nil p l)]
    refine Eq.trans h ?_
    have hsum : pieceSlots (p :: l) = p.2 / 64 + pieceSlots l := rfl
    split
    · next hl => subst hl; rw [hsum]; rfl
    · rw [hsum]; dsimp only; omega

/-! ### Turns (R66, R67) -/

/-- A fold that keeps its choice or takes the element it looks at chooses an element of its list. -/
theorem mem_of_foldl_choice {α : Type} {f : Option α → α → Option α} (hf : ∀ b x, f b x = some x ∨ f b x = b) {l : List α} {b : Option α} {y : α}
    (h : l.foldl f b = some y) : y ∈ l ∨ b = some y := by
  induction l generalizing b with
  | nil => exact .inr h
  | cons x l ih =>
    rcases ih h with hl | hx
    · exact .inl (List.mem_cons_of_mem _ hl)
    · rcases hf b x with hf | hf <;> rw [hf] at hx
      · exact .inl (List.mem_cons.2 (.inl (Option.some.inj hx).symm))
      · exact .inr hx

/-- R67: the queue whose turn it is has credit and is eligible. -/
theorem turnQueue_eligible {s : State} {q : Nat} (h : turnQueue s = some q) :
    0 < (creditOf s q).1 ∧ eligible s q (creditOf s q).2 = true := by
  refine (mem_of_foldl_choice (fun b x => ?choice) h).elim (fun hmem => ?mem) (fun hnone => nomatch hnone)
  case mem => simpa using (List.mem_filter.1 hmem).2
  case choice =>
    cases b with
    | none => exact .inl rfl
    | some b => exact ite_eq_or_eq _ _ _

/-- The entries a queue's turn asks for (R67). -/
def turnCount (s : State) (q : Nat) : Nat := min (min (creditOf s q).2 (creditOf s q).1) (qRoom s q (creditOf s q).2)

/-- R66: the turn of an eligible queue with credit brings an entry. -/
theorem turnCount_pos {s : State} {q : Nat} (h : turnQueue s = some q) : 0 < turnCount s q := by
  obtain ⟨hcredit, helig⟩ := turnQueue_eligible h
  have hroom : 0 < qRoom s q (creditOf s q).2 := by simp [eligible] at helig; exact helig.1.1.1.2
  have hburst : 0 < (creditOf s q).2 := by unfold qRoom at hroom; dsimp only at hroom; omega
  unfold turnCount
  omega

/-- The reads of a queue's turn. -/
def turnReads (s : State) (q : Nat) : List (Nat × Nat) := fetchReads s q (queue s q).fetch (turnCount s q)

/-- R67: the state once a turn has asked for its entries, taken their credit and moved the search on. -/
def turned (s : State) (q : Nat) : State :=
  { setCredit (fetched s q (turnReads s q)) q ((creditOf s q).1 - turnCount s q) with arbNext := (q + 1) % 4096 }

theorem fetchTurn_eq (s : State) (q : Nat) : fetchTurn s q = poolPeak (turned s q) := rfl

theorem poolPeak_changes (s : State) : ∃ od, poolPeak s = { s with od := od } := by
  unfold poolPeak
  split <;> exact ⟨_, rfl⟩

theorem queue_fetchTurn (s : State) (q j : Nat) : queue (fetchTurn s q) j = queue (fetched s q (turnReads s q)) j := by
  obtain ⟨od, h⟩ := poolPeak_changes (turned s q)
  exact queue_congr _ _ j (by rw [fetchTurn_eq, h]; rfl)

/-- R67: the turn's entries are taken from its credit. -/
theorem creditOf_fetchTurn (s : State) (q : Nat) : (creditOf (fetchTurn s q) q).1 = (creditOf s q).1 - turnCount s q := by
  obtain ⟨od, h⟩ := poolPeak_changes (turned s q)
  rw [fetchTurn_eq, h]
  simp only [turned, setCredit, creditOf, List.find?_cons_of_pos, decide_true]

theorem arbNext_fetchTurn (s : State) (q : Nat) : (fetchTurn s q).arbNext = (q + 1) % 4096 := by
  obtain ⟨od, h⟩ := poolPeak_changes (turned s q)
  rw [fetchTurn_eq, h]
  rfl

/-- What a turn does not name stays (R67). -/
theorem fetchTurn_changes (s : State) (q : Nat) : fetchTurn s q = { s with
    queues := (fetchTurn s q).queues, od := (fetchTurn s q).od, fab := (fetchTurn s q).fab, free := (fetchTurn s q).free,
    sent := (fetchTurn s q).sent, credit := (fetchTurn s q).credit, arbNext := (fetchTurn s q).arbNext } := by
  obtain ⟨od, hpeak⟩ := poolPeak_changes (turned s q)
  obtain ⟨queues, fab, free, sent, hfetched⟩ := fetched_changes s q (turnReads s q)
  rw [fetchTurn_eq, hpeak, turned, setCredit, hfetched]

/-- In an open round a turn is that of the queue whose turn it is. -/
theorem exec_fetchTurn {s : State} {q : Nat} (hp : s.ao.portsUp = true) (hopen : s.roundOpen = true) (hturn : turnQueue s = some q) :
    exec .fetchTurn s = .next (fetchTurn s q) := by
  show execFetchTurn s = _
  rw [execFetchTurn, gate_up hp, hopen, if_pos rfl]
  dsimp only
  rw [hturn]

/-- Settles O6: the pieces of a turn's reads add up to its count, and each changes its queue and the fabric port alone. -/
theorem fetch_turn_takes_its_share : Obligations.Fetch_turn_takes_its_share := by
  unfold Obligations.Fetch_turn_takes_its_share
  intro s q hp hopen hturn hbase hburst _ _
  have hpos := turnCount_pos hturn
  have hslots : pieceSlots (turnReads s q) = turnCount s q :=
    pieceSlots_fetchReads _ hbase (by unfold turnCount; omega)
  have hreads : turnReads s q ≠ [] := fun h => by rw [h] at hslots; exact absurd hslots.symm hpos.ne'
  have hrun : (queue s q).state = .running := by
    have helig := (turnQueue_eligible hturn).2
    simp [eligible] at helig
    exact helig.1.1.1.1.2
  obtain ⟨hbell, hdone, hstate, hents⟩ := queue_fetched s q (turnReads s q)
  refine ⟨_, _, exec_fetchTurn hp hopen hturn, rfl, hpos, ?fetch, ?ents, ?bell, ?done, ?state, ?credit, ?next, ?others, ?rest⟩
  case fetch => rw [queue_fetchTurn, fetch_fetched, if_neg hreads, hslots]; rfl
  case ents => rw [queue_fetchTurn, hents, hslots]; rfl
  case bell => rw [queue_fetchTurn, hbell]
  case done => rw [queue_fetchTurn, hdone]
  case state => rw [queue_fetchTurn, hstate, hrun]
  case credit => exact creditOf_fetchTurn s q
  case next => exact arbNext_fetchTurn s q
  case others => exact fun j hj => by rw [queue_fetchTurn, queue_fetched_other _ _ hj]
  case rest => exact fetchTurn_changes s q

/-! ### Responses to fetch reads (R67, R73) -/

/-- The answer to a fetch read that is outstanding. -/
theorem exec_entryFetchResponse {s : State} {tag q rd : Nat} {r : FabReq} (h : Due s tag r (.fetch q rd)) (err : Bool) (data : List W512) :
    exec (.entryFetchResponse tag err data) s = .next (fetchAnswer s r q rd err data) := by
  obtain ⟨hp, hreq, hpurpose⟩ := h
  show execEntryFetchResponse tag err data s = _
  rw [execEntryFetchResponse, gate_up hp]
  simp only [hreq, hpurpose]

/-- R67: what a failed fetch read leaves of its queue before it halts. -/
def fetchUndone (x : Queue) (rd : Nat) : Queue := { x with
  ents := x.ents.filter (fun e => decide (e.rd < rd) || decide (e.order ≠ none)),
  fetch := match x.ents.find? (fun e => e.rd = rd) with
    | some e => e.idx
    | none => x.fetch }

/-- R63, R67: a failed fetch read halts a RUNNING queue. -/
theorem queue_fetchFault (s : State) (q rd addr : Nat) : queue (fetchFault s q rd addr) q
    = if (queue s q).state = .running then { fetchUndone (queue s q) rd with state := .halted, cause := 2 } else fetchUndone (queue s q) rd := by
  unfold fetchFault
  dsimp only
  split
  · rw [queue_haltQueue]
    exact congrArg (fun x : Queue => { x with state := .halted, cause := 2 }) (queue_modQueue _ _ _)
  · exact queue_modQueue _ _ _

theorem queue_fetchFault_other {q j : Nat} (s : State) (rd addr : Nat) (h : j ≠ q) : queue (fetchFault s q rd addr) j = queue s j := by
  unfold fetchFault
  dsimp only
  split
  · rw [queue_haltQueue_other _ _ _ _ _ h]
    exact queue_modQueue_other _ _ _ _ h
  · exact queue_modQueue_other _ _ _ _ h

/-- R61: FETCH_FAULT is the one dictionary entry a failed fetch read changes. -/
theorem od_fetchFault (s : State) (q rd addr i sub : Nat) : od (fetchFault s q rd addr) i sub
    = od (setOd s (0x3000 + q) 0x03 (od s (0x3000 + q) 0x03 ||| qerrFetch)) i sub := by
  unfold fetchFault
  dsimp only
  split
  · rw [od_haltQueue]; rfl
  · rfl

/-- Settles O7: the two answers are those of the fetch read, and a fault is read off its queue. -/
theorem fetch_response_fills_or_faults : Obligations.Fetch_response_fills_or_faults := by
  unfold Obligations.Fetch_response_fills_or_faults
  intro s tag q rd r data hdue
  refine ⟨exec_entryFetchResponse hdue false data, fun hrun => ⟨_, exec_entryFetchResponse hdue true data, ?_⟩⟩
  have hq : queue (fetchAnswer s r q rd true data) q = { fetchUndone (queue s q) rd with state := .halted, cause := 2 } := by
    refine (queue_fetchFault (fabTake s r true) q rd r.addr).trans ?_
    rw [queue_fabTake, if_pos hrun]
  rw [hq]
  refine ⟨rfl, rfl, rfl, rfl, ?bit, fun j hj => ?other⟩
  case bit =>
    refine (congrArg (Nat.testBit · 2) (od_fetchFault (fabTake s r true) q rd r.addr _ _)).trans ?_
    rw [od_setOd, Nat.testBit_or, show qerrFetch.testBit 2 = true from rfl, Bool.or_true]
  case other => exact (queue_fetchFault_other _ _ _ hj).trans (queue_fabTake ..)

end Sys2Proof.Machine
end

section
/-! PROOFS. The order of a queue's indices over every command (R54, R57, R63, R67). -/

open Sys2Proof.Claims
namespace Sys2Proof.Machine

/-! ### Distances (R54, R57) -/

/-- An index that has advanced by n stands n further ahead of DONE, short of a whole turn. -/
theorem ahead_add {k d a n : Nat} (hk : k ≤ 15) (h : ahead k d a + n < 2 ^ (k + 1)) : ahead k d ((a + n) % 65536) = ahead k d a + n := by
  have hdvd : 2 ^ (k + 1) ∣ 65536 := Nat.pow_dvd_pow 2 (show k + 1 ≤ 16 by omega)
  unfold ahead at *
  rw [Nat.mod_mod_of_dvd _ hdvd]
  generalize 2 ^ (k + 1) = m at *
  have hm : 0 < m := by omega
  have hd := Nat.mod_lt d hm
  generalize d % m = y at *
  have hsplit : ((a + n) % m + m - y) % m = (a % m + m - y + n) % m := by
    rw [show (a + n) % m + m - y = (a + n) % m + (m - y) by omega, Nat.mod_add_mod, show a % m + m - y + n = a % m + (m - y + n) by omega,
      Nat.mod_add_mod]
    congr 1
    omega
  rw [hsplit, Nat.add_mod, Nat.mod_eq_of_lt (b := m) (a := n) (by omega), Nat.mod_eq_of_lt h]

/-- From an index to one no nearer to DONE it is as far as their distances from DONE differ. -/
theorem dist_eq_ahead_sub {k d a b : Nat} (h : ahead k d a ≤ ahead k d b) :
    (b % 2 ^ (k + 1) + 2 ^ (k + 1) - a % 2 ^ (k + 1)) % 2 ^ (k + 1) = ahead k d b - ahead k d a := by
  unfold ahead at *
  have hm := Nat.two_pow_pos (k + 1)
  generalize 2 ^ (k + 1) = m at *
  have ha := Nat.mod_lt a hm
  have hb := Nat.mod_lt b hm
  have hd := Nat.mod_lt d hm
  rw [ahead_eq m _ _ ha hd, ahead_eq m _ _ hb hd] at h
  rw [ahead_eq m _ _ hb ha, ahead_eq m _ _ ha hd, ahead_eq m _ _ hb hd]
  split at h <;> split at h <;> split <;> omega

theorem ahead_lt (k d a : Nat) : ahead k d a < 2 ^ (k + 1) := Nat.mod_lt _ (Nat.two_pow_pos _)

/-- A queue stays in order when some of the entries rung are fetched (R67). -/
theorem ordered_fetch {k d f b n m : Nat} (h : Ordered k (d, f, b, n)) (hm : m ≤ ahead k d b - ahead k d f) :
    Ordered k (d, (f + m) % 65536, b, n + m) := by
  obtain ⟨hk, hents, hfetch, hbell⟩ := h
  have hlt := ahead_lt k d b
  dsimp only at hents hfetch hbell
  have hadd : ahead k d ((f + m) % 65536) = ahead k d f + m := ahead_add hk (by omega)
  refine ⟨hk, ?_, ?_, hbell⟩ <;> dsimp only <;> omega

/-- A queue stays in order when DOORBELL moves on and not past the ring (R57). -/
theorem ordered_ring {k d f b n v : Nat} (h : Ordered k (d, f, b, n)) (hmore : ahead k d b ≤ ahead k d v) (hfit : ahead k d v ≤ 2 ^ k) :
    Ordered k (d, f, v, n) :=
  ⟨h.1, h.2.1, h.2.2.1.trans hmore, hfit⟩

/-! ### Commands that leave every queue's place -/

/-- A command that meets its meaning only with the ports up keeps the order that its meaning keeps. -/
theorem orderKept_of_gate {s t u : State} {o : Host.Outcome State Fault Refusal} (h : o = .next t) (ho : o = gate s u)
    (hu : OrderKept u s) : OrderKept t s := by
  rw [ho, gate] at h
  obtain rfl := Host.Outcome.next.inj h
  split
  · exact hu
  · exact orderKept_of rfl

/-- A command that is not held to the ports. -/
theorem orderKept_of_next {s t u : State} {o : Host.Outcome State Fault Refusal} (h : o = .next t) (ho : o = .next u)
    (hu : places u.queues = places s.queues) : OrderKept t s :=
  Host.Outcome.next.inj (h.symm.trans ho) ▸ orderKept_of hu

/-- With no queue listed every queue is in order, for any ring a queue was in order for. -/
theorem orderKept_of_empty {s t : State} (h : t.queues = SMap.empty) : OrderKept t s := fun k q ho => by
  rw [h]
  exact ordered_start ho

theorem selfTested_places (s : State) (what : SelfTest) (pass : Bool) : places (selfTested s what pass).queues = places s.queues := by
  cases what <;> unfold selfTested <;> dsimp only <;> (repeat' split) <;> simp

/-- R428: the timeout of a request that is no fetch read. -/
theorem fabricTimeout_orderKept {s t : State} {tag : Nat} (hfail : ¬ FailsFetch s (.fabricTimeout tag)) (h : exec (.fabricTimeout tag) s = .next t) :
    OrderKept t s := by
  refine orderKept_of_gate h rfl ?_
  split
  · exact orderKept_of rfl
  · next r hreq =>
    extract_lets _ s1 _ s2
    have hplaces : places s2.queues = places s.queues := (kept_count s 0x1200 0x02).2.2
    clear_value s2
    split
    · next q rd hp => exact absurd ⟨tag, r, q, rd, hreq, hp, .inl rfl⟩ hfail
    iterate 3 exact orderKept_of (by simp [hplaces])
    · next q i _ => exact orderKept_trans (order_statusAnswer s2 _ q i _) (orderKept_of hplaces)
    all_goals exact orderKept_of (by simp [hplaces])

/-- The commands of which no meaning moves an index of a queue but by a rule that keeps the order whatever the ring's size: all but
doorbells, fetch turns and the failures of fetch reads. -/
theorem exec_orderKept {c : Instr} {s t : State} (hbell : ∀ off len data, c ≠ .doorbellWrite off len data) (hturn : c ≠ .fetchTurn)
    (hfail : ¬ FailsFetch s c) (h : exec c s = .next t) : OrderKept t s := by
  cases c with
  | queueEnable | queueDisable | qerrWrite | watermarkWrite | poolPeakWrite | noticeRingEnable | noticeRingDisable | regionEnable | regionDisable
    | tvStateWrite | poisonRemove | heRemove | linkEnable | linkDisable | mirrorResync | mirrorSynced | mirrorDegrade | load | derive | eraseSlot
    | rearm | imageCmd | spurEnable | spurDisable | ridgeEnable | ridgeDisable | engineFaultedWrite | mboxLockRelease | mboxLockForce | inDataWrite
    | inPost | outAck | rediscover | shutdown | dropPending | idleHintUs | railMinMvWrite | demandPeakWrite | crestlineEnable | portSeqWrite
    | rateWrite | nonceReq | clearCmd | clearKeyIndexWrite | injectEngine | injectMem | tempPeakWrite =>
    exact orderKept_of_gate h rfl (kept_ctlWrite _ _ _ _ _).2.2
  | tread | lineRead | sectorRead | pageRead | gatherLineRead | lineWrite | unitOpen | unitCommit | pageProgram | erase | copyback | scrubRange
    | repairServe | fence | getFeatures | setFeatures | lunGetFeatures | lunSetFeatures | integratorOpcode | holdTimeout | descriptorPop
    | doneWordTimer | doneWordResponse | fenceComplete | noticeRecordResponse | tailWordResponse | messageWriteResponse | msgHoldoffExpiry
    | headWordReread | headWordResponse | regionStopped | gapMoveCommit | busyTimeout | arrayReadDone | slotReceived | readDataWriteResponse
    | holdWindowExpiry | resumeRunElapsed | suspendObserved | suspendPollTimeout | suspendWindowExpiry | resumeIssue | decoderAssign
    | decoderWaitTimeout | outerDecodeDone | thresholdsSet | chaseDecodeDone | stepZeroRestored | talusSync | lineStore | unitCommitted
    | sectorSealed | wlFillExpiry | programStart | unitRelease | eraseCommandIssue | probeResult | scrubStepDue | scrubPageAssessed | helloTimer
    | hello | ack | creditTimeout | replayTimeout | hopDeadline | repairTimeout | lanesDown | keyLockRetry | lockTimeout | keyAccessAck
    | keyAccessTimeout | keyStatusPoll | opTimeout | keyCacheFill | contextTimerExpiry | watchdogExpiry | spareTakeover | spareClockSwitched
    | imageLoadComplete | drainComplete | rejoinDone | mboxLockRead | mailboxTaken | outTimeout | bringupDone | trackingPass | railArmed
    | railWarning | railRecovered | ledgerGrant | admissionResumed | ridgeClosingDone | sequenceComplete | shutdownComplete | recoveryBarrier
    | unitRestore | idleEntry | wake | wakeComplete | idleHintExpiry | frameForward | ringCheck | ringCheckReturn | ringCheckTimeout | lateResponse
    | sensorConversion | sensorFault | readData | reservedKindMessage | discardedFrame | returningFrame =>
    refine orderKept_of_gate h rfl (orderKept_of ?_)
    (repeat' split) <;> simp
  | retireEntry | noticeRecordWrite | portPhaseSelect | dataInSegmentDone | microwordExecute | fullTrainingDone | recordPortSend | memoryError
    | tagVerifyDone =>
    refine orderKept_of_gate h rfl (orderKept_of ?_)
    dsimp only
    (repeat' split) <;> simp
  | doorbellWrite => exact absurd rfl (hbell _ _ _)
  | fetchTurn => exact absurd rfl hturn
  | queueOff => exact orderKept_of_gate h rfl (order_offQueue _ _)
  | statusWriteResponse =>
    refine orderKept_of_gate h rfl ?_
    split
    · exact orderKept_of (by simp)
    · split
      · exact order_statusAnswer _ _ _ _ _
      all_goals exact orderKept_of (by simp)
  | entryFetchResponse tag err data =>
    refine orderKept_of_gate h rfl (orderKept_of ?_)
    split
    · simp
    · next r hreq =>
      split
      · next q rd hp =>
        cases err with
        | false => simp [fetchAnswer]
        | true => exact absurd ⟨tag, r, q, rd, hreq, hp, .inr ⟨data, rfl⟩⟩ hfail
      all_goals simp
  | fabricTimeout tag => exact fabricTimeout_orderKept hfail h
  | statusPoll lun byte =>
    exact orderKept_of_gate h rfl (orderKept_of (kept_dieResult _ _ _ _ (fun t => by
      split
      · exact kept_modLun ..
      · exact kept_pollReady ..)).2.2)
  | programResult lun failMask byte =>
    refine orderKept_of_gate h rfl (orderKept_of ?_)
    have hres := kept_dieResult s lun byte (fun s => programResult s lun failMask byte) (fun t => kept_programResult ..)
    (repeat' split) <;> simp [hres]
  | intentMarkerResult lun byte =>
    refine orderKept_of_gate h rfl (orderKept_of ?_)
    have hres := kept_dieResult s lun byte (fun s => intentResult s lun byte) (fun t => kept_intentResult ..)
    (repeat' split) <;> simp [hres]
  | eraseResult lun failMask byte =>
    refine orderKept_of_gate h rfl (orderKept_of ?_)
    have hres := kept_dieResult s lun byte (fun s => eraseResult s lun failMask byte) (fun t => kept_eraseResult ..)
    (repeat' split) <;> simp [hres]
  | doneMarkerResult lun byte =>
    refine orderKept_of_gate h rfl (orderKept_of ?_)
    have hres := kept_dieResult s lun byte (fun s => doneResult s lun byte) (fun t => kept_doneResult ..)
    (repeat' split) <;> simp [hres]
  | openFrame l flit => exact orderKept_of_gate h rfl (orderKept_of (kept_rxFrame _ _ _ _ _ _ _ _ (kept_openTaken l flit)).2.2)
  | lineFrame l flit => exact orderKept_of_gate h rfl (orderKept_of (kept_rxFrame _ _ _ _ _ _ _ _ (kept_lineTaken l flit)).2.2)
  | commitFrame l flit => exact orderKept_of_gate h rfl (orderKept_of (kept_rxFrame _ _ _ _ _ _ _ _ (kept_commitTaken l flit)).2.2)
  | discardFrame l flit => exact orderKept_of_gate h rfl (orderKept_of (kept_rxFrame _ _ _ _ _ _ _ _ (kept_discardTaken l flit)).2.2)
  | pageFrame l flit data tail =>
    exact orderKept_of_gate h rfl (orderKept_of (kept_rxFrame _ _ _ _ _ _ _ _ (kept_pageData l flit data tail)).2.2)
  | eraseFrame l flit => exact orderKept_of_gate h rfl (orderKept_of (kept_rxFrame _ _ _ _ _ _ _ _ (kept_eraseTaken l flit)).2.2)
  | copyFrame l flit => exact orderKept_of_gate h rfl (orderKept_of (kept_rxFrame _ _ _ _ _ _ _ _ (kept_copyTaken l flit)).2.2)
  | degradeFrame l flit => exact orderKept_of_gate h rfl (orderKept_of (kept_rxFrame _ _ _ _ _ _ _ _ (kept_degradeTaken l flit)).2.2)
  | repairReq l flit => exact orderKept_of_gate h rfl (orderKept_of (kept_rxFrame _ _ _ _ _ _ _ _ (kept_requestTaken l flit)).2.2)
  | repairFrame l flit data tail =>
    exact orderKept_of_gate h rfl (orderKept_of (kept_rxFrame _ _ _ _ _ _ _ _ (kept_repairTaken l flit data tail)).2.2)
  | dictionaryWrite =>
    refine orderKept_of_gate h rfl ?_
    split
    · exact orderKept_of (by simp)
    · exact (kept_ctlWrite _ _ _ _ _).2.2
  | crestRead syms =>
    refine orderKept_of_gate h rfl ?_
    split
    · exact (order_ringRequest _ _ _ (fun t => keeps_order (kept_ringRead t syms))).2.2
    · exact orderKept_of rfl
  | crestWrite syms =>
    refine orderKept_of_gate h rfl ?_
    split
    · exact (order_ringRequest _ _ _ (fun t => kept_ringWrite t syms)).2.2
    · exact orderKept_of rfl
  | selectRead syms =>
    refine orderKept_of_gate h rfl ?_
    split
    · exact (order_ringRequest _ _ _ (fun t => kept_ringSelectRead t syms)).2.2
    · exact orderKept_of rfl
  | cairnRecord | nonceExpiry | clearRemove | clearWaitTimeout | aoResetRelease | blockResetRelease =>
    refine orderKept_of_next h rfl ?_
    (repeat' split) <;> simp
  | railSample =>
    refine orderKept_of_next h rfl ?_
    dsimp only
    (repeat' split) <;> simp
  | selfTestDone what pass =>
    refine orderKept_of_next h rfl ?_
    (repeat' split) <;> simp [selfTested_places]
  | aoReset =>
    obtain rfl := Host.Outcome.next.inj h
    exact orderKept_of_empty rfl
  | blockReset =>
    rw [exec_blockReset, blockResetCounted_changes_od_only] at h
    obtain rfl := Host.Outcome.next.inj h
    exact orderKept_of_empty rfl

/-! ### Doorbells and fetch turns -/

/-- Every queue in order in s is in order in t, for its ring in s. -/
def RingsKept (t s : State) : Prop := ∀ q, Ordered (qOd s q 0x05) (places s.queues q) → Ordered (qOd s q 0x05) (places t.queues q)

theorem ringsKept_of_orderKept {t s : State} (h : OrderKept t s) : RingsKept t s := fun q => h _ q

theorem ringsKept_of_gate {s t u : State} {o : Host.Outcome State Fault Refusal} (h : o = .next t) (ho : o = gate s u) (hu : RingsKept u s) :
    RingsKept t s := by
  rw [ho, gate] at h
  obtain rfl := Host.Outcome.next.inj h
  split
  · exact hu
  · exact fun _ hq => hq

theorem ringsKept_trans_eq {t a s : State} (hq : a.queues = s.queues) (ho : a.od = s.od) (h : RingsKept t a) : RingsKept t s := by
  unfold RingsKept qOd od at *
  rwa [hq, ho] at h

/-- R57: a doorbell that does not overrun keeps its queue in order. -/
theorem ordered_doorbellAfter {s : State} {q v : Nat} (hv : overruns s q v = false) (h : Ordered (qOd s q 0x05) (queue s q).place) :
    Ordered (qOd s q 0x05) ({ queue s q with doorbell := doorbellAfter s q v } : Queue).place := by
  obtain ⟨hfit, hmore⟩ : ahead (qOd s q 0x05) (queue s q).done v ≤ 2 ^ qOd s q 0x05
      ∧ ahead (qOd s q 0x05) (queue s q).done (queue s q).doorbell ≤ ahead (qOd s q 0x05) (queue s q).done v := by
    simp only [overruns, Bool.or_eq_false_iff, decide_eq_false_iff_not, Nat.not_lt] at hv
    exact hv
  unfold doorbellAfter
  split
  · exact h
  · exact ordered_ring h hmore hfit

theorem ringsKept_modDoorbell {s : State} {q v : Nat} (hv : overruns s q v = false) :
    RingsKept (modQueue s q (fun x => { x with doorbell := doorbellAfter s q v })) s := by
  intro u h
  by_cases hu : u = q
  · subst hu
    exact (congrArg (fun x : Queue => Ordered (qOd s u 0x05) x.place) (queue_modQueue s u _)).mpr (ordered_doorbellAfter hv h)
  · exact (congrArg (fun x : Queue => Ordered (qOd s u 0x05) x.place) (queue_modQueue_other s q u _ hu)).mpr h

theorem ringDoorbell_ringsKept (s : State) (q v : Nat) : RingsKept (ringDoorbell s q v) s := by
  unfold ringDoorbell
  split
  · exact ringsKept_of_orderKept (orderKept_of (by simp))
  · split
    · exact ringsKept_of_orderKept (orderKept_of (by simp))
    · next hv =>
      intro u h
      rw [(kept_evalWatermark _ _).2.2]
      exact ringsKept_modDoorbell (Bool.eq_false_iff.2 hv) u h
  all_goals
    split
    · exact ringsKept_of_orderKept (orderKept_of (by simp))
    · next hv => exact ringsKept_modDoorbell (Bool.eq_false_iff.2 hv)

/-- R67: a turn asks for no more than what is rung. -/
theorem pieceSlots_turnReads_le (s : State) (q : Nat) : pieceSlots (turnReads s q) ≤ qRung s q := by
  refine (pieceSlots_fetchReads_le s q _ _).trans ?_
  unfold turnCount qRoom
  dsimp only
  omega

theorem fetchTurn_ringsKept (s : State) (q : Nat) : RingsKept (fetchTurn s q) s := by
  intro u h
  refine (congrArg (fun x : Queue => Ordered (qOd s u 0x05) x.place) (queue_fetchTurn s q u)).mpr ?_
  by_cases hu : u = q
  · subst hu
    obtain ⟨hbell, hdone, -, hents⟩ := queue_fetched s u (turnReads s u)
    have hle := pieceSlots_turnReads_le s u
    have hrung : qRung s u = ahead _ _ (queue s u).doorbell - ahead _ _ (queue s u).fetch := dist_eq_ahead_sub h.2.2.1
    unfold Queue.place
    rw [hbell, hdone, hents, fetch_fetched]
    split
    · next hl => rw [hl]; exact h
    · exact ordered_fetch h (hle.trans hrung.le)
  · rw [queue_fetched_other _ _ hu]
    exact h

/-- A step that does not report a failed fetch read keeps every queue in order for its ring. -/
theorem exec_ringsKept {c : Instr} {s t : State} (hfail : ¬ FailsFetch s c) (h : exec c s = .next t) : RingsKept t s := by
  by_cases hbell : ∃ off len data, c = .doorbellWrite off len data
  · obtain ⟨off, len, data, rfl⟩ := hbell
    refine ringsKept_of_gate h rfl ?_
    split
    · exact ringsKept_of_orderKept (orderKept_of (by simp))
    · split
      · exact ringsKept_of_orderKept (orderKept_of (by simp))
      · exact ringDoorbell_ringsKept _ _ _
  by_cases hturn : c = .fetchTurn
  · subst hturn
    refine ringsKept_of_gate h rfl ?_
    generalize ha : (if s.roundOpen then s else startRound s) = a
    have hround : a.queues = s.queues ∧ a.od = s.od := by subst ha; split <;> exact ⟨rfl, rfl⟩
    dsimp only
    split
    · exact ringsKept_trans_eq hround.1 hround.2 (fetchTurn_ringsKept _ _)
    · have hnext : (startRound { a with arbFirst := (a.arbFirst + 1) % 4096 }).queues = s.queues
          ∧ (startRound { a with arbFirst := (a.arbFirst + 1) % 4096 }).od = s.od := hround
      split
      · exact ringsKept_trans_eq hnext.1 hnext.2 (fetchTurn_ringsKept _ _)
      · exact ringsKept_trans_eq hnext.1 hnext.2 (fun _ hq => hq)
  · exact ringsKept_of_orderKept (exec_orderKept (fun off len data hc => hbell ⟨off, len, data, hc⟩) hturn hfail h)

/-! ### Failed fetch reads -/

/-- Entries in index order from DONE, their reads in order, none of read rd or a later one admitted. -/
def ReadsInOrder (x : Queue) (rd : Nat) : Prop :=
  ∀ (i : Nat) (e : Ent), x.ents[i]? = some e → e.idx = (x.done + i) % 65536 ∧ (rd ≤ e.rd → e.order = none)
    ∧ (∀ (j : Nat) (f : Ent), i ≤ j → x.ents[j]? = some f → e.rd ≤ f.rd)

/-- The index i places from DONE, within the ring's two turns. -/
theorem ahead_place {k d i : Nat} (hk : k ≤ 15) (h : i < 2 ^ (k + 1)) : ahead k d ((d + i) % 65536) = i := by
  have hself : ahead k d d = 0 := by
    unfold ahead
    rw [Nat.add_sub_cancel_left, Nat.mod_self]
  simpa [hself] using ahead_add (k := k) (d := d) (a := d) (n := i) hk (by omega)

/-- R67: FETCH goes back to the first entry of the failed read, and no entry is left from there on. -/
theorem fetchUndone_of_first {x : Queue} {rd i : Nat} {e : Ent} {l r : List Ent} (hin : ReadsInOrder x rd) (hents : x.ents = l ++ e :: r)
    (hlen : l.length = i) (he : e.rd = rd) (hbefore : ∀ f ∈ l, f.rd ≠ rd) :
    (fetchUndone x rd).fetch = (x.done + i) % 65536 ∧ (fetchUndone x rd).ents.length ≤ i := by
  have hat : x.ents[i]? = some e := by rw [hents, ← hlen]; simp
  obtain ⟨hidx, -, hreads⟩ := hin i e hat
  have hfirst : x.ents.find? (fun f => f.rd = rd) = some e := by
    rw [hents, List.find?_append, List.find?_eq_none.2 (by simpa using hbefore)]
    simp [he]
  have hgone : (e :: r).filter (fun f => decide (f.rd < rd) || decide (f.order ≠ none)) = [] := by
    refine List.filter_eq_nil_iff.2 fun f hf => ?_
    obtain ⟨j, hj⟩ := List.mem_iff_getElem?.1 hf
    have hfat : x.ents[i + j]? = some f := by rw [hents, ← hlen, List.getElem?_append_right (Nat.le_add_right _ _), Nat.add_sub_cancel_left, hj]
    have hrd := hreads (i + j) f (by omega) hfat
    simp [(hin _ f hfat).2.1 (by omega)]
    omega
  constructor
  · simp only [fetchUndone, hfirst, hidx]
  · simp only [fetchUndone]
    rw [hents, List.filter_append, hgone, List.append_nil, ← hlen]
    exact List.length_filter_le _ _

/-- A failed fetch read keeps its queue in order (R54, R67). -/
theorem ordered_fetchUndone {k rd : Nat} {x : Queue} (hin : ReadsInOrder x rd) (h : Ordered k x.place) : Ordered k (fetchUndone x rd).place := by
  obtain ⟨hk, hents, hfetch, hbell⟩ := h
  simp only [Queue.place] at hents hfetch hbell
  cases hfirst : x.ents.find? (fun f => f.rd = rd) with
  | none =>
    have hback : (fetchUndone x rd).fetch = x.fetch := by simp only [fetchUndone, hfirst]
    refine ⟨hk, ?_, ?_, hbell⟩ <;> simp only [Queue.place, hback]
    · exact (List.length_filter_le _ _).trans hents
    · exact hfetch
  | some e =>
    obtain ⟨he, l, r, hsplit, hbefore⟩ := List.find?_eq_some_iff_append.1 hfirst
    obtain ⟨hback, hleft⟩ := fetchUndone_of_first hin hsplit rfl (by simpa using he) (by simpa using hbefore)
    have hlen : l.length ≤ x.ents.length := by rw [hsplit]; simp
    have hplace : ahead k x.done ((x.done + l.length) % 65536) = l.length :=
      ahead_place hk (((hlen.trans hents).trans hfetch).trans_lt (ahead_lt k _ _))
    refine ⟨hk, ?_, ?_, hbell⟩ <;> simp only [Queue.place, hback] <;> rw [show (fetchUndone x rd).done = x.done from rfl, hplace]
    · exact hleft
    · exact (hlen.trans hents).trans hfetch

theorem od_fabDrain (s : State) (i sub : Nat) : od (fabDrain s) i sub = od s i sub := by
  unfold fabDrain
  split <;> rfl

/-- Taking an answered request away counts in the fabric's counters alone (R450). -/
theorem od_fabTake_queue (s : State) (r : FabReq) (err : Bool) (q sub : Nat) (hsub : sub < 256) :
    od (fabTake s r err) (0x3000 + q) sub = od s (0x3000 + q) sub := by
  unfold fabTake
  dsimp only
  rw [od_fabDrain]
  split
  · refine od_countBy_other _ _ _ _ _ _ fun h => ?_
    have := congrArg Prod.fst (odKey_inj (by split <;> decide) hsub h)
    dsimp only at this
    omega
  · rfl

/-- A failed fetch read leaves every queue's ring size (R62). -/
theorem od_fetchAnswer_fault (s : State) (r : FabReq) (q rd u : Nat) (data : List W512) :
    od (fetchAnswer s r q rd true data) (0x3000 + u) 0x05 = od s (0x3000 + u) 0x05 := by
  refine (od_fetchFault (fabTake s r true) q rd r.addr _ _).trans ?_
  rw [od_setOd_other _ _ _ _ _ _ fun h => absurd (congrArg Prod.snd (odKey_inj (by decide) (by decide) h)) (show (0x05 : Nat) ≠ 0x03 by decide)]
  exact od_fabTake_queue s r true u 0x05 (by decide)

/-- Every queue stays in order when a fetch read fails. -/
theorem queueOrdered_fetchAnswer {s a : State} {r : FabReq} {q rd : Nat} (data : List W512) (hqueues : a.queues = s.queues)
    (hod : ∀ u, od a (0x3000 + u) 0x05 = od s (0x3000 + u) 0x05) (hin : ReadsInOrder (queue s q) rd) {u : Nat} (h : QueueOrdered s u) :
    QueueOrdered (fetchAnswer a r q rd true data) u := by
  show Ordered (od (fetchAnswer a r q rd true data) (0x3000 + u) 0x05) (queue (fetchFault (fabTake a r true) q rd r.addr) u).place
  rw [od_fetchAnswer_fault, hod]
  have hsame : ∀ j, queue (fabTake a r true) j = queue s j := fun j => by rw [queue_fabTake]; exact queue_congr _ _ _ hqueues
  by_cases hu : u = q
  · subst hu
    rw [queue_fetchFault, hsame]
    split <;> exact ordered_fetchUndone hin h
  · rw [queue_fetchFault_other _ _ _ hu, hsame]
    exact h

/-- R428: the timeout of a fetch read is answered as a failure of it. -/
theorem exec_fabricTimeout_fetch {s : State} {tag q rd : Nat} {r : FabReq} (h : Due s tag r (.fetch q rd)) :
    ∃ a r', exec (.fabricTimeout tag) s = .next (fetchAnswer a r' q rd true []) ∧ a.queues = s.queues ∧ a.od = (count s 0x1200 0x02).od := by
  obtain ⟨hp, hreq, hpurpose⟩ := h
  refine ⟨{ count s 0x1200 0x02 with
    fab := { (count s 0x1200 0x02).fab with
      quarantine := (count s 0x1200 0x02).fab.quarantine ++ [(tag, (count s 0x1200 0x02).ao.timeUs + 4 * od (count s 0x1200 0x02) 0x1200 0x01)] } },
    { r with timedOut := true }, ?_, queues_count .., rfl⟩
  show execFabricTimeout tag s = _
  rw [execFabricTimeout, gate_up hp]
  simp only [hreq, hpurpose]

/-- With no queue listed, a ring of its default size is in order. -/
theorem queueOrdered_reset {q : Nat} (hq : q < 4096) : QueueOrdered State.reset q := by
  have hsize : od State.reset (0x3000 + q) 0x05 = 8 := by
    rw [od_reset _ (by decide), odDefault, if_neg (by omega), if_neg (by omega), odRow, odRows_queue q hq]
    rfl
  show Ordered (od State.reset (0x3000 + q) 0x05) (0, 0, 0, 0)
  rw [hsize]
  exact ⟨by decide, by decide, by decide, by decide⟩

/-- Settles O58: by what each command does to the places of the queues. -/
theorem queue_distances_stay_ordered : Obligations.Queue_distances_stay_ordered := by
  unfold Obligations.Queue_distances_stay_ordered
  refine ⟨fun s t q hstep hfail hsize h => ?steps, fun s t c tag q rd r hdue hc hin hexec u h => ?fault, fun q => queueOrdered_reset⟩
  case steps =>
    show Ordered (od t (0x3000 + q) 0x05) (places t.queues q)
    rw [hsize]
    unfold step at hstep
    split at hstep
    · exact Host.Outcome.next.inj hstep ▸ h
    · next c rest hpending => exact exec_ringsKept (s := { s with pending := rest }) (hfail c (by rw [hpending]; rfl)) hstep q h
  case fault =>
    rcases hc with rfl | ⟨data, rfl⟩
    · obtain ⟨a, r', hnext, hqueues, hod⟩ := exec_fabricTimeout_fetch hdue
      obtain rfl := Host.Outcome.next.inj (hnext.symm.trans hexec)
      refine queueOrdered_fetchAnswer [] hqueues (fun u => ?_) hin h
      rw [od_congr _ _ _ _ hod]
      refine od_countBy_other _ _ _ _ _ _ fun h => ?_
      have := congrArg Prod.fst (odKey_inj (by decide) (by decide) h)
      dsimp only at this
      omega
    · obtain rfl := Host.Outcome.next.inj ((exec_entryFetchResponse hdue true data).symm.trans hexec)
      exact queueOrdered_fetchAnswer data rfl (fun _ => rfl) hin h

end Sys2Proof.Machine
end

section
/-! PROOFS. Counters, doorbells and messages without a request (R55 to R57, R60, R425, R428, R429). -/

open Sys2Proof.Claims
namespace Sys2Proof.Machine

/-! ### Counters -/

/-- The value of a counter of a type once it has been raised to v: it saturates, or wraps as an eight-octet one does. -/
def raised (ty : OdTy) (v : Nat) : Nat :=
  match ty with
  | .u8 => sat 255 v
  | .u16 => sat 65535 v
  | .u32 => sat (2 ^ 32 - 1) v
  | .u64 => v % 2 ^ 64
  | .bool => sat 1 v
  | .octets => v % 2 ^ 64

theorem sat_eq_min (m v : Nat) : sat m v = min v m := (Nat.min_def ..).symm

/-- R60: a counter reads, once raised, what its type leaves of the sum. -/
theorem od_countBy_same {s : State} {i sub : Nat} {r : OdRow} (h : odRow i sub = some r) (n : Nat) :
    od (countBy s i sub n) i sub = raised r.ty (od s i sub + n) := by
  simp only [countBy, h, od_setOd]
  rfl

/-- Settles O50: a counter is raised by its type, and no other entry has its key. -/
theorem counters_saturate_or_wrap_by_their_type : Obligations.Counters_saturate_or_wrap_by_their_type := by
  unfold Obligations.Counters_saturate_or_wrap_by_their_type
  intro s i sub n r hrow
  have hraised {ty : OdTy} (hty : r.ty = ty) : od (countBy s i sub n) i sub = raised ty (od s i sub + n) :=
    hty ▸ od_countBy_same hrow n
  refine ⟨fun h => ?_, fun h => ?_, fun h => ?_, fun h => hraised h, fun j k hs hk hne => ?_⟩
  iterate 3 exact (hraised h).trans (sat_eq_min _ _)
  exact od_countBy_other _ _ _ _ _ _ fun h => hne (odKey_inj hs hk h)

/-! ### Doorbells -/

/-- R56: the low 64 bits of a doorbell's data are its value's, where it is a 16-bit one. -/
theorem bitsOf_doorbell {v : Nat} (h : v < 65536) :
    bitsOf (BitVec.ofNat 128 v) 63 16 = 0 ∧ bitsOf (BitVec.ofNat 128 v) 15 0 = v := by
  simp only [bitsOf, BitVec.extractLsb'_toNat, BitVec.toNat_ofNat, Nat.shiftRight_eq_div_pow]
  omega

/-- A well-formed doorbell write rings its queue (R56). -/
theorem exec_doorbellWrite {s : State} {q v : Nat} (hp : s.ao.portsUp = true) (hq : q < 4096) (hv : v < 65536) :
    exec (.doorbellWrite (8 * q) 8 (BitVec.ofNat 128 v)) s = .next (ringDoorbell s q v) := by
  obtain ⟨hzero, hval⟩ := bitsOf_doorbell hv
  show execDoorbellWrite _ _ _ s = _
  rw [execDoorbellWrite, gate_up hp, if_neg (by omega), if_neg (by omega), hval, Nat.mul_div_cancel_left q (by decide)]

/-- Settles O3: the write rings the queue. -/
theorem doorbell_moves_or_overruns : Obligations.Doorbell_moves_or_overruns := by
  unfold Obligations.Doorbell_moves_or_overruns
  intro s q v hp hq hv
  rw [exec_doorbellWrite hp hq hv]
  unfold ringDoorbell
  cases (queue s q).state <;> rfl

/-- Equal in the low k + 1 bits is equally far from DONE (R54). -/
theorem qDist_congr {s : State} {q d a b : Nat} (h : a % qMod s q = b % qMod s q) : qDist s q d a = qDist s q d b := by
  unfold qDist
  rw [h]

/-- R88: the watermark's evaluation is a matter of QERR and the notices. -/
theorem queues_evalWatermark (s : State) (q : Nat) : (evalWatermark s q).queues = s.queues := by
  unfold evalWatermark
  dsimp only
  split
  · exact queues_queueNotice _ _ _ _ _
  · rfl

/-- Storing the DOORBELL a queue has leaves every queue. -/
theorem queue_modQueue_doorbell {s : State} {q v : Nat} (h : (queue s q).doorbell = v) (j : Nat) :
    queue (modQueue s q (fun x => { x with doorbell := v })) j = queue s j := by
  subst h
  by_cases hj : j = q
  · subst hj; exact queue_modQueue _ _ _
  · exact queue_modQueue_other _ _ _ _ hj

/-- R57: a value that is DOORBELL's in the low k + 1 bits leaves every queue. -/
theorem queue_ringDoorbell_same {s : State} {q v : Nat} (hv : overruns s q v = false)
    (hdist : qDist s q (queue s q).done v = qBacklog s q) (hstate : (queue s q).state ≠ .off) (j : Nat) :
    queue (ringDoorbell s q v) j = queue s j := by
  have hbell : (queue s q).doorbell = doorbellAfter s q v := (if_pos hdist).symm
  unfold ringDoorbell
  rw [hv]
  cases h : (queue s q).state with
  | off => exact absurd h hstate
  | running => exact (queue_congr _ _ _ (queues_evalWatermark _ _)).trans (queue_modQueue_doorbell hbell j)
  | draining | halted => exact queue_modQueue_doorbell hbell j

/-- Settles O4: the rule is the model's own; equal low bits are equally far from DONE. -/
theorem doorbell_overrun_rule : Obligations.Doorbell_overrun_rule := by
  unfold Obligations.Doorbell_overrun_rule
  intro s q v
  have hiff : overruns s q v = true ↔ qDist s q (queue s q).done v > 2 ^ od s (0x3000 + q) 0x05
      ∨ qDist s q (queue s q).done v < qDist s q (queue s q).done (queue s q).doorbell := by
    simp only [overruns, Bool.or_eq_true, decide_eq_true_eq]
    rfl
  refine ⟨hiff, fun hlow hfit => ?_⟩
  have hdist : qDist s q (queue s q).done v = qBacklog s q := qDist_congr hlow
  have hv : overruns s q v = false := by
    refine Bool.eq_false_iff.2 fun h => ?_
    have := hiff.1 h
    unfold qBacklog at hdist
    omega
  exact ⟨hv, fun hp hq hlt hstate => ⟨_, exec_doorbellWrite hp hq hlt, queue_ringDoorbell_same hv hdist hstate⟩⟩

/-! ### Messages without a request -/

/-- R450: a counter of the fabric port saturates at 32 bits, and nothing else changes. -/
theorem count_fabric {s : State} {sub : Nat} (hsub : 2 ≤ sub ∧ sub ≤ 6) :
    count s 0x1200 sub = { s with od := (count s 0x1200 sub).od }
      ∧ od (count s 0x1200 sub) 0x1200 sub = min (od s 0x1200 sub + 1) (2 ^ 32 - 1)
      ∧ ∀ i j, j < 256 → (i, j) ≠ (0x1200, sub) → od (count s 0x1200 sub) i j = od s i j := by
  obtain ⟨r, hrow, hty⟩ : ∃ r, odRow 0x1200 sub = some r ∧ r.ty = .u32 := by
    obtain ⟨h2, h6⟩ := hsub
    interval_cases sub <;> exact ⟨_, rfl, rfl⟩
  refine ⟨countBy_changes_od_only .., ?_, fun i j hj hne => ?_⟩
  · exact (od_countBy_same hrow 1).trans (hty ▸ sat_eq_min _ _)
  · exact od_countBy_other _ _ _ _ _ _ fun h => hne (odKey_inj (by omega) hj h)

/-- R428: a response to a tag without a request is discarded. -/
theorem exec_lateResponse {s : State} {tag : Nat} (hp : s.ao.portsUp = true) (hnone : reqOf s tag = none) :
    exec (.lateResponse tag) s = .next (count s 0x1200 0x05) := by
  show execLateResponse tag s = _
  rw [execLateResponse, gate_up hp, hnone]
  rfl

theorem exec_statusWriteResponse_late {s : State} {tag : Nat} (err : Bool) (hp : s.ao.portsUp = true) (hnone : reqOf s tag = none) :
    exec (.statusWriteResponse tag err) s = .next (count s 0x1200 0x05) := by
  show execStatusWriteResponse tag err s = _
  rw [execStatusWriteResponse, gate_up hp, hnone]
  rfl

theorem exec_entryFetchResponse_late {s : State} {tag : Nat} (err : Bool) (data : List W512) (hp : s.ao.portsUp = true) (hnone : reqOf s tag = none) :
    exec (.entryFetchResponse tag err data) s = .next (count s 0x1200 0x05) := by
  show execEntryFetchResponse tag err data s = _
  rw [execEntryFetchResponse, gate_up hp, hnone]
  rfl

/-- R55: a read of the doorbell page is answered with zeros. -/
theorem exec_tread {s : State} {off len : Nat} (tag : Nat) (hp : s.ao.portsUp = true) (hoff : off < 32768) (hlen : 1 ≤ len ∧ len ≤ 16) :
    exec (.tread off len tag) s = .next (emit s (.treadDone tag 0)) := by
  show execTread off len tag s = _
  rw [execTread, gate_up hp, if_neg (by omega)]

/-- R429: a read outside the doorbell page, or of another length, is discarded. -/
theorem exec_tread_discarded {s : State} {off len : Nat} (tag : Nat) (hp : s.ao.portsUp = true) (hbad : 32768 ≤ off ∨ len = 0 ∨ 16 < len) :
    exec (.tread off len tag) s = .next (count s 0x1200 0x06) := by
  show execTread off len tag s = _
  rw [execTread, gate_up hp, if_pos (by omega)]

/-- R425: a message of a kind the block does not know is discarded. -/
theorem exec_reservedKindMessage {s : State} {kind : Nat} (hp : s.ao.portsUp = true) (hkind : kind ∉ [3, 4, 5, 6]) :
    exec (.reservedKindMessage kind) s = .next (count s 0x1200 0x06) := by
  show execReservedKindMessage kind s = _
  rw [execReservedKindMessage, gate_up hp, if_neg (by simpa using hkind)]

/-- Settles O5: each such message is answered or counted. -/
theorem fabric_messages_without_a_request : Obligations.Fabric_messages_without_a_request := by
  unfold Obligations.Fabric_messages_without_a_request
  intro s hp
  refine ⟨fun off len tag hoff hlo hhi => exec_tread tag hp hoff ⟨hlo, hhi⟩, fun off len tag hbad => ?_, fun kind hkind => ?_,
    fun tag hnone => ⟨?_, fun err => ?_, fun err data => ?_⟩⟩
  · exact ⟨_, exec_tread_discarded tag hp hbad, count_fabric (by decide)⟩
  · exact ⟨_, exec_reservedKindMessage hp hkind, count_fabric (by decide)⟩
  · exact ⟨_, exec_lateResponse hp hnone, count_fabric (by decide)⟩
  · exact ⟨_, exec_statusWriteResponse_late err hp hnone, count_fabric (by decide)⟩
  · exact ⟨_, exec_entryFetchResponse_late err data hp hnone, count_fabric (by decide)⟩

end Sys2Proof.Machine
end

section
/-! PROOFS. Control-port writes of the entries of queues, of the tracking pool and of notice rings (R60 to R63, R68, R80, R88). -/

open Sys2Proof.Claims
namespace Sys2Proof.Machine

/-! ### Writes of these entries (R386) -/

/-- The entries of the tracking pool, the notice rings and the queues. -/
abbrev QueueEntry (i : Nat) : Prop := i = 0x1100 ∨ 0x1110 ≤ i ∧ i < 0x1120 ∨ 0x3000 ≤ i ∧ i < 0x4000

theorem rangeOk_queueEntry (s : State) {i : Nat} (sub v : Nat) (h : QueueEntry i) : rangeOk s i sub v = true := by
  have hgroup : ¬ (0x2140 ≤ i ∧ i < 0x2148 ∧ sub = 0x01) := by omega
  have hlock : ¬ (0x4200 ≤ i ∧ i < 0x4240 ∧ sub = 0x01) := by omega
  unfold rangeOk
  split
  iterate 12 omega
  rw [if_neg hgroup, if_neg hlock, ite_self]

/-- R386: a control-port write of such an entry, read-write and no selector, passes when its row takes the value. -/
theorem gate_ctlWrite_queueEntry {s : State} {mid i sub v : Nat} {r : OdRow} (hp : s.ao.portsUp = true) (hm : mid ≠ 0) (h : QueueEntry i)
    (hr : odRow i sub = some r) (ha : r.acc = .rw)
    (hv : anyValue i sub = true ∨ (tyFits r.ty v && decide (r.lo ≤ v) && decide (v ≤ r.hi)) = true) :
    gate s (ctlWrite s mid i sub v) = .next (okWrite (applyWrite s ⟨false, mid⟩ i sub v) mid i sub) := by
  have htv : isTvState i sub = false := by simp [isTvState]; omega
  have hcode : writeCode s ⟨false, mid⟩ i sub v = 0 := by
    refine writeCode_ok s mid i sub v r hm hr (.inl ha) ?once ?stop ?busy ?owner ?value
    case once => simp [onceWritten, show i ≠ 0x9100 by omega]
    case stop => simp [needsStop, ha, show i ≠ 0x9000 by omega, show i ≠ 0x9200 by omega]
    case busy => simp [odBusy, show i ≠ 0x6000 by omega, show i ≠ 0x9100 by omega]
    case owner => simp [ownerOnly]; omega
    case value => rcases hv with hv | hv <;> simp only [valueOk, hv, rangeOk_queueEntry s sub v h, Bool.true_or, Bool.and_self, Bool.or_true]
  rw [gate_up hp, ctlWrite_eq_okWrite s mid i sub v hcode htv]

/-! ### Entries of a queue -/

/-- An entry of a queue that is no selector is written as applyMid says. -/
theorem applyWrite_queue (s : State) (m : Req) {q : Nat} (sub v : Nat) (hq : q < 4096) : applyWrite s m (0x3000 + q) sub v
    = (if sub = 0x01 then some (switchQueue s q v) else if sub = 0x03 then some (writeQerr s q v)
        else if sub = 0x0C then some (writeWatermark s q v) else none).getD (setOd s (0x3000 + q) sub v) := by
  have hsel : isSel (0x3000 + q) sub = false := by simp [isSel]; omega
  rw [applyWrite, hsel, if_neg Bool.false_ne_true, if_neg (by omega), if_pos (by omega), applyMid, if_pos (by omega), Nat.add_sub_cancel_left]

section
variable {s : State} {mid q : Nat} (hp : s.ao.portsUp = true) (hm : mid ≠ 0) (hq : q < 4096)
include hp hm hq

/-- R62, R63: a write of a queue's ENABLE. -/
theorem gate_queueEnable {v : Nat} (hv : v ≤ 1) :
    gate s (ctlWrite s mid (0x3000 + q) 0x01 v) = .next (okWrite (switchQueue s q v) mid (0x3000 + q) 0x01) := by
  have hrow : odRow (0x3000 + q) 0x01 = some ⟨1, 1, .bool, .rw, 0, 0, 1⟩ := by rw [odRow, odRows_queue q hq]; rfl
  rw [gate_ctlWrite_queueEntry hp hm (by omega) hrow rfl (.inr (by simp [tyFits, hv])), applyWrite_queue s _ _ v hq]
  rfl

/-- R61: a write of QERR. -/
theorem exec_qerrWrite {v : Nat} (hv : v < 65536) :
    exec (.qerrWrite mid q v) s = .next (okWrite (writeQerr s q v) mid (0x3000 + q) 0x03) := by
  have hrow : odRow (0x3000 + q) 0x03 = some ⟨3, 3, .u16, .rw, 0, 0, 65535⟩ := by rw [odRow, odRows_queue q hq]; rfl
  show execQerrWrite mid q v s = _
  rw [execQerrWrite, gate_ctlWrite_queueEntry hp hm (by omega) hrow rfl (.inr (by simp [tyFits]; omega)), applyWrite_queue s _ _ v hq]
  rfl

/-- R88: a write of WATERMARK. -/
theorem exec_watermarkWrite {v : Nat} (hv : v < 65536) :
    exec (.watermarkWrite mid q v) s = .next (okWrite (writeWatermark s q v) mid (0x3000 + q) 0x0C) := by
  have hrow : odRow (0x3000 + q) 0x0C = some ⟨12, 12, .u16, .rw, 0, 0, 65535⟩ := by rw [odRow, odRows_queue q hq]; rfl
  show execWatermarkWrite mid q v s = _
  rw [execWatermarkWrite, gate_ctlWrite_queueEntry hp hm (by omega) hrow rfl (.inr (by simp [tyFits]; omega)), applyWrite_queue s _ _ v hq]
  rfl

end

/-- R62: ENABLE 1 starts an OFF queue whose checks pass, with done word 0 unless FATAL has stopped the retire unit (R421). -/
theorem enableQueue_starts {s : State} {q : Nat} (hoff : (queue s q).state = .off) (hok : enableRefusal s q = 0) :
    enableQueue s q = if s.ao.fatal then modQueue s q (fun _ => { state := .running })
      else writeDone (modQueue s q (fun _ => { state := .running })) q 0 := by
  simp only [enableQueue, hoff, hok]
  rfl

/-- R62: REFUSAL names the check that an OFF queue fails. -/
theorem enableQueue_refused {s : State} {q : Nat} (hoff : (queue s q).state = .off) (hbad : enableRefusal s q ≠ 0) :
    enableQueue s q = modQueue s q (fun x => { x with refusal := enableRefusal s q }) := by
  simp only [enableQueue, hoff]
  rw [if_pos hbad]

theorem enableQueue_running {s : State} {q : Nat} (h : (queue s q).state = .running) : enableQueue s q = s := by
  simp only [enableQueue, h]

/-- R63: a queue not yet drained takes no ENABLE 1. -/
theorem enableQueue_early {s : State} {q : Nat} (h : (queue s q).state = .draining ∨ (queue s q).state = .halted) :
    enableQueue s q = setQerr (modQueue s q (fun x => { x with refusal := 0x10 })) q qerrEarly := by
  rcases h with h | h <;> simp only [enableQueue, h]

theorem disableQueue_drains {s : State} {q : Nat} (h : (queue s q).state = .running ∨ (queue s q).state = .halted) :
    disableQueue s q = modQueue s q (fun x => { x with state := .draining, cause := 0 }) := by
  rcases h with h | h <;> simp only [disableQueue, h]

/-! ### POOL_PEAK and the notice rings -/

/-- R68: a write of POOL_PEAK, whatever it carries. -/
theorem exec_poolPeakWrite {s : State} {mid : Nat} (v : Nat) (hp : s.ao.portsUp = true) (hm : mid ≠ 0) :
    exec (.poolPeakWrite mid v) s = .next (okWrite (setOd s 0x1100 0x05 (poolUsed s)) mid 0x1100 0x05) :=
  gate_ctlWrite_queueEntry (r := ⟨5, 5, .u16, .rw, 0, 0, 65535⟩) hp hm (by omega) rfl rfl (.inl rfl)

theorem applyWrite_ringEnable (s : State) (m : Req) {n : Nat} (v : Nat) (h : n < 16) :
    applyWrite s m (0x1110 + n) 0x01 v = if v = 1 then enableRing s n else disableRing s n := by
  have hsel : isSel (0x1110 + n) 0x01 = false := by simp [isSel]; omega
  rw [applyWrite, hsel, if_neg Bool.false_ne_true, if_pos (by omega), applyLow, if_neg (by omega), if_pos (by omega), Option.getD_some,
    Nat.add_sub_cancel_left]

/-- R80: a write of a notice ring's ENABLE. -/
theorem gate_ringEnable {s : State} {mid n v : Nat} (hp : s.ao.portsUp = true) (hm : mid ≠ 0) (hn : n < 16) (hv : v ≤ 1) :
    gate s (ctlWrite s mid (0x1110 + n) 0x01 v)
      = .next (okWrite (if v = 1 then enableRing s n else disableRing s n) mid (0x1110 + n) 0x01) := by
  have hrow : odRow (0x1110 + n) 0x01 = some ⟨1, 1, .bool, .rw, 0, 0, 1⟩ := by rw [odRow, odRows_ring n hn]; rfl
  rw [gate_ctlWrite_queueEntry hp hm (by omega) hrow rfl (.inr (by simp [tyFits, hv])), applyWrite_ringEnable s _ v hn]

/-- Settles O14: each write passes at its row, and its effect is read off the state it meets. -/
theorem queue_and_ring_control_writes : Obligations.Queue_and_ring_control_writes := by
  unfold Obligations.Queue_and_ring_control_writes
  refine ⟨fun s mid q v hp hm hq hv => ?queues, fun s mid n hp hm hn => ?rings⟩
  case queues =>
    have hon : exec (.queueEnable mid q) s = .next (okWrite (enableQueue s q) mid (0x3000 + q) 0x01) :=
      gate_queueEnable hp hm hq (v := 1) le_rfl
    have hoff : exec (.queueDisable mid q) s = .next (okWrite (disableQueue s q) mid (0x3000 + q) 0x01) :=
      gate_queueEnable hp hm hq (v := 0) (Nat.zero_le 1)
    rw [hon, hoff]
    refine ⟨fun h hok => ⟨fun hf => ?start, fun hf => ?fatal⟩, fun h hbad => ?refused, fun h => ?running, fun h => ?early, fun h => ?drain,
      exec_qerrWrite hp hm hq hv, exec_watermarkWrite hp hm hq hv, exec_poolPeakWrite v hp hm⟩
    case start => rw [enableQueue_starts h hok, hf, if_neg Bool.false_ne_true]
    case fatal => rw [enableQueue_starts h hok, hf, if_pos rfl]
    case refused => rw [enableQueue_refused h hbad]
    case running => rw [enableQueue_running h]
    case early => rw [enableQueue_early h]; rfl
    case drain => rw [disableQueue_drains h]
  case rings =>
    have hon : exec (.noticeRingEnable mid n) s = .next (okWrite (enableRing s n) mid (0x1110 + n) 0x01) :=
      gate_ringEnable hp hm hn (v := 1) le_rfl
    refine ⟨fun he hr => ?starts, fun h => ?stays, gate_ringEnable hp hm hn (v := 0) (Nat.zero_le 1)⟩
    case starts => rw [hon, enableRing, if_neg (by simp [he, hr])]
    case stays => rw [hon, enableRing, if_pos h]

end Sys2Proof.Machine
end

section
/-! PROOFS. What the Gate makes of a front entry that passes its checks (R75, R76, R93, R99, R115, R129, R182, R185, R192, R197, R208,
R225, R233, R258, R348). -/

open Sys2Proof.Claims
namespace Sys2Proof.Machine

/-! ### The entry admitted (R75, R254, R264) -/

/-- The note that an entry is never framed keeps its words, its index and its number (R254). -/
theorem entOf_noteUnframed {s : State} {q i : Nat} {y : Ent} (r : Nat) (h : entOf s q i = some y) :
    ∃ z, entOf (noteUnframed s q i r) q i = some z ∧ z.raw = y.raw ∧ z.idx = y.idx ∧ z.order = y.order := by
  unfold noteUnframed
  split
  · exact ⟨_, (entOf_modEnt s q i (fun e => { e with unframed := true }) fun _ => rfl).trans (congrArg (Option.map _) h), rfl, rfl, rfl⟩
  · exact ⟨y, h, rfl, rfl, rfl⟩

/-- A front entry keeps its words and its index and takes the next admission number. -/
theorem entOf_admitted_front {s : State} {q : Nat} {x : Ent} (c : Nat) (h : Front s q x) :
    ∃ y, entOf (admitted s q x c) q x.idx = some y ∧ y.raw = x.raw ∧ y.idx = x.idx ∧ y.order = some s.admitNo := by
  obtain ⟨-, hfront, hent, -, -, -⟩ := h
  have hnew : x.order = none := by simpa using List.find?_some hfront
  obtain ⟨y, hy, hraw, hidx, horder⟩ := entOf_admitted s q c x hent hnew
  obtain ⟨z, hz, hzraw, hzidx, hzorder⟩ := entOf_noteUnframed (eRegion x.raw) hy
  exact ⟨z, hz, hzraw.trans hraw, hzidx.trans hidx, hzorder.trans horder⟩

/-- What an admitted entry does by its opcode. -/
def goOn (a : State) (q : Nat) (y : Ent) : State :=
  let op := eOpcode y.raw
  if op = 0x04 then admitGather a q y
  else if op = 0x08 then admitLineWrite a q y
  else if op = 0x09 then admitUnitOpen a q y
  else if op = 0x0A then admitUnitCommit a q y
  else if op = 0x0B then admitPageProgram a q y
  else if op = 0x10 then admitErase a q y
  else if op = 0x11 then admitCopyback a q y
  else if op = 0x20 then a
  else if op = 0x30 then admitFeature a q y
  else if op ≥ 0x80 then admitIntegrator a q y
  else admitPlain a q y (eArg y.raw)

theorem perform_eq_goOn {s : State} {q c : Nat} {x y : Ent} (he : entOf s q x.idx = some x) (hy : entOf (admitted s q x c) q x.idx = some y) :
    perform s q x.idx c = goOn (admitted s q x c) q y := by
  unfold admitted at hy
  unfold perform
  rw [he]
  dsimp only
  rw [hy]
  rfl

/-- R75: a row of the Gate whose opcode is the front entry's admits it, and goes on behind it. -/
theorem exec_row_admits {s : State} {q c : Nat} {x y : Ent} {i : Instr} {p : W512 → Bool} (h : Front s q x) (hv : verdict s x = .go c)
    (hy : entOf (admitted s q x c) q x.idx = some y) (hi : exec i s = gate s (admitRow p q s)) (hp : p x.raw = true) :
    exec i s = .next (refuseLoop (goOn (admitted s q x c) q y) q (queue s q).ents.length) := by
  obtain ⟨hports, hfront, hent, harrived, hmay, hfits⟩ := h
  have hgo : admitEnt s q x = goOn (admitted s q x c) q y := by
    rw [admitEnt, if_neg (not_not.2 hfits), hv]
    exact perform_eq_goOn hent hy
  rw [hi, gate_up hports, admitRow_front s q x p hfront harrived hmay hp, hgo]

/-! ### Its opcode -/

section
variable {a : State} {q : Nat} {x y : Ent} (hraw : y.raw = x.raw) (hidx : y.idx = x.idx)
include hraw hidx

/-- R115, R129, R233, R258: an opcode of no kind of its own pushes its one descriptor. -/
theorem goOn_plain (hop : eOpcode x.raw ∈ [0x01, 0x02, 0x03, 0x18, 0x19]) :
    goOn a q y = pushEntry a q x.idx [{ entryDesc a q y with arg := eArg x.raw }] := by
  have hplain : goOn a q y = admitPlain a q y (eArg y.raw) := by
    unfold goOn
    rw [hraw]
    simp only [List.mem_cons, List.not_mem_nil, or_false] at hop
    rcases hop with h | h | h | h | h <;> simp [h]
  rw [hplain, admitPlain, hraw, hidx]

/-- R348: a feature's parameters ride with its descriptor. -/
theorem goOn_feature (hop : eOpcode x.raw = 0x30) : goOn a q y
    = pushEntry a q x.idx [{ entryDesc a q y with arg := (eParams x.raw).toNat, body := x.raw.extractLsb' 128 320 }] := by
  simp [goOn, hraw, hop, admitFeature, hidx]

/-- R208: an erase goes down the chain before its descriptor. -/
theorem goOn_erase (hop : eOpcode x.raw = 0x10) : goOn a q y
    = (let b := sendDown a (eRegion x.raw) 0x07 (eFpa x.raw) 0 (eNum x.raw) 0 []
       pushEntry b q x.idx [{ entryDesc b q y with arg := eNum x.raw }]) := by
  simp [goOn, hraw, hop, admitErase, admitPlain, hidx]

/-- R93: an integrator opcode's charge and unchecked bytes ride with its descriptor. -/
theorem goOn_integrator (hop : 0x80 ≤ eOpcode x.raw) : goOn a q y
    = pushEntry a q x.idx [{ entryDesc a q y with
        body := x.raw.extractLsb' 128 320,
        charge := if dLedger (dispatchOf a (eOpcode x.raw)) then [(.program (rOd a (eRegion x.raw) 0x06), eNum x.raw + 1)] else [] }] := by
  have hrow : goOn a q y = admitIntegrator a q y := by
    unfold goOn
    dsimp only
    rw [hraw]
    iterate 9 rw [if_neg (by omega)]
    rw [if_pos hop]
  rw [hrow, admitIntegrator, hraw, hidx]

end

/-- Settles O8: each opcode has its own row at the Gate, every row admits the front entry alike, and goes on by the opcode. -/
theorem read_like_entries_are_admitted : Obligations.Read_like_entries_are_admitted := by
  unfold Obligations.Read_like_entries_are_admitted
  intro s q c x hfront hv
  obtain ⟨y, hy, hraw, hidx, horder⟩ := entOf_admitted_front c hfront
  have row : ∀ {i : Instr} (p : W512 → Bool) {t : State}, exec i s = gate s (admitRow p q s) → p x.raw = true →
      goOn (admitted s q x c) q y = t → exec i s = .next (refuseLoop t q (queue s q).ents.length) :=
    fun p _ hi hp ht => ht ▸ exec_row_admits hfront hv hy hi hp
  have feature : ∀ {i : Instr} {sub : Nat}, exec i s = gate s (admitRow (fun e => decide (eOpcode e = 0x30) && decide (eSubop e = sub)) q s) →
      eOpcode x.raw = 0x30 → eSubop x.raw = sub → exec i s = _ :=
    fun hi hop hsub => row _ hi (Bool.and_eq_true_iff.2 ⟨decide_eq_true hop, decide_eq_true hsub⟩) (goOn_feature hraw hidx hop)
  refine ⟨y, hy, hraw, hidx, horder, ?_, ?_, ?_, ?_, ?_, fun hop => ?gather, fun hop => ?erase, fun hop => ?fence, fun hop => ?feature,
    fun hop => ?integrator⟩
  iterate 5 exact fun hop => row _ rfl (decide_eq_true hop) (goOn_plain hraw hidx (by simp [hop]))
  case gather => exact row _ rfl (decide_eq_true hop) (by simp [goOn, hraw, hop])
  case erase => exact row _ rfl (decide_eq_true hop) (goOn_erase hraw hidx hop)
  case fence => exact row _ rfl (decide_eq_true hop) (by simp [goOn, hraw, hop])
  case feature => exact ⟨feature rfl hop, feature rfl hop, feature rfl hop, feature rfl hop⟩
  case integrator => exact row _ rfl (decide_eq_true hop) (goOn_integrator hraw hidx hop)

section
variable {a : State} {q : Nat} {x y : Ent} (hraw : y.raw = x.raw) (hidx : y.idx = x.idx)
include hraw

theorem goOn_unitOpen (hop : eOpcode x.raw = 0x09) : goOn a q y = admitUnitOpen a q y := by
  simp [goOn, hraw, hop]

include hidx

/-- R182: a unit that may not be opened is refused with the status of its check. -/
theorem admitUnitOpen_refused {st : Status} (h : openRefusal a (eRegion x.raw) (eFpa x.raw) (eNum x.raw) = some st) :
    admitUnitOpen a q y = finalise (countRefused a (eFpa x.raw) st) q x.idx st 0 := by
  simp only [admitUnitOpen, hraw, h, hidx]

/-- R182: otherwise it takes a record, its key and the way down the chain. -/
theorem admitUnitOpen_opens (h : openRefusal a (eRegion x.raw) (eFpa x.raw) (eNum x.raw) = none) : admitUnitOpen a q y
    = (let u := takeRecord a (fRidge (eFpa x.raw))
       let b := takeKey (openUnit a u .host (eRegion x.raw) (eFpa x.raw) (eNum x.raw) true) q x.idx u
       let b := sendDown b (eRegion x.raw) 0x02 (fSetLine (eFpa x.raw) 0) (handleOf b u) (eNum x.raw) 0 []
       pushEntry b q x.idx [{ entryDesc b q y with handle := handleOf b u, arg := eNum x.raw, key := none }]) := by
  simp only [admitUnitOpen, hraw, h, hidx]

/-- R192: a unit that is neither FAILED nor without its key is COMMITTED at once. -/
theorem goOn_unitCommit (hop : eOpcode x.raw = 0x0A) (hkey : (unit a (unitKey (eUnit x.raw))).keyLost = false)
    (hfail : (unit a (unitKey (eUnit x.raw))).failed = false) : goOn a q y
    = (let u := unitKey (eUnit x.raw)
       let b := setCharge (toCommitted a u) u (programKinds a (unit a u).region ((unit a u).planesM1 + 1))
       modEnt (modUnit b u (fun d => { d with commit := some (q, x.idx), cls := entryClass b x.raw })) q x.idx (fun z => { z with left := 1 })) := by
  have hrow : goOn a q y = admitUnitCommit a q y := by simp [goOn, hraw, hop]
  rw [hrow, admitUnitCommit, hraw, hidx]
  simp only [hkey, hfail, Bool.false_eq_true, if_false]

end

/-- Settles O9: each opcode has its own row at the Gate, every row admits the front entry alike, and goes on by the opcode. -/
theorem write_like_entries_are_admitted : Obligations.Write_like_entries_are_admitted := by
  unfold Obligations.Write_like_entries_are_admitted
  intro s q c x hfront hv
  obtain ⟨y, hy, hraw, hidx, horder⟩ := entOf_admitted_front c hfront
  have row : ∀ {i : Instr} (p : W512 → Bool) {t : State}, exec i s = gate s (admitRow p q s) → p x.raw = true →
      goOn (admitted s q x c) q y = t → exec i s = .next (refuseLoop t q (queue s q).ents.length) :=
    fun p _ hi hp ht => ht ▸ exec_row_admits hfront hv hy hi hp
  refine ⟨y, hy, hraw, hidx, horder, fun hop => ?write, fun hop h => ?opens, fun hop st h => ?refused, fun hop hkey hfail => ?commit,
    fun hop => ?program, fun hop => ?copyback⟩
  case write => exact row _ rfl (decide_eq_true hop) (by simp [goOn, hraw, hop])
  case opens => exact row _ rfl (decide_eq_true hop) ((goOn_unitOpen hraw hop).trans (admitUnitOpen_opens hraw hidx h))
  case refused => exact row _ rfl (decide_eq_true hop) ((goOn_unitOpen hraw hop).trans (admitUnitOpen_refused hraw hidx h))
  case commit => exact row _ rfl (decide_eq_true hop) (goOn_unitCommit hraw hidx hop hkey hfail)
  case program => exact row _ rfl (decide_eq_true hop) (by simp [goOn, hraw, hop])
  case copyback => exact row _ rfl (decide_eq_true hop) (by simp [goOn, hraw, hop])

end Sys2Proof.Machine
end

section
/-! PROOFS. A done word marked as due (R71). -/

open Sys2Proof.Claims
namespace Sys2Proof.Machine

/-- The ports up, and queue 0 RUNNING with one retirement that the done word does not cover, a done word marked
as due and none outstanding. -/
def doneWordDue : State := { State.reset with
  ao := { State.reset.ao with portsUp := true },
  queues := { entries := [(0, { state := .running, done := 1, doneDue := true })] } }

/-- Is queue 0's done word still marked as due after a command? -/
def staysDue : Host.Outcome State Fault Refusal → Bool
  | .next t => (queue t 0).doneDue
  | _ => false

/-- R71: the timer writes the done word, and none is due any more. -/
theorem doneWordTimer_serves_what_is_due : staysDue (exec (.doneWordTimer 0) doneWordDue) = false := by decide +kernel

/-- Refutes O13: its clause about the timer leaves all of the queue but the word outstanding as it was, yet where a done word is marked as
due the write takes that mark away. -/
theorem not_statuses_are_written_and_queues_end : ¬ Obligations.Statuses_are_written_and_queues_end := by
  unfold Obligations.Statuses_are_written_and_queues_end
  rintro ⟨-, hanswers, -⟩
  obtain ⟨-, htimer, -⟩ := hanswers doneWordDue 0 0 0 { tag := 0, write := true, addr := 0, len := 8, data := [], since := 0, purpose := .done 0 }
  have hexec := htimer (by decide +kernel) (by decide +kernel) (by decide +kernel) (by decide +kernel) (by decide +kernel) (by decide +kernel)
  have hclaim : staysDue (exec (.doneWordTimer 0) doneWordDue) = true := by
    rw [hexec]
    decide +kernel
  exact absurd (doneWordTimer_serves_what_is_due.symm.trans hclaim) (by decide)

end Sys2Proof.Machine
end

section
/-! PROOFS. The backlogs and the writes of notice rings (R80 to R83, R85 to R87). -/

open Sys2Proof.Claims
namespace Sys2Proof.Machine

/-! ### Places of a backlog (R85 to R87) -/

/-- The notice of lower rank, the earlier on a tie. -/
def lowerRank (b p : Notice) : Notice := if queueNoticeRank p.code < queueNoticeRank b.code then p else b

/-- A fold to the lowest rank ends at its start or in its list, and nothing of the two ranks lower. -/
theorem foldl_lowerRank (l : List Notice) (b : Notice) :
    l.foldl lowerRank b ∈ b :: l ∧ ∀ p ∈ b :: l, queueNoticeRank (l.foldl lowerRank b).code ≤ queueNoticeRank p.code := by
  induction l generalizing b with
  | nil => simp
  | cons p l ih =>
    obtain ⟨hmem, hle⟩ := ih (lowerRank b p)
    have hnext : lowerRank b p = p ∧ queueNoticeRank p.code ≤ queueNoticeRank b.code
        ∨ lowerRank b p = b ∧ queueNoticeRank b.code ≤ queueNoticeRank p.code := by
      unfold lowerRank
      split
      · exact .inl ⟨rfl, by omega⟩
      · exact .inr ⟨rfl, by omega⟩
    rw [List.foldl_cons]
    generalize l.foldl lowerRank (lowerRank b p) = y at hmem hle ⊢
    obtain ⟨hfirst, hrest⟩ := List.forall_mem_cons.1 hle
    rw [List.forall_mem_cons, List.forall_mem_cons]
    rw [List.mem_cons] at hmem
    rw [List.mem_cons, List.mem_cons]
    rcases hnext with ⟨hn, hrank⟩ | ⟨hn, hrank⟩ <;> rw [hn] at hmem hfirst
    · exact ⟨.inr hmem, hfirst.trans hrank, hfirst, hrest⟩
    · exact ⟨hmem.imp_right .inr, hfirst, hfirst.trans hrank, hrest⟩

/-- R86: the next pending notice is one of the oldest queue, of the lowest rank there. -/
theorem nextPending_cons (first : Notice) (more : List Notice) : ∃ y, nextPending (first :: more) = some y ∧ y ∈ first :: more
    ∧ y.queue = first.queue ∧ ∀ p ∈ first :: more, p.queue = first.queue → queueNoticeRank y.code ≤ queueNoticeRank p.code := by
  obtain ⟨hmem, hle⟩ := foldl_lowerRank ((first :: more).filter (fun p => p.queue = first.queue)) first
  refine ⟨_, rfl, ?mem, ?queue, fun p hp hq => hle p (List.mem_cons_of_mem _ (List.mem_filter.2 ⟨hp, by simpa using hq⟩))⟩
  case mem => exact (List.mem_cons.1 hmem).elim (fun h => List.mem_cons.2 (.inl h)) (fun h => (List.mem_filter.1 h).1)
  case queue => exact (List.mem_cons.1 hmem).elim (congrArg Notice.queue) (fun h => of_decide_eq_true (List.mem_filter.1 h).2)

/-- R87: with a place free the next pending notice takes it. -/
theorem ring_ringGive_pending {s : State} {n : Nat} {y : Notice} (hroom : backlogUsed (ring s n) < 256)
    (hnext : nextPending (ring s n).pendingQ = some y) : ring (ringGive s n) n = ringPut { ring s n with
      pendingQ := (ring s n).pendingQ.filter (fun p => ¬ (p.queue = y.queue ∧ p.code = y.code)) } y := by
  unfold ringGive
  dsimp only
  rw [if_neg (by omega), hnext]
  exact ring_modRing _ _ _

/-- R87: with no notice pending the oldest stalled queue takes it. -/
theorem ringGive_stalled {s : State} {n q : Nat} {rest : List Nat} (hroom : backlogUsed (ring s n) < 256) (hnone : (ring s n).pendingQ = [])
    (hstalled : (ring s n).stalled = q :: rest) :
    ring (ringGive s n) n = { ring s n with stalled := rest, reserved := (ring s n).reserved + 1 }
      ∧ (queue (ringGive s n) q).stalledNotice = false := by
  unfold ringGive
  dsimp only
  have hnext : nextPending (ring s n).pendingQ = none := by rw [hnone]; rfl
  rw [if_neg (by omega), hnext]
  dsimp only
  rw [hstalled]
  dsimp only
  have hring := ring_modRing s n (fun r => { r with stalled := rest, reserved := r.reserved + 1 })
  split
  · refine ⟨hring, ?_⟩
    rw [modEnt, queue_modQueue, queue_modQueue]
  · exact ⟨hring, by rw [queue_modQueue]⟩

/-- R85: the count of the notices dropped is a counter of 32 bits. -/
theorem odRow_dropped {n : Nat} (hn : n < 16) : odRow (0x1110 + n) 0x0D = some ⟨13, 13, .u32, .ro, 0, 0, 4294967295⟩ := by
  rw [odRow, odRows_ring n hn]
  rfl

/-- Counting leaves the rings. -/
theorem ring_count (s : State) (i sub m : Nat) : ring (count s i sub) m = ring s m := by
  rw [count, countBy_changes_od_only]
  rfl

/-- Settles O53: the order of the places is that of the model's fold over the pending notices and of its list of stalled queues. -/
theorem backlog_places_go_in_the_order_of_the_classes : Obligations.Backlog_places_go_in_the_order_of_the_classes := by
  unfold Obligations.Backlog_places_go_in_the_order_of_the_classes
  intro s n hn
  refine ⟨fun x hroom => ?room, fun x hfull => ?full, fun hroom first more hq => ?pending, fun hroom hnone q rest hst => ?stalled,
    fun hfull => if_pos hfull⟩
  case room =>
    rw [postAuto, if_pos hroom, ring_modRing]
    rfl
  case full =>
    rw [postAuto, if_neg (by omega)]
    refine ⟨(ring_count ..).trans (ring_modRing ..), ?_⟩
    exact (od_countBy_same (odRow_dropped hn) 1).trans (sat_eq_min _ _)
  case pending =>
    obtain ⟨y, hnext, hmem, hqueue, hrank⟩ := nextPending_cons first more
    rw [← hq] at hnext hmem hrank
    exact ⟨y, hmem, hqueue, hrank, ring_ringGive_pending hroom hnext⟩
  case stalled => exact ringGive_stalled hroom hnone hst

/-! ### Writes and reads of a ring (R80 to R83) -/

/-- Taking an answered request away leaves the rings. -/
theorem ring_fabTake (s : State) (r : FabReq) (err : Bool) (n : Nat) : ring (fabTake s r err) n = ring s n := by
  have hdrain : ∀ t : State, (fabDrain t).rings = t.rings := fun t => by unfold fabDrain; split <;> rfl
  refine ring_congr _ _ _ ((hdrain _).trans ?_)
  split
  · rw [count, countBy_changes_od_only]
  · rfl

theorem ring_orphan (s : State) (f : Purpose → Bool) (n : Nat) : ring (orphan s f) n = ring s n := rfl

/-- A good answer counts nothing (R450). -/
theorem od_fabTake_good (s : State) (r : FabReq) (i sub : Nat) : od (fabTake s r false) i sub = od s i sub := by
  unfold fabTake
  dsimp only
  rw [od_fabDrain, if_neg (by simp)]
  rfl

/-- R82: a failed write or read stops its ring. -/
theorem ring_ringFault (s : State) (n addr : Nat) : ring (ringFault s n addr) n = { ring s n with fault := true } := by
  refine (ring_congr _ _ _ rfl).trans (ring_modRing s n _)

theorem ring_ringFault_other {n m : Nat} (s : State) (addr : Nat) (h : m ≠ n) : ring (ringFault s n addr) m = ring s m := by
  refine (ring_congr _ _ _ rfl).trans (ring_modRing_other s n m _ h)

theorem ringRuns_iff (s : State) (n : Nat) :
    ringRuns s n = true ↔ (ring s n).enabled = true ∧ (ring s n).fault = false ∧ s.ao.fatal = false := by
  simp [ringRuns, and_assoc]

/-- R82: a ring that has stopped gets no message and no tail word. -/
theorem messageDue_stopped {s : State} {n : Nat} (h : ¬ ringRuns s n = true) : messageDue s n = s := if_pos (.inr h)

theorem tailDue_stopped {s : State} {n : Nat} (h : ¬ ringRuns s n = true) : tailDue s n = s := by
  unfold tailDue
  dsimp only
  rw [messageDue_stopped h, if_pos h, ite_self]

/-- R81: the next record of a ring that runs and is not full. -/
theorem exec_noticeRecordWrite {s : State} {n : Nat} {x : Notice} (hp : s.ao.portsUp = true) (hnext : (ring s n).backlog[(ring s n).written]? = some x)
    (hruns : ringRuns s n = true) (hroom : ringFull s n = false) : exec (.noticeRecordWrite n) s
      = .next (fabSmall (modRing s n (fun r => { r with written := r.written + 1, tail := (r.tail + 1) % 65536, acks := r.acks ++ [false] }))
          (nOd s n 0x03 + (ring s n).tail % 2 ^ nOd s n 0x04 * 32) 32 (noticeRecord x (ring s n).tail) (.record n (ring s n).tail)) := by
  show execNoticeRecordWrite n s = _
  rw [execNoticeRecordWrite, gate_up hp]
  dsimp only
  rw [hnext]
  dsimp only
  rw [if_pos ⟨hruns, by simp [hroom]⟩]

/-- R81: the head word of a ring that runs and is full. -/
theorem exec_headWordReread {s : State} {n : Nat} (hp : s.ao.portsUp = true) (hruns : ringRuns s n = true) (hfull : ringFull s n = true)
    (hidle : (ring s n).headOut = false) : exec (.headWordReread n) s
      = .next (fabIssue (modRing s n (fun r => { r with headOut := true })) false (nOd s n 0x05) 8 [] (.head n)) := by
  show execHeadWordReread n s = _
  rw [execHeadWordReread, gate_up hp]
  dsimp only
  rw [if_pos ⟨hruns, hfull, by simp [hidle]⟩]

/-! ### Answers (R81 to R83) -/

section
variable {s : State} {tag n : Nat} {r : FabReq}

theorem exec_noticeRecordResponse {k : Nat} (h : Due s tag r (.record n k)) (err : Bool) :
    exec (.noticeRecordResponse tag err) s = .next (recordAnswer s r n k err) := by
  obtain ⟨hp, hreq, hpurpose⟩ := h
  show execNoticeRecordResponse tag err s = _
  rw [execNoticeRecordResponse, gate_up hp]
  simp only [hreq, hpurpose]

theorem exec_tailWordResponse (h : Due s tag r (.tail n)) (err : Bool) :
    exec (.tailWordResponse tag err) s = .next (tailAnswer s r n err) := by
  obtain ⟨hp, hreq, hpurpose⟩ := h
  show execTailWordResponse tag err s = _
  rw [execTailWordResponse, gate_up hp]
  simp only [hreq, hpurpose]

theorem exec_messageWriteResponse (h : Due s tag r (.msg n)) (err : Bool) :
    exec (.messageWriteResponse tag err) s = .next (messageAnswer s r n err) := by
  obtain ⟨hp, hreq, hpurpose⟩ := h
  show execMessageWriteResponse tag err s = _
  rw [execMessageWriteResponse, gate_up hp]
  simp only [hreq, hpurpose]

theorem exec_headWordResponse (h : Due s tag r (.head n)) (err : Bool) (v : W64) :
    exec (.headWordResponse tag err v) s = .next (headAnswer s r n err v) := by
  obtain ⟨hp, hreq, hpurpose⟩ := h
  show execHeadWordResponse tag err v s = _
  rw [execHeadWordResponse, gate_up hp]
  simp only [hreq, hpurpose]

/-- R82: an acknowledged record may retire. -/
theorem recordAnswer_good (s : State) (r : FabReq) (n k : Nat) : recordAnswer s r n k false
    = ringRetire (modRing (fabTake s r false) n (fun x => { x with acks := setAt x.acks (recordPos (ring s n) k) true })) n := by
  unfold recordAnswer
  dsimp only
  rw [if_neg Bool.false_ne_true, ring_fabTake]

/-- R82: a failed record stops its ring, with TAIL back at it. -/
theorem ring_recordAnswer_failed (s : State) (r : FabReq) (n k : Nat) : ring (recordAnswer s r n k true) n
    = { ring s n with fault := true, tail := k, written := recordPos (ring s n) k, acks := (ring s n).acks.take (recordPos (ring s n) k) } := by
  unfold recordAnswer
  dsimp only
  rw [if_pos rfl, ring_ringFault, ring_modRing, ring_fabTake]
  rw [ring_orphan, ring_fabTake]

theorem ring_recordAnswer_failed_other (s : State) (r : FabReq) {n m : Nat} (k : Nat) (h : m ≠ n) :
    ring (recordAnswer s r n k true) m = ring s m := by
  unfold recordAnswer
  dsimp only
  rw [if_pos rfl, ring_ringFault_other _ _ h, ring_modRing_other _ _ _ _ h]
  rw [ring_orphan, ring_fabTake]

/-- R81, R83: the good answer to a tail word lets the message go, and then the tail word that waited. -/
theorem tailAnswer_good (s : State) (r : FabReq) (n : Nat) : tailAnswer s r n false
    = (let b := messageDue (modRing (fabTake s r false) n (fun x => { x with tailOut := false })) n
       if (ring b n).tailDue ∧ (ring b n).enabled ∧ ¬ (ring b n).fault then tailDue b n else b) := by
  unfold tailAnswer
  dsimp only
  rw [if_neg Bool.false_ne_true]
  generalize messageDue _ n = b
  by_cases hruns : ringRuns b n = true
  · obtain ⟨hon, hgood, -⟩ := (ringRuns_iff b n).1 hruns
    simp [hon, hgood]
  · rw [tailDue_stopped hruns]
    simp

theorem ring_tailAnswer_failed (s : State) (r : FabReq) (n : Nat) :
    ring (tailAnswer s r n true) n = { ring s n with fault := true, tailOut := false } := by
  unfold tailAnswer
  dsimp only
  rw [if_pos rfl, ring_ringFault, ring_modRing, ring_fabTake]

theorem messageAnswer_good (s : State) (r : FabReq) (n : Nat) :
    messageAnswer s r n false = modRing (fabTake s r false) n (fun x => { x with msgOut := false }) := by
  unfold messageAnswer
  exact if_neg Bool.false_ne_true

theorem ring_messageAnswer_failed (s : State) (r : FabReq) (n : Nat) :
    ring (messageAnswer s r n true) n = { ring s n with fault := true, msgOut := false } := by
  unfold messageAnswer
  dsimp only
  rw [if_pos rfl, ring_ringFault, ring_modRing, ring_fabTake]

/-- R81: HEAD moves towards TAIL only. -/
theorem headAnswer_good (s : State) (r : FabReq) (n : Nat) (v : W64) : headAnswer s r n false v
    = (let m := 2 ^ (od s (0x1110 + n) 0x04 + 1)
       let h := bitsOf v 15 0
       let b := modRing (fabTake s r false) n (fun x => { x with headOut := false })
       if ((ring s n).tail % m + m - h % m) % m ≤ ((ring s n).tail % m + m - (ring s n).head % m) % m
       then modRing b n (fun x => { x with head := h }) else b) := by
  have hod : nOd (modRing (fabTake s r false) n (fun x => { x with headOut := false })) n 0x04 = od s (0x1110 + n) 0x04 :=
    od_fabTake_good s r _ _
  have hring : ring (modRing (fabTake s r false) n (fun x => { x with headOut := false })) n = { ring s n with headOut := false } := by
    rw [ring_modRing, ring_fabTake]
  unfold headAnswer ringOut
  dsimp only
  rw [if_neg Bool.false_ne_true, hod, hring]

end

/-- R83: a message due goes out at the end of the holdoff. -/
theorem exec_msgHoldoffExpiry {s : State} (n : Nat) (hp : s.ao.portsUp = true) : exec (.msgHoldoffExpiry n) s
    = .next (if (ring s n).msgDue then messageDue (modRing s n (fun r => { r with holdoff := false })) n
        else modRing s n (fun r => { r with holdoff := false })) := by
  show execMsgHoldoffExpiry n s = _
  rw [execMsgHoldoffExpiry, gate_up hp]
  dsimp only
  rw [ring_modRing]

/-- R83: with no holdoff running a ring that runs, and has an address for it, writes its message. -/
theorem messageDue_writes {s : State} {n : Nat} (haddr : nOd s n 0x07 ≠ 0) (hruns : ringRuns s n = true) (hoff : (ring s n).holdoff = false) :
    messageDue s n = fabSmall (modRing s n (fun r => { r with msgDue := false, msgOut := true, holdoff := decide (nOd s n 0x09 ≠ 0) }))
      (nOd s n 0x07) 4 (nOd s n 0x08) (.msg n) := by
  rw [messageDue, if_neg (by simp [haddr, hruns]), if_neg (by simp [hoff])]

/-- Settles O23: each write waits for what its rule asks, and each answer is that of its request. -/
theorem notice_rings_write_and_retire_records : Obligations.Notice_rings_write_and_retire_records := by
  unfold Obligations.Notice_rings_write_and_retire_records
  refine ⟨fun s n => ⟨fun hp hf x hx hon hgood hroom => ?write, fun tag r k h => ⟨?recordGood, ?recordBad⟩, fun tag r h => ⟨?tailGood, ?tailBad⟩,
    fun tag r h => ⟨?msgGood, ?msgBad⟩⟩, fun s n => ⟨fun hp hf hon hgood hfull hidle => ?reread, fun tag r v h => ⟨?headBad, ?headGood⟩,
    fun hp => ⟨fun hmsg => ?quiet, fun hmsg hon hgood hf haddr => ?due⟩⟩⟩
  case write => exact exec_noticeRecordWrite hp hx ((ringRuns_iff s n).2 ⟨hon, hgood, hf⟩) hroom
  case recordGood => rw [exec_noticeRecordResponse h, recordAnswer_good]
  case recordBad =>
    refine ⟨_, exec_noticeRecordResponse h true, ?_⟩
    rw [ring_recordAnswer_failed]
    exact ⟨rfl, rfl, rfl, fun m hm => ring_recordAnswer_failed_other s r k hm⟩
  case tailGood => rw [exec_tailWordResponse h, tailAnswer_good]
  case tailBad =>
    refine ⟨_, exec_tailWordResponse h true, ?_⟩
    rw [ring_tailAnswer_failed]
    exact ⟨rfl, rfl, rfl⟩
  case msgGood => rw [exec_messageWriteResponse h, messageAnswer_good]
  case msgBad =>
    refine ⟨_, exec_messageWriteResponse h true, ?_⟩
    rw [ring_messageAnswer_failed]
    exact ⟨rfl, rfl⟩
  case reread => exact exec_headWordReread hp ((ringRuns_iff s n).2 ⟨hon, hgood, hf⟩) hfull hidle
  case headBad => exact exec_headWordResponse h true v
  case headGood => rw [exec_headWordResponse h, headAnswer_good]
  case quiet => rw [exec_msgHoldoffExpiry n hp, hmsg, if_neg Bool.false_ne_true]
  case due =>
    have hring := ring_modRing s n (fun r => { r with holdoff := false })
    have hruns : ringRuns (modRing s n (fun r => { r with holdoff := false })) n = true :=
      (ringRuns_iff _ n).2 (by rw [hring]; exact ⟨hon, hgood, hf⟩)
    have hoff : (ring (modRing s n (fun r => { r with holdoff := false })) n).holdoff = false := by rw [hring]
    rw [exec_msgHoldoffExpiry n hp, hmsg, if_pos rfl]
    exact congrArg Host.Outcome.next (messageDue_writes (s := modRing s n (fun r => { r with holdoff := false })) haddr hruns hoff)

end Sys2Proof.Machine
end

section
/-! PROOFS. What commands of one unit leave unchanged (R55, R165, R169, R345, R425, R428, R444). -/

open Sys2Proof.Claims
namespace Sys2Proof.Machine

/-! ### Bystanders -/

/-- The queues, rings, regions, keys, units, held entries and the log. -/
def bystanders (s : State) : SMap Queue × SMap Ring × SMap Region × SMap KeySlot × SMap Led × List Held × List W512 :=
  (s.queues, s.rings, s.regions, s.keys, s.units, s.hold, s.ao.log)

theorem bystanders_eq_iff {t s : State} : bystanders t = bystanders s ↔ t.queues = s.queues ∧ t.rings = s.rings ∧ t.regions = s.regions
    ∧ t.keys = s.keys ∧ t.units = s.units ∧ t.hold = s.hold ∧ t.ao.log = s.ao.log := by
  simp only [bystanders, Prod.mk.injEq]

theorem bystanders_countBy (s : State) (i sub n : Nat) : bystanders (countBy s i sub n) = bystanders s := by
  rw [countBy_changes_od_only]
  rfl

theorem luns_countBy (s : State) (i sub n : Nat) : (countBy s i sub n).luns = s.luns := by
  rw [countBy_changes_od_only]

/-! ### Thresholds that stand (R165) -/

/-- The bystanders and the LUNs. -/
def withLuns (s : State) := (bystanders s, s.luns)

theorem withLuns_countBy (s : State) (i sub n : Nat) : withLuns (countBy s i sub n) = withLuns s :=
  Prod.ext (bystanders_countBy ..) (luns_countBy ..)

/-- R123, R136: pulls that become misses touch their port and a counter. -/
theorem withLuns_missPulls (s : State) (e : Nat) : withLuns (missPulls s e) = withLuns s := by
  unfold missPulls
  dsimp only
  split
  · rfl
  · exact withLuns_countBy ..

theorem withLuns_bus (s : State) (l : Nat) (cs : List BusCyc) : withLuns (bus s l cs) = withLuns s := rfl

theorem withLuns_tookTurn (s : State) (l k : Nat) : withLuns (tookTurn s l k) = withLuns s := rfl

theorem withLuns_postPhase (s : State) (p k : Nat) (ph : Phase) : withLuns (postPhase s p k ph) = withLuns s := rfl

theorem withLuns_invalidateEntry (s : State) (e : Nat) : withLuns (invalidateEntry s e) = withLuns s := by
  unfold invalidateEntry
  split
  · exact (withLuns_countBy ..).trans (withLuns_missPulls s e)
  · rfl

theorem withLuns_invalidatePlanes (s : State) (l : Nat) (planes : List Nat) : withLuns (invalidatePlanes s l planes) = withLuns s :=
  foldl_keeps withLuns (fun s k => invalidateEntry s (cornOf l k)) (fun s _ => withLuns_invalidateEntry s _) planes s

theorem withLuns_beginLoad (pg step : Nat) (s : State) (f : W64) : withLuns (beginLoad pg step s f) = withLuns s := by
  unfold beginLoad
  dsimp only
  split
  · exact withLuns_missPulls ..
  · rfl

/-- State t has the bystanders of s, and every LUN but l. -/
def LeavesBut (l : Nat) (t s : State) : Prop := bystanders t = bystanders s ∧ ∀ j, j ≠ l → lunOf t j = lunOf s j

theorem leavesBut_trans {l : Nat} {u t s : State} (h : LeavesBut l u t) (h' : LeavesBut l t s) : LeavesBut l u s :=
  ⟨h.1.trans h'.1, fun j hj => (h.2 j hj).trans (h'.2 j hj)⟩

theorem leavesBut_of_withLuns {l : Nat} {t s : State} (h : withLuns t = withLuns s) : LeavesBut l t s :=
  ⟨congrArg Prod.fst h, fun j _ => lunOf_congr s t j (congrArg Prod.snd h)⟩

theorem leavesBut_modLun (s : State) (l : Nat) (f : Lun → Lun) : LeavesBut l (modLun s l f) s :=
  ⟨rfl, fun j hj => lunOf_modLun_other s l j f hj⟩

/-- R120: an array read that goes out touches its entries of Cornice, their port and its LUN. -/
theorem leavesBut_loadRows (s : State) (l : Nat) (rows : List W64) (step c : Nat) (hold : List Nat) :
    LeavesBut l (loadRows s l rows step c hold) s :=
  leavesBut_trans (leavesBut_modLun _ l _)
    (leavesBut_of_withLuns (foldl_keeps withLuns (fun s g => beginLoad (fPage g) step s g) (fun s g => withLuns_beginLoad _ _ s g) rows s))

/-- R165: so does the array read of a ladder. -/
theorem leavesBut_ladderRead (s : State) (l : Nat) (y : Ladder) : LeavesBut l (ladderRead s l y) s := by
  unfold ladderRead
  dsimp only
  split
  · exact leavesBut_trans (leavesBut_modLun _ l _) (leavesBut_trans
      (leavesBut_of_withLuns ((withLuns_bus ..).trans (withLuns_invalidatePlanes ..))) (leavesBut_modLun s l _))
  · exact leavesBut_trans (leavesBut_loadRows _ l _ _ _ _) (leavesBut_trans (leavesBut_of_withLuns (withLuns_bus ..)) (leavesBut_modLun s l _))

/-- R165: thresholds that stand issue the array read of their ladder, or let it wait on its port. -/
theorem leavesBut_thresholdsStand {s : State} {l : Nat} {y : Ladder} (hctx : y.ctx ≠ 64) : LeavesBut l (thresholdsStand s l y) s := by
  unfold thresholdsStand
  dsimp only
  rw [if_neg hctx]
  split
  · exact leavesBut_trans (leavesBut_ladderRead _ l y) (leavesBut_of_withLuns (withLuns_tookTurn ..))
  · exact leavesBut_trans (leavesBut_of_withLuns (withLuns_postPhase ..)) (leavesBut_modLun s l _)

theorem exec_thresholdsSet {s : State} {l : Nat} {y : Ladder} (hp : s.ao.portsUp = true) (hy : (lunOf s l).ladder = some y) (hphase : y.phase = 0) :
    exec (.thresholdsSet l) s = .next (thresholdsStand s l y) := by
  show execThresholdsSet l s = _
  rw [execThresholdsSet, gate_up hp, hy]
  dsimp only
  rw [if_neg (not_not.2 hphase)]

/-! ### The copy of the history (R169) -/

/-- The bystanders, the live history, the spurs and the channels. -/
def withTalus (s : State) := (bystanders s, s.talus, s.spurs, s.chans)

theorem withTalus_halfInsert (s : State) (l blk planes cause : Nat) : withTalus (halfInsert s l blk planes cause) = withTalus s := by
  unfold halfInsert
  split <;> rfl

/-- R222: the retry of a locked LUN touches its lock and its ridge's half-erased table. -/
theorem withTalus_lockRetry (s : State) (l : Nat) : withTalus (lockRetry s l) = withTalus s := by
  unfold lockRetry
  split
  · rfl
  · refine foldl_keeps withTalus _ (fun s m => ?_) _ _
    split
    · rfl
    · exact withTalus_halfInsert ..

theorem withTalus_rebuildTables (s : State) : withTalus (rebuildTables s) = withTalus s :=
  foldl_keeps withTalus lockRetry withTalus_lockRetry _ _

/-- R169: the copy is refreshed and a lost table rebuilt, no more. -/
theorem exec_talusSync {s : State} (hp : s.ao.portsUp = true) : ∃ t, exec .talusSync s = .next t ∧ withTalus t = withTalus s := by
  refine ⟨_, gate_up hp _, ?_⟩
  exact withTalus_rebuildTables s

/-! ### Full training (R345) -/

/-- Of the bins from the highest down the first that passes a test is the highest that does. -/
theorem find?_downward {b : Nat} {q : Nat → Bool} (hb : b < 8) (hq : q b = true) (hle : ∀ a, q a = true → a ≤ b) :
    [7, 6, 5, 4, 3, 2, 1, 0].find? q = some b := by
  have hsplit : ∀ b < 8, [7, 6, 5, 4, 3, 2, 1, 0] = [7, 6, 5, 4, 3, 2, 1, 0].take (7 - b) ++ b :: [7, 6, 5, 4, 3, 2, 1, 0].drop (8 - b)
      ∧ ∀ a ∈ [7, 6, 5, 4, 3, 2, 1, 0].take (7 - b), b < a := by decide
  obtain ⟨hlist, habove⟩ := hsplit b hb
  refine List.find?_eq_some_iff_append.2 ⟨hq, _, _, hlist, fun a ha => ?_⟩
  have hlt := habove a ha
  rw [Bool.not_eq_true']
  exact Bool.eq_false_iff.2 fun h => absurd (hle a h) (by omega)

/-- R327: of the bins tried from the highest down the first that passes is the channel's own, where it may use that and it passes. -/
theorem find?_lowerBins {s : State} {c : Nat} {p : Nat → Bool} (hmax : (chan s c).bin ≤ od s 0x4300 0x01)
    (hiface : ifaceBin (chan s c).iface (chan s c).bin = true) (hbin : (chan s c).bin < 8)
    (hluns : ∀ l ∈ foundLuns s, l / 16 = c → (lunOf s l).bins.testBit (chan s c).bin = true) (hpass : p (chan s c).bin = true) :
    (lowerBins s c).find? p = some (chan s c).bin := by
  have hfit : ((foundLuns s).filter (fun l => decide (l / 16 = c))).all (fun l => (lunOf s l).bins.testBit (chan s c).bin) = true :=
    List.all_eq_true.2 fun l hl => hluns l (List.mem_filter.1 hl).1 (of_decide_eq_true (List.mem_filter.1 hl).2)
  unfold lowerBins
  dsimp only
  rw [List.find?_filter]
  refine find?_downward hbin (by simp [hmax, hiface, hfit, hpass]) fun a ha => ?_
  simp only [Bool.and_eq_true, decide_eq_true_eq] at ha
  exact ha.1.1.1.1

/-- State t has the bystanders, the LUNs, the spurs of s, and every channel but c. -/
def LeavesButChan (c : Nat) (t s : State) : Prop :=
  bystanders t = bystanders s ∧ t.luns = s.luns ∧ t.spurs = s.spurs ∧ ∀ j, j ≠ c → chan t j = chan s j

theorem leavesButChan_trans {c : Nat} {u t s : State} (h : LeavesButChan c u t) (h' : LeavesButChan c t s) : LeavesButChan c u s := by
  obtain ⟨hby, hluns, hspurs, hchans⟩ := h
  obtain ⟨hby', hluns', hspurs', hchans'⟩ := h'
  exact ⟨hby.trans hby', hluns.trans hluns', hspurs.trans hspurs', fun j hj => (hchans j hj).trans (hchans' j hj)⟩

theorem leavesButChan_modChan (s : State) (c : Nat) (f : Chan → Chan) : LeavesButChan c (modChan s c f) s :=
  ⟨rfl, rfl, rfl, fun j hj => chan_modChan_other s c j f hj⟩

theorem leavesButChan_count (s : State) (c i sub : Nat) : LeavesButChan c (count s i sub) s := by
  rw [count, countBy_changes_od_only]
  exact ⟨rfl, rfl, rfl, fun _ _ => rfl⟩

/-- R453: the analog settings are the channel's own. -/
theorem setAnalog_spec (s : State) (c b : Nat) : LeavesButChan c (setAnalog s c b) s
    ∧ (chan (setAnalog s c b) c).bin = (chan s c).bin ∧ (chan (setAnalog s c b) c).lost = (chan s c).lost := by
  unfold setAnalog
  rw [chan_modChan]
  exact ⟨leavesButChan_trans (leavesButChan_modChan _ c _) ⟨rfl, rfl, rfl, fun _ _ => rfl⟩, rfl, rfl⟩

/-- R345: so are the delays. -/
theorem noteTrained_spec (s : State) (c : Nat) (ces : List Nat) : LeavesButChan c (noteTrained s c ces) s
    ∧ (chan (noteTrained s c ces) c).bin = (chan s c).bin ∧ (chan (noteTrained s c ces) c).lost = (chan s c).lost := by
  unfold noteTrained
  dsimp only
  rw [chan_modChan]
  exact ⟨leavesButChan_trans (leavesButChan_modChan _ c _) ⟨rfl, rfl, rfl, fun _ _ => rfl⟩, rfl, rfl⟩

/-- R345: the state once full training leaves a channel at a bin: its eye and its count, its settings and its delays, and the record. -/
def trainedAt (s : State) (c : Nat) (eyes : List EyeReport) (b : Nat) : State :=
  let e := eyeMin eyes (foundCes s c) b
  let s := count (setOd s (0x4400 + c) 0x06 e) (0x4400 + c) 0x07
  cairn (noteTrained (setAnalog (modChan s c (fun x => { x with bin := b, lost := false })) c b) c (foundCes s c)) 0x49 (cu 8 c) 0xFFFF (b * 16) 0 e 0 0

theorem trainedAt_spec (s : State) (c : Nat) (eyes : List EyeReport) (b : Nat) : LeavesButChan c (trainedAt s c eyes b) s
    ∧ (chan (trainedAt s c eyes b) c).bin = b ∧ (chan (trainedAt s c eyes b) c).lost = false := by
  unfold trainedAt
  dsimp only
  generalize eyeMin eyes (foundCes s c) b = e
  have hcount : LeavesButChan c (count (setOd s (0x4400 + c) 0x06 e) (0x4400 + c) 0x07) s :=
    leavesButChan_trans (leavesButChan_count _ c _ _) ⟨rfl, rfl, rfl, fun _ _ => rfl⟩
  generalize count (setOd s (0x4400 + c) 0x06 e) (0x4400 + c) 0x07 = a at hcount ⊢
  have hbin := leavesButChan_modChan a c (fun x => { x with bin := b, lost := false })
  have hchan := chan_modChan a c (fun x => { x with bin := b, lost := false })
  generalize modChan a c _ = a1 at hbin hchan ⊢
  obtain ⟨hanalog, hb1, hl1⟩ := setAnalog_spec a1 c b
  obtain ⟨htrain, hb2, hl2⟩ := noteTrained_spec (setAnalog a1 c b) c (foundCes a c)
  generalize noteTrained (setAnalog a1 c b) c (foundCes a c) = a2 at htrain hb2 hl2 ⊢
  rw [hb1, hchan] at hb2
  rw [hl1, hchan] at hl2
  have hcairn : LeavesButChan c (cairn a2 0x49 (cu 8 c) 0xFFFF (b * 16) 0 e 0 0) a2 := ⟨rfl, rfl, rfl, fun _ _ => rfl⟩
  exact ⟨leavesButChan_trans hcairn (leavesButChan_trans htrain (leavesButChan_trans hanalog (leavesButChan_trans hbin hcount))), hb2, hl2⟩

/-- R345: on the way out of Dormant, with every CE passing at the channel's bin, full training leaves it there. -/
theorem exec_fullTrainingDone {s : State} {c : Nat} {eyes : List EyeReport} (hp : s.ao.portsUp = true) (hstate : (chan s c).state = 1)
    (hlost : (chan s c).lost = false) (hun : (chan s c).untrained = true) (hwake : (ridge s (c / 8)).waking = true)
    (hfind : (lowerBins s c).find? (fun b => (foundCes s c).all (fun ce => trains eyes ce b)) = some (chan s c).bin)
    (hall : (foundCes s c).all (fun ce => trains eyes ce (chan s c).bin) = true) :
    exec (.fullTrainingDone c eyes) s = .next (trainedAt (trainBus s c) c eyes (chan s c).bin) := by
  have hwhole : ¬ ((chan s c).state ≠ 1 ∨ ¬ ((chan s c).lost = true ∨ ((chan s c).untrained = true
      ∧ ((ridge s (c / 8)).waking = true ∨ (ridge s (c / 8)).pstate ≠ 3)))) := by simp [hstate, hun, hwake]
  have hchan : chan (trainBus s c) c = chan s c := rfl
  have hces : foundCes (trainBus s c) c = foundCes s c := rfl
  have hbins : lowerBins (trainBus s c) c = lowerBins s c := rfl
  show execFullTrainingDone c eyes s = _
  rw [execFullTrainingDone, gate_up hp]
  dsimp only
  rw [if_neg hwhole, hces, hall, hlost, if_neg (by decide), hbins, hchan, hces, hfind, hlost]
  dsimp only
  rw [if_neg Bool.false_ne_true, if_neg (by decide), trainedAt, hces]
  rfl

/-- Settles O60: each command is followed through the operations it is made of. -/
theorem commands_of_one_unit_leave_the_rest : Obligations.Commands_of_one_unit_leave_the_rest := by
  unfold Obligations.Commands_of_one_unit_leave_the_rest
  intro s
  refine ⟨fun hp => ⟨fun off len tag hoff hlo hhi => ?tread, fun kind hkind => ?reserved, fun tag hnone => ?late, fun l y hy hphase hctx => ?thresholds,
    ?talus, fun c eyes hstate hlost hun hwake hmax hiface hbin hluns hall => ?training⟩, ⟨_, rfl, rfl⟩, ⟨_, rfl, rfl⟩⟩
  case tread => exact ⟨_, exec_tread tag hp hoff ⟨hlo, hhi⟩, rfl, rfl⟩
  case reserved => exact ⟨_, exec_reservedKindMessage hp hkind, countBy_changes_od_only ..⟩
  case late => exact ⟨_, exec_lateResponse hp hnone, countBy_changes_od_only ..⟩
  case thresholds =>
    obtain ⟨hkeep, hluns⟩ := leavesBut_thresholdsStand (s := s) (l := l) hctx
    exact ⟨_, exec_thresholdsSet hp hy hphase, bystanders_eq_iff.1 hkeep, hluns⟩
  case talus =>
    obtain ⟨t, hexec, hkeep⟩ := exec_talusSync hp
    simp only [withTalus, Prod.mk.injEq] at hkeep
    obtain ⟨hby, htalus, hspurs, hchans⟩ := hkeep
    exact ⟨t, hexec, bystanders_eq_iff.1 hby, htalus, hspurs, hchans⟩
  case training =>
    obtain ⟨hkeep, hb, hfound⟩ := trainedAt_spec (trainBus s c) c eyes (chan s c).bin
    have hbus : LeavesButChan c (trainBus s c) s := ⟨rfl, rfl, rfl, fun _ _ => rfl⟩
    obtain ⟨hby, hl, hs, hothers⟩ := leavesButChan_trans hkeep hbus
    exact ⟨_, exec_fullTrainingDone hp hstate hlost hun hwake (find?_lowerBins hmax hiface hbin hluns hall) hall,
      bystanders_eq_iff.1 hby, hl, hs, hb, hfound, hothers⟩

end Sys2Proof.Machine
end

section
/-! PROOFS. Array reads and slots arrive; memory errors, fabric timeouts and write data (R97, R119, R120, R123, R147, R417, R420, R428). -/

open Sys2Proof.Claims
namespace Sys2Proof.Machine

/-! ### The entries of an array read (R118, R120, R122) -/

/-- What the end of its array read makes of a Cornice entry. -/
def loadEnded (held : Bool) (c : Corn) : Corn := if c.loading then { c with loading := false, valid := true, held := held } else c

/-- Whether the read of a plane leaves its entry held: HOLD_US is not 0, and the read was for a class that holds. -/
def holdsPlane (s : State) (held : List Nat) (k : Nat) : Bool := held.contains k && decide (od s 0x5800 0x01 ≠ 0)

theorem loadEnded_idem (held : Bool) (c : Corn) : loadEnded held (loadEnded held c) = loadEnded held c := by
  unfold loadEnded
  split
  · exact if_neg Bool.false_ne_true
  · rfl

theorem finishLoad_cons (s : State) (l k : Nat) (planes held : List Nat) : finishLoad s l (k :: planes) held
    = finishLoad (modCorn s (cornOf l k) (loadEnded (holdsPlane s held k))) l planes held := rfl

theorem cornOf_plane_inj {l k j : Nat} (h : cornOf l k = cornOf l j) : k = j := Nat.add_left_cancel h

/-- The planes read, and no others of the LUN, end their loading; a plane listed twice ends it once. -/
theorem corn_finishLoad (s : State) (l k : Nat) (planes held : List Nat) : corn (finishLoad s l planes held) (cornOf l k)
    = if k ∈ planes then loadEnded (holdsPlane s held k) (corn s (cornOf l k)) else corn s (cornOf l k) := by
  induction planes generalizing s with
  | nil => exact (if_neg List.not_mem_nil).symm
  | cons j js ih =>
    rw [finishLoad_cons, ih]
    have hholds : holdsPlane (modCorn s (cornOf l j) (loadEnded (holdsPlane s held j))) held k = holdsPlane s held k := rfl
    rw [hholds]
    by_cases hjk : k = j
    · subst hjk
      rw [corn_modCorn, loadEnded_idem, ite_self, if_pos List.mem_cons_self]
    · rw [corn_modCorn_other _ _ _ _ fun h => hjk (cornOf_plane_inj h)]
      simp only [List.mem_cons, hjk, false_or]

theorem luns_finishLoad (s : State) (l : Nat) (planes held : List Nat) : (finishLoad s l planes held).luns = s.luns := by
  unfold finishLoad
  refine foldl_keeps (fun t : State => t.luns) _ ?_ planes s
  exact fun _ _ => rfl

/-- With no ladder on the LUN, what waits for it goes on. -/
theorem ladderContent_none {s : State} {l : Nat} (h : (lunOf s l).ladder = none) : ladderContent s l false = climbWaiting s l := by
  rw [ladderContent, h]
  rfl

/-- R120: the end of an array read that no ladder asked for. -/
theorem exec_arrayReadDone {s : State} {l b g st c : Nat} {planes held : List Nat} (hp : s.ao.portsUp = true)
    (hbusy : (lunOf s l).busy = .read planes b g st c held) (hladder : (lunOf s l).ladder = none) : exec (.arrayReadDone l) s
      = .next (climbWaiting (finishLoad (modLun s l (fun x => { x with busy := .idle })) l planes held) l) := by
  have hfree : (lunOf (finishLoad (modLun s l (fun x => { x with busy := .idle })) l planes held) l).ladder = none := by
    rw [lunOf_congr _ _ l (luns_finishLoad ..), lunOf_modLun, hladder]
  show execArrayReadDone l s = _
  rw [execArrayReadDone, gate_up hp, hbusy]
  exact congrArg Host.Outcome.next (ladderContent_none hfree)

/-! ### Slots and acknowledged read data (R97, R147) -/

/-- R147: a slot received ends the first transfer of its port. -/
theorem exec_slotReceived {s : State} {p k : Nat} (slot : Received) (hp : s.ao.portsUp = true) (hk : k < 2) :
    exec (.slotReceived p k slot) s = .next (takeSlot s p k slot.slot slot.rest) := by
  show execSlotReceived p k slot s = _
  rw [execSlotReceived, gate_up hp, Nat.mod_eq_of_lt hk]

/-- R97: the answer to a data write of a read. -/
theorem exec_readDataWriteResponse {s : State} {tag q i : Nat} {r : FabReq} (h : Due s tag r (.rdata q i)) (err : Bool) :
    exec (.readDataWriteResponse tag err) s = .next (rdataAnswer s r q i err) := by
  obtain ⟨hp, hreq, hpurpose⟩ := h
  show execReadDataWriteResponse tag err s = _
  rw [execReadDataWriteResponse, gate_up hp]
  simp only [hreq, hpurpose]

/-- Settles O25: a read's end is folded over its planes, each entry by itself; a slot is that of the first transfer of its port, and an
answer that of its request. -/
theorem array_reads_and_slots_arrive : Obligations.Array_reads_and_slots_arrive := by
  unfold Obligations.Array_reads_and_slots_arrive
  intro s hp
  refine ⟨fun l planes b g st c held hbusy hladder => exec_arrayReadDone hp hbusy hladder, fun l k planes held hloading hk => ?loaded,
    fun p k raw more u rest hk hinfl => ?slot, fun tag r q i h => ⟨?good, ?bad⟩⟩
  case loaded =>
    dsimp only
    rw [corn_finishLoad, if_pos hk, loadEnded, if_pos hloading]
    exact ⟨rfl, rfl, rfl⟩
  case slot =>
    refine (exec_slotReceived _ hp hk).trans (congrArg Host.Outcome.next ?_)
    unfold takeSlot
    split
    · next hnil => exact absurd (hnil.symm.trans hinfl) (List.cons_ne_nil u rest).symm
    · next v later hcons =>
      obtain ⟨rfl, rfl⟩ := List.cons.inj (hcons.symm.trans hinfl)
      rfl
  case good =>
    rw [exec_readDataWriteResponse h, rdataAnswer]
    exact congrArg (fun t => Host.Outcome.next (settle t q i)) (if_neg Bool.false_ne_true)
  case bad =>
    rw [exec_readDataWriteResponse h, rdataAnswer]
    exact congrArg (fun t => Host.Outcome.next (settle t q i)) (if_pos rfl)

/-! ### Memory errors (R417, R420) -/

/-- R417: the error of a memory with nothing armed there by INJECT_MEM; a parity memory corrects nothing (log entry 38). -/
theorem exec_memoryError {s : State} {cls inst : Nat} (addr : Nat) (bad : Bool) (hp : s.ao.portsUp = true) (hcls : memClass cls = true)
    (hnone : s.inject.find? (fun e => decide (e.1 = cls) && decide (e.2.1 = inst)) = none) : exec (.memoryError cls inst addr bad) s
      = .next (if bad = true ∨ parityClass cls = true then memoryLost s cls inst addr
          else faultRecord (count s 0xA000 0x03) cls inst 1 addr 0 false) := by
  show execMemoryError cls inst addr bad s = _
  rw [execMemoryError, gate_up hp, hnone]
  exact congrArg Host.Outcome.next (if_neg (not_not_intro hcls))

/-! ### Requests without answer, and data read (R97, R428) -/

/-- The state a fabric timeout is handled in: it is counted, and its tag set aside for 4 × FAB_TIMEOUT_US (R428). -/
def tagAside (s : State) (tag : Nat) : State :=
  let c := count s 0x1200 0x02
  { c with fab := { c.fab with quarantine := c.fab.quarantine ++ [(tag, s.ao.timeUs + 4 * od c 0x1200 0x01)] } }

theorem ao_count (s : State) (i sub : Nat) : (count s i sub).ao = s.ao := by
  rw [count, countBy_changes_od_only]

/-- What an answer with an error does for each purpose of a request (R97, R428). -/
def lostAnswer (s : State) (r : FabReq) : Purpose → State
  | .fetch q rd => fetchAnswer s r q rd true []
  | .frag q i => fragData (fabTake s r true) q i true []
  | .wdata q i => writeData (fabTake s r true) q i r.addr true []
  | .image => imageData (fabTake s r true) true []
  | .status q i => statusAnswer s r q i true
  | .done q => doneAnswer s r q true
  | .record n k => recordAnswer s r n k true
  | .tail n => tailAnswer s r n true
  | .msg n => messageAnswer s r n true
  | .head n => headAnswer s r n true 0
  | .rdata q i => rdataAnswer s r q i true
  | .stale => fabTake s r true

/-- What data read does for each purpose that reads data (R97). -/
def readAnswer (s : State) (r : FabReq) (err : Bool) (data : List W512) : Purpose → State
  | .wdata q i => writeData (fabTake s r err) q i r.addr err data
  | .frag q i => fragData (fabTake s r err) q i err data
  | .image => imageData (fabTake s r err) err data
  | .stale => fabTake s r err
  | _ => s

/-- R428: a request without answer counts as answered with an error. -/
theorem exec_fabricTimeout {s : State} {tag : Nat} {r : FabReq} {p : Purpose} (h : Due s tag r p) :
    exec (.fabricTimeout tag) s = .next (lostAnswer (tagAside s tag) { r with timedOut := true } p) := by
  obtain ⟨hp, hreq, hpurpose⟩ := h
  show execFabricTimeout tag s = _
  rw [execFabricTimeout, gate_up hp]
  simp only [hreq, hpurpose, ao_count]
  cases p <;> rfl

/-- R97: data read reaches what it was asked for. -/
theorem exec_readData {s : State} {tag : Nat} {r : FabReq} {p : Purpose} (h : Due s tag r p) (err : Bool) (data : List W512) :
    exec (.readData tag err data) s = .next (readAnswer s r err data p) := by
  obtain ⟨hp, hreq, hpurpose⟩ := h
  show execReadData tag err data s = _
  rw [execReadData, gate_up hp]
  simp only [hreq, hpurpose]
  cases p <;> rfl

/-- Settles O45: an error no injection has armed is of the kind the access reports, and a request's purpose says what its answer does. -/
theorem memory_errors_and_fabric_timeouts : Obligations.Memory_errors_and_fabric_timeouts := by
  unfold Obligations.Memory_errors_and_fabric_timeouts
  intro s hp
  refine ⟨fun cls inst addr hcls hnone => ⟨fun hparity => ?corrected, fun hparity => ?parity, ?lost⟩, fun tag r hreq => ?timeout,
    fun tag r err data hreq => ?data⟩
  case corrected => rw [exec_memoryError addr false hp hcls hnone, if_neg (by simp [hparity])]
  case parity => rw [exec_memoryError addr false hp hcls hnone, if_pos (.inr hparity)]
  case lost => rw [exec_memoryError addr true hp hcls hnone, if_pos (.inl rfl)]
  case timeout =>
    exact ⟨fun n i h => exec_fabricTimeout ⟨hp, hreq, h⟩, fun n h => exec_fabricTimeout ⟨hp, hreq, h⟩,
      fun n i h => exec_fabricTimeout ⟨hp, hreq, h⟩, fun h => exec_fabricTimeout ⟨hp, hreq, h⟩⟩
  case data =>
    exact ⟨fun n i h => exec_readData ⟨hp, hreq, h⟩ err data, fun n i h => exec_readData ⟨hp, hreq, h⟩ err data,
      fun h => exec_readData ⟨hp, hreq, h⟩ err data⟩

end Sys2Proof.Machine
end

section
/-! PROOFS. A ladder's read once its thresholds stand, and its end with step 0 restored (R120, R123, R161, R165). -/

namespace Sys2Proof.Machine

/-- R120, R165: the state once a ladder's soft read has gone out: its plane invalid, its cycles driven, the LUN busy with it. -/
def softReadIssued (a : State) (l : Nat) (y : Ladder) : State :=
  modLun (bus (invalidatePlanes a l [y.plane]) l (readCycles a l (blockMode a y.region y.block) [mkFpaB false l y.plane y.block y.page 0])) l
    (fun z => z.issue (.soft y.plane y.block y.page y.ctx y.soft) a.ao.timeUs)

/-- R165: the state in which a ladder on phase 1 issues its read. -/
def ladderReads (s : State) (l : Nat) (y : Ladder) : State := modLun s l (fun z => { z with ladder := some { y with phase := 1 } })

theorem timeUs_invalidatePlanes (s : State) (l : Nat) (planes : List Nat) : (invalidatePlanes s l planes).ao.timeUs = s.ao.timeUs := by
  obtain ⟨-, hclk, -⟩ := kept_invalidatePlanes s l planes
  exact congrArg Clk.timeUs hclk

/-- R162, R165: at rung 4 a ladder's read is a soft read. -/
theorem ladderRead_soft {s : State} {l : Nat} {y : Ladder} (h : y.rung = 4) : ladderRead s l y = softReadIssued (ladderReads s l y) l y := by
  rw [softReadIssued, ← timeUs_invalidatePlanes _ l [y.plane]]
  exact if_pos h

/-- R120, R165: at the others it is an array read at the ladder's step, held for class 0 and 1. -/
theorem ladderRead_retry {s : State} {l : Nat} {y : Ladder} (h : y.rung ≠ 4) : ladderRead s l y
    = issueRead (ladderReads s l y) l [mkFpaB false l y.plane y.block y.page 0] y.step y.ctx
        (if (y.ctx :: y.joined).any (fun c => decide ((ctxOf (ladderReads s l y) (lunSpur l) c).cls ≤ 1)) then [y.plane] else []) :=
  if_neg h

section
variable {s : State} {l : Nat} {y : Ladder} (hctx : y.ctx ≠ 64)
include hctx

/-- R165: with its LUN open to array reads, in its turn on the port, the ladder reads. -/
theorem thresholdsStand_reads (hopen : arrayOpen s l = true) (hturn : portTurn s l (ctxOf s (lunSpur l) y.ctx).cls (s.turns + 1) = true) :
    thresholdsStand s l y = ladderRead (tookTurn s l (ctxOf s (lunSpur l) y.ctx).cls) l y := by
  simp only [thresholdsStand, if_neg hctx, hopen, hturn, and_self, if_true]

/-- R123, R124: otherwise its read waits on the port. -/
theorem thresholdsStand_waits
    (hwait : arrayOpen s l = false ∨ portTurn s l (ctxOf s (lunSpur l) y.ctx).cls (s.turns + 1) = false) :
    thresholdsStand s l y = postPhase (modLun s l (fun z => { z with ladder := some { y with phase := 4 } })) (lunSpur l) (lunPort l)
      { ctx := y.ctx, cls := (ctxOf s (lunSpur l) y.ctx).cls, kind := .arrayRead, lun := l, plane := y.plane,
        fpa := mkFpaB false l y.plane y.block y.page 0 } := by
  have hnot : ¬ (arrayOpen s l = true ∧ portTurn s l (ctxOf s (lunSpur l) y.ctx).cls (s.turns + 1) = true) := by
    simpa only [not_and_or, Bool.not_eq_true] using hwait
  simp only [thresholdsStand, if_neg hctx, if_neg hnot]

end

/-- R161, R337: with step 0 restored the ladder is gone, and its LUN and the CE's other one serve what waits. -/
theorem exec_stepZeroRestored {s : State} {l : Nat} {y : Ladder} (hp : s.ao.portsUp = true) (hy : (lunOf s l).ladder = some y) (hphase : y.phase = 3) :
    exec (.stepZeroRestored l) s
      = .next (climbWaiting (climbWaiting (modLun s l (fun z => { z with ladder := none })) l) (twin l)) := by
  show execStepZeroRestored l s = _
  rw [execStepZeroRestored, gate_up hp, hy]
  exact congrArg Host.Outcome.next (if_pos hphase)

/-- Settles O28: the rung says which read thresholds that stand issue, and its LUN and port whether it goes out at once. -/
theorem thresholds_are_set_and_restored : Obligations.Thresholds_are_set_and_restored := by
  unfold Obligations.Thresholds_are_set_and_restored
  intro s l y hp hy k f a
  refine ⟨fun hphase hctx hopen hturn => ⟨fun hrung => ?retry, fun hrung => ?soft⟩, fun hphase hctx hwait => ?waits,
    exec_stepZeroRestored hp hy⟩
  case retry => rw [exec_thresholdsSet hp hy hphase, thresholdsStand_reads hctx hopen hturn, ladderRead_retry hrung]; rfl
  case soft => rw [exec_thresholdsSet hp hy hphase, thresholdsStand_reads hctx hopen hturn, ladderRead_soft hrung]; rfl
  case waits => rw [exec_thresholdsSet hp hy hphase, thresholdsStand_waits hctx hwait]; rfl

end Sys2Proof.Machine
end

section
/-! PROOFS. Status polls, the times a LUN is held to, and the phases of a port (R124, R128, R332, R333, R340, R347, R377). -/

open Sys2Proof.Claims
namespace Sys2Proof.Machine

/-! ### What a poll returns (R128, R332) -/

/-- Two changes that make the same of a LUN are one. -/
theorem modLun_eq_of_lun {s : State} {l : Nat} {f g : Lun → Lun} (h : f (lunOf s l) = g (lunOf s l)) : modLun s l f = modLun s l g := by
  have hvalue : f (s.luns.get {} l) = g (s.luns.get {} l) := h
  simp only [modLun, SMap.modify, hvalue]

/-- R313: the state once a poll has gone out and its byte is latched. -/
def pollLatched (s : State) (l : Nat) (byte : Byte) : State := latchDie (bus s l (pollCycles s l)) l byte

/-- R124: out of its turn no poll goes out. -/
theorem dieResult_out_of_turn {s : State} {l : Nat} (byte : Byte) (f : State → State) (hturn : pollTurn s l = false) :
    dieResult s l byte f = s :=
  if_pos (ne_true_of_eq_false hturn)

section
variable {s : State} {l : Nat} {byte : Byte} (f : State → State) (hturn : pollTurn s l = true)
include hturn

/-- In its turn a poll goes out; what its byte says is judged for a busy LUN alone. -/
theorem dieResult_in_turn : dieResult s l byte f
    = if (lunOf s l).busy = .idle then pollLatched s l byte
      else if statusInvalid byte (chan s (l / 16)).wp = true then invalidStatus (pollLatched s l byte) l
      else if byte.getLsbD 6 = true then f (polled s l byte) else polled s l byte := by
  have hbusy : (lunOf (pollLatched s l byte) l).busy = (lunOf s l).busy := by rw [pollLatched, lunOf_latchDie_bus]
  have hchan : chan (pollLatched s l byte) (l / 16) = chan s (l / 16) := chan_congr _ _ _ (chans_latchDie ..)
  rw [← hbusy, ← hchan, dieResult, if_neg (not_not.2 hturn)]
  rfl

/-- R313: the byte of an idle LUN is latched, no more. -/
theorem dieResult_idle (hbusy : (lunOf s l).busy = .idle) : dieResult s l byte f = pollLatched s l byte := by
  rw [dieResult_in_turn f hturn, if_pos hbusy]

/-- R332: a valid byte with RDY clear says that the LUN still runs. -/
theorem dieResult_running (hbusy : (lunOf s l).busy ≠ .idle) (hvalid : statusInvalid byte (chan s (l / 16)).wp = false)
    (hrdy : byte.getLsbD 6 = false) : dieResult s l byte f = polled s l byte := by
  rw [dieResult_in_turn f hturn, if_neg hbusy, if_neg (ne_true_of_eq_false hvalid), if_neg (ne_true_of_eq_false hrdy)]

/-- R332: an invalid byte is read again, but for the third in a row. -/
theorem dieResult_invalid (hbusy : (lunOf s l).busy ≠ .idle) (hinvalid : statusInvalid byte (chan s (l / 16)).wp = true) :
    dieResult s l byte f = invalidStatus (pollLatched s l byte) l := by
  rw [dieResult_in_turn f hturn, if_neg hbusy, if_pos hinvalid]

end

theorem invalid_pollLatched (s : State) (l : Nat) (byte : Byte) : (lunOf (pollLatched s l byte) l).invalid = (lunOf s l).invalid := by
  rw [pollLatched, lunOf_latchDie_bus]

/-! ### What a poll that shows RDY says (R128, R340) -/

/-- R340: it shows a suspension that is awaited; otherwise what the LUN runs has ended. -/
def readyShown (l : Nat) (byte : Byte) (z : State) : State :=
  if (lunOf z l).susp ≠ none ∧ showsSuspended z l byte then
    modLun z l (fun x => { x with susp := x.susp.map (fun u => { u with shown := true }) })
  else pollReady z l

theorem exec_statusPoll {s : State} (l : Nat) (byte : Byte) (hp : s.ao.portsUp = true) :
    exec (.statusPoll l byte) s = .next (dieResult s l byte (readyShown l byte)) :=
  gate_up hp _

/-- A poll changes nothing that tells a suspension. -/
theorem showsSuspended_polled (s : State) (l : Nat) (byte b : Byte) : showsSuspended (polled s l byte) l b = showsSuspended s l b := by
  rw [showsSuspended, cmdByte, lunOf_polled]
  rfl

/-- R340: a suspension shows. -/
theorem readyShown_suspended {s : State} {l : Nat} {byte : Byte} {u : Susp} (hsusp : (lunOf s l).susp = some u)
    (hshows : showsSuspended s l byte = true) : readyShown l byte (polled s l byte)
      = modLun (polled s l byte) l (fun x => { x with susp := some { u with shown := true } }) := by
  have hz : (lunOf (polled s l byte) l).susp = some u := by rw [lunOf_polled]; exact hsusp
  rw [readyShown, if_pos ⟨by simp [hz], by rw [showsSuspended_polled, hshows]⟩]
  exact modLun_eq_of_lun (by rw [hz]; rfl)

/-- R128: with no suspension to show the poll tells an end. -/
theorem readyShown_ended {s : State} {l : Nat} {byte : Byte} (h : (lunOf s l).susp = none ∨ showsSuspended s l byte = false) :
    readyShown l byte (polled s l byte) = pollReady (polled s l byte) l := by
  have hz : (lunOf (polled s l byte) l).susp = (lunOf s l).susp := by rw [lunOf_polled]
  rw [readyShown, if_neg ?_]
  rw [hz, showsSuspended_polled]
  rintro ⟨hsusp, hshows⟩
  exact h.elim hsusp fun hnot => by simp [hnot] at hshows

/-- R128, R340: a poll that finds its LUN ready and no suspension to show ends what the LUN runs. -/
theorem exec_statusPoll_ended {s : State} {l : Nat} {byte : Byte} (hp : s.ao.portsUp = true) (hready : Ready s l byte)
    (h : (lunOf s l).susp = none ∨ showsSuspended s l byte = false) :
    exec (.statusPoll l byte) s = .next (pollReady (polled s l byte) l) := by
  rw [exec_statusPoll l byte hp, dieResult_of_ready hready, readyShown_ended h]

/-! ### Times a LUN is held to (R333, R340, R347) -/

/-- R333: a LUN busy beyond its time fails its die. -/
theorem exec_busyTimeout_overdue {s : State} {l : Nat} (us : Nat) (hp : s.ao.portsUp = true) (hbusy : (lunOf s l).busy ≠ .idle)
    (hconfirmed : dataInOpen s l = false) (hdata : (lunOf s l).busy.dataIn = false) (hlost : (chan s (l / 16)).lost = false)
    (hlate : overdue s ((lunOf s l).ranUs + (s.ao.timeUs - (lunOf s l).startUs)) (busyMax s l) = true) :
    exec (.busyTimeout l us) s = .next (dieFail (countTimeout s l) l 1) :=
  (gate_up hp _).trans (congrArg _ (if_pos
    ⟨ne_true_of_eq_false hlost, .inl ⟨hbusy, ne_true_of_eq_false hconfirmed, ne_true_of_eq_false hdata⟩, hlate⟩))

/-- R347: on a channel that has lost its training no LUN times out. -/
theorem exec_busyTimeout_lost {s : State} {l : Nat} (us : Nat) (hp : s.ao.portsUp = true) (hlost : (chan s (l / 16)).lost = true) :
    exec (.busyTimeout l us) s = .next s :=
  (gate_up hp _).trans (congrArg _ (if_neg fun h => h.1 hlost))

/-- R340: a suspension that has not shown in its time fails its die. -/
theorem exec_suspendPollTimeout_overdue {s : State} {l : Nat} {u : Susp} (us : Nat) (hp : s.ao.portsUp = true)
    (hsusp : (lunOf s l).susp = some u) (hobs : u.observed = false) (hshown : u.shown = false) (hlost : (chan s (l / 16)).lost = false)
    (hlate : overdue s (s.ao.timeUs - u.since) (suspendTime s l) = true) :
    exec (.suspendPollTimeout l us) s = .next (dieFail (countTimeout s l) l 1) := by
  show execSuspendPollTimeout l us s = _
  rw [execSuspendPollTimeout, gate_up hp, hsusp]
  exact congrArg _ (if_neg (by simp [hlost, hobs, hshown, hlate]))

/-- R347: nor does one on a channel that has lost its training. -/
theorem exec_suspendPollTimeout_lost {s : State} {l : Nat} (us : Nat) (hp : s.ao.portsUp = true) (hlost : (chan s (l / 16)).lost = true) :
    exec (.suspendPollTimeout l us) s = .next s := by
  show execSuspendPollTimeout l us s = _
  rw [execSuspendPollTimeout, gate_up hp]
  cases (lunOf s l).susp with
  | none => rfl
  | some u => exact congrArg _ (if_pos (.inl hlost))

/-! ### Phases of a port (R124, R347, R377) -/

/-- R124: a free port runs the phase chosen. -/
theorem exec_portPhaseSelect_runs {s : State} {p k i : Nat} (hp : s.ao.portsUp = true) (hk : k < 2)
    (hfree : portFree s (16 * (2 * p + k)) = true)
    (hpick : (if (spur s p).stopped then choosePosted s (port s p k) else choosePhase s p k) = some i) :
    exec (.portPhaseSelect p k) s = .next (runPhase s p k i) := by
  show execPortPhaseSelect p k s = _
  rw [execPortPhaseSelect, gate_up hp]
  dsimp only
  rw [Nat.mod_eq_of_lt hk, if_neg (not_not.2 hfree), hpick]

/-- R22, R347, R377: a port that is not free runs none. -/
theorem exec_portPhaseSelect_waits {s : State} {p k : Nat} (hp : s.ao.portsUp = true) (hk : k < 2)
    (hfree : portFree s (16 * (2 * p + k)) = false) : exec (.portPhaseSelect p k) s = .next s := by
  show execPortPhaseSelect p k s = _
  rw [execPortPhaseSelect, gate_up hp]
  dsimp only
  rw [Nat.mod_eq_of_lt hk, if_pos (ne_true_of_eq_false hfree)]

/-- Settles O24: each status byte of a poll in its turn falls in one case, and a timeout is what the block's own time says. -/
theorem port_phases_polls_and_timeouts : Obligations.Port_phases_polls_and_timeouts := by
  unfold Obligations.Port_phases_polls_and_timeouts
  intro s p l us i byte hp
  refine ⟨fun k => exec_portPhaseSelect_runs hp, fun k => exec_portPhaseSelect_waits hp,
    fun hturn => ⟨fun hidle => ?idle, fun hbusy hvalid => ⟨?latched, fun hrdy => ?running, fun hrdy u hsusp hshows => ?suspended,
      fun hrdy => exec_statusPoll_ended hp ⟨hturn, hbusy, hvalid, hrdy⟩⟩, fun hbusy hinvalid => ⟨fun hfew => ?again, fun hthird => ?third⟩⟩,
    fun hturn => ?waits, exec_busyTimeout_overdue us hp,
    fun hlost _ => ⟨exec_busyTimeout_lost us hp hlost, exec_suspendPollTimeout_lost us hp hlost⟩,
    fun u => exec_suspendPollTimeout_overdue us hp⟩
  case idle => rw [exec_statusPoll l byte hp, dieResult_idle _ hturn hidle, pollLatched]
  case latched => exact congrArg (·.dieStatus) (lunOf_polled s l byte)
  case running => exact (exec_statusPoll l byte hp).trans (congrArg _ (dieResult_running _ hturn hbusy hvalid hrdy))
  case suspended =>
    rw [exec_statusPoll l byte hp, dieResult_of_ready ⟨hturn, hbusy, hvalid, hrdy⟩, readyShown_suspended hsusp hshows, polled]
  case again =>
    rw [exec_statusPoll l byte hp, dieResult_invalid _ hturn hbusy hinvalid, invalidStatus, invalid_pollLatched, if_neg (by omega), pollLatched]
  case third =>
    rw [exec_statusPoll l byte hp, dieResult_invalid _ hturn hbusy hinvalid, invalidStatus, invalid_pollLatched, if_pos hthird, pollLatched]
  case waits => rw [exec_statusPoll l byte hp, dieResult_out_of_turn _ _ hturn]

end Sys2Proof.Machine
end

section
/-! PROOFS. DIE_FEATURE descriptors: their commands, and the value they report (R120, R123, R124, R128, R348). -/

open Sys2Proof.Claims
namespace Sys2Proof.Machine

/-! ### Forms of a DIE_FEATURE (R330, R348) -/

theorem featureCtx_subop {s : State} {p c sub : Nat} (h : featureCtx s p c sub = true) : bitsOf (ctxOf s p c).desc.body 7 0 = sub := by
  rw [featureCtx, Bool.and_eq_true] at h
  exact of_decide_eq_true h.2

/-- R348: the first two sub-operations are CE-wide. -/
theorem featureWide_ce {s : State} {d : Desc} (h : bitsOf d.body 7 0 ≤ 1) : featureWide s d = true := by
  rw [featureWide, decide_eq_true h, Bool.true_or]

/-- R337, R348: the others are where the LUN has no features of its own. -/
theorem featureWide_lun {s : State} {d : Desc} (h : 2 ≤ bitsOf d.body 7 0) : featureWide s d = !(lunOf s (fBlun d.phys)).geom.getLsbD 16 := by
  rw [featureWide, decide_eq_false (by omega), Bool.false_or, wideFeatures]

/-- R348: a GET form is deferred by no hold. -/
theorem featureReady_get {s : State} {d : Desc} (hget : bitsOf d.body 7 0 % 2 = 0)
    (hfree : featureFree s (fBlun d.phys) (featureWide s d) = true) : featureReady s d = true := by
  simp [featureReady, hfree, hget]

/-- R123, R348: a SET form goes where none defers it. -/
theorem featureReady_set {s : State} {d : Desc} (hfree : featureFree s (fBlun d.phys) (featureWide s d) = true)
    (hopen : holdDefers s (fBlun d.phys) = false) : featureReady s d = true := by
  simp [featureReady, hfree, hopen]

/-- A LUN free for a DIE_FEATURE runs nothing. -/
theorem busy_of_featureReady {s : State} {d : Desc} (h : featureReady s d = true) : (lunOf s (fBlun d.phys)).busy = .idle := by
  simp only [featureReady, featureFree, lunIdle, Bool.and_eq_true, decide_eq_true_eq] at h
  obtain ⟨⟨⟨⟨⟨⟨hbusy, -⟩, -⟩, -⟩, -⟩, -⟩, -⟩ := h
  exact hbusy

/-- The cycles all forms begin with: the command of the CE-wide form or that of the LUN's own, and the feature address (R330). -/
def featureHead (l : Nat) (wide : Bool) (whole one feature : Nat) : List BusCyc :=
  [.cmd (if wide then whole else one)] ++ (if wide then [] else lunAddr l) ++ [.addr feature]

theorem getFeature_eq_head (l : Nat) (wide : Bool) {feature : Nat} (h : feature < 256) :
    getFeature l wide feature = featureHead l wide 0xEE 0xD4 feature ++ [.dout 4] := by
  rw [getFeature, Nat.mod_eq_of_lt h, featureHead]
  exact List.append_cons _ _ _

theorem setFeature_eq_head (l : Nat) (wide : Bool) {feature : Nat} (v : Nat) (h : feature < 256) :
    setFeature l wide feature v = featureHead l wide 0xEF 0xD5 feature ++ [.param (BitVec.ofNat 32 v)] := by
  rw [setFeature, Nat.mod_eq_of_lt h, featureHead]
  exact List.append_cons _ _ _

/-- The feature address of a descriptor is a byte. -/
theorem featureAddr_lt (d : Desc) : bitsOf d.body 15 8 < 256 := bitsOf_lt d.body 15 8

/-! ### The command goes out (R124, R348) -/

/-- R120: the LUNs whose entries a SET form invalidates. -/
theorem invalidateLuns_form (s : State) (l : Nat) (wide : Bool) : invalidateLuns s (if wide then [l / 2 * 2, l / 2 * 2 + 1] else [l])
    = if wide then invalidateLuns s [l / 2 * 2, l / 2 * 2 + 1] else invalidateLun s l := by
  have hone : invalidateLuns s [l] = invalidateLun s l := by rw [invalidateLuns, List.foldl_cons, List.foldl_nil]
  rw [apply_ite (invalidateLuns s), hone]

/-- The state once the cycles of a DIE_FEATURE of context c, which is x, have gone out: its LUN is busy with it. -/
def featureIssued (s : State) (c : Nat) (x : Ctx) (cycles : List BusCyc) : State :=
  let l := fBlun x.desc.phys
  modLun (bus (tookTurn s l x.cls) l (.ce x.desc.phys :: cycles)) l (fun y => y.issue (.feature c) s.ao.timeUs)

theorem busy_featureIssued (s : State) (c : Nat) (x : Ctx) (cycles : List BusCyc) :
    (lunOf (featureIssued s c x cycles) (fBlun x.desc.phys)).busy = .feature c := by
  rw [featureIssued, lunOf_modLun]
  rfl

section
variable {s : State} {p c l : Nat} {x : Ctx} (hx : ctxOf s p c = x) (hl : fBlun x.desc.phys = l) (hstage : x.stage ≠ 6)
include hx hl hstage

section
variable (hready : featureReady s x.desc = true) (hturn : portTurn s l x.cls x.no = true)
include hready hturn

/-- R348: a GET form goes out on a LUN that is ready for it. -/
theorem featureGet_issues (v : BitVec 32) : featureGet s p c v
    = featureIssued s c x (featureHead l (featureWide s x.desc) 0xEE 0xD4 (bitsOf x.desc.body 15 8) ++ [.dout 4]) := by
  subst hx hl
  have hidle : ¬ (lunOf s (fBlun (ctxOf s p c).desc.phys)).busy = .feature c := by
    rw [busy_of_featureReady hready]; exact Busy.noConfusion
  rw [featureGet, if_neg hstage, if_neg hidle, getFeature_eq_head _ _ (featureAddr_lt _), featureGo, if_pos ⟨hready, hturn⟩, featureIssued]

/-- R120, R348: a SET form goes out, and the entries behind the CE, or of the LUN, are invalid. -/
theorem featureSet_issues : featureSet s p c
    = invalidateLuns (featureIssued s c x (featureHead l (featureWide s x.desc) 0xEF 0xD5 (bitsOf x.desc.body 15 8)
          ++ [.param (BitVec.ofNat 32 x.desc.arg)]))
        (if featureWide s x.desc then [l / 2 * 2, l / 2 * 2 + 1] else [l]) := by
  subst hx hl
  have hidle : ¬ (lunOf s (fBlun (ctxOf s p c).desc.phys)).busy = .feature c := by
    rw [busy_of_featureReady hready]; exact Busy.noConfusion
  have hgo : ∀ cycles, featureGo s p c cycles = featureIssued s c (ctxOf s p c) cycles := fun cycles => if_pos ⟨hready, hturn⟩
  rw [featureSet, if_neg hstage, if_neg hidle, hgo, setFeature_eq_head _ _ _ (featureAddr_lt _)]
  dsimp only
  rw [if_pos (busy_featureIssued ..), invalidateLuns_form]

end

/-! ### It waits for its LUN, and reports (R128, R348) -/

variable (hbusy : (lunOf s l).busy = .feature c)
include hbusy

theorem featureGet_waits (v : BitVec 32) : featureGet s p c v = s := by
  subst hx hl
  rw [featureGet, if_neg hstage, if_pos hbusy]

theorem featureSet_waits : featureSet s p c = s := by
  subst hx hl
  rw [featureSet, if_neg hstage, if_pos hbusy]

end

/-- R348: with its LUN polled to its end a GET form reports the value read. -/
theorem featureGet_reports {s : State} {p c : Nat} (v : BitVec 32) (hstage : (ctxOf s p c).stage = 6) :
    featureGet s p c v = reportDesc (freeCtx s p c) (ctxOf s p c).desc ⟨0, 0, v.toNat⟩ := by
  rw [featureGet, if_pos hstage, featureEnd, Nat.mod_eq_of_lt v.isLt]

/-- R348: a SET form reports the value written. -/
theorem featureSet_reports {s : State} {p c : Nat} (hstage : (ctxOf s p c).stage = 6) :
    featureSet s p c = reportDesc (freeCtx s p c) (ctxOf s p c).desc ⟨0, 0, (ctxOf s p c).desc.arg % 2 ^ 32⟩ := by
  rw [featureSet, if_pos hstage, featureEnd]

/-- R128, R348: a poll that shows the LUN of a DIE_FEATURE ready lets its context end. -/
theorem pollReady_feature {s : State} {l c : Nat} (hbusy : (lunOf s l).busy = .feature c) : pollReady s l
    = climbWaiting (modCtx (modLun s l (fun x => { x with busy := .idle })) (lunSpur l) c (fun x => { x with stage := 6 })) l := by
  rw [pollReady, hbusy]

/-! ### The rows of the table (R348) -/

section
variable {s : State} {p c : Nat} (v : BitVec 32) (hp : s.ao.portsUp = true)
include hp

theorem exec_getFeatures_run (hctx : featureCtx s p c 0 = true) : exec (.getFeatures (.run p c v)) s = .next (featureGet s p c v) :=
  (gate_up hp _).trans (congrArg _ (if_pos hctx))

theorem exec_setFeatures_run (hctx : featureCtx s p c 1 = true) : exec (.setFeatures (.run p c v)) s = .next (featureSet s p c) :=
  (gate_up hp _).trans (congrArg _ (if_pos hctx))

theorem exec_lunGetFeatures_run (hctx : featureCtx s p c 2 = true) : exec (.lunGetFeatures (.run p c v)) s = .next (featureGet s p c v) :=
  (gate_up hp _).trans (congrArg _ (if_pos hctx))

theorem exec_lunSetFeatures_run (hctx : featureCtx s p c 3 = true) : exec (.lunSetFeatures (.run p c v)) s = .next (featureSet s p c) :=
  (gate_up hp _).trans (congrArg _ (if_pos hctx))

end

/-- Settles O11: the sub-operation gives the form, which the rows of a direction share; the poll's end and the report are the same for all. -/
theorem feature_commands_run_on_an_idle_LUN : Obligations.Feature_commands_run_on_an_idle_LUN := by
  unfold Obligations.Feature_commands_run_on_an_idle_LUN
  intro s p c sub v hp hctx d l shared form x go get set done
  have hsub : bitsOf d.body 7 0 = sub := featureCtx_subop hctx
  refine ⟨fun hstage hturn => ?issue, fun hstage hbusy => ?wait, fun byte hready hsusp hbusy => ?poll, fun hstage => ?report⟩
  case issue =>
    have hget : ∀ wide, featureWide s d = wide → sub % 2 = 0 → featureFree s l wide = true → .next (featureGet s p c v) = get wide := by
      rintro _ rfl heven hfree
      exact congrArg _ (featureGet_issues rfl rfl hstage (featureReady_get (hsub ▸ heven) hfree) hturn v)
    have hset : ∀ wide, featureWide s d = wide → featureFree s l wide = true → holdDefers s l = false → .next (featureSet s p c) = set wide := by
      rintro _ rfl hfree hopen
      exact congrArg _ (featureSet_issues rfl rfl hstage (featureReady_set hfree hopen) hturn)
    refine ⟨?_, ?_, ?_, ?_⟩
    · rintro rfl hfree
      exact (exec_getFeatures_run v hp hctx).trans (hget true (featureWide_ce (by omega)) rfl hfree)
    · rintro rfl hfree hopen
      exact (exec_setFeatures_run v hp hctx).trans (hset true (featureWide_ce (by omega)) hfree hopen)
    · rintro rfl hfree
      exact (exec_lunGetFeatures_run v hp hctx).trans (hget shared (featureWide_lun (by omega)) rfl hfree)
    · rintro rfl hfree hopen
      exact (exec_lunSetFeatures_run v hp hctx).trans (hset shared (featureWide_lun (by omega)) hfree hopen)
  case wait =>
    have hget : featureGet s p c v = s := featureGet_waits rfl rfl hstage hbusy v
    have hset : featureSet s p c = s := featureSet_waits rfl rfl hstage hbusy
    refine ⟨?_, ?_, ?_, ?_⟩ <;> rintro rfl
    · rw [exec_getFeatures_run v hp hctx, hget]
    · rw [exec_setFeatures_run v hp hctx, hset]
    · rw [exec_lunGetFeatures_run v hp hctx, hget]
    · rw [exec_lunSetFeatures_run v hp hctx, hset]
  case poll =>
    have hpolled : (lunOf (polled s l byte) l).busy = .feature c := by rw [lunOf_polled]; exact hbusy
    rw [exec_statusPoll_ended hp hready (.inl hsusp), pollReady_feature hpolled]
  case report =>
    refine ⟨?_, ?_, ?_, ?_⟩ <;> rintro rfl
    · rw [exec_getFeatures_run v hp hctx, featureGet_reports v hstage]
    · rw [exec_setFeatures_run v hp hctx, featureSet_reports hstage]
    · rw [exec_lunGetFeatures_run v hp hctx, featureGet_reports v hstage]
    · rw [exec_lunSetFeatures_run v hp hctx, featureSet_reports hstage]

end Sys2Proof.Machine
end

section
/-! PROOFS. The line-check bits as a remainder of polynomials (R144, R146). -/

open Sys2Proof.Claims
namespace Sys2Proof.Machine

/-! ### Division of polynomials over GF(2) (R144, R145) -/

/-- The polynomial over GF(2) whose coefficients are the lowest n bits of a number. -/
noncomputable def bitPoly (n a : Nat) : Polynomial (ZMod 2) := ∑ j ∈ Finset.range n, if a.testBit j then Polynomial.X ^ j else 0

theorem coeff_bitPoly (n a i : Nat) : (bitPoly n a).coeff i = if i < n ∧ a.testBit i then 1 else 0 := by
  have hterm : ∀ j, (if a.testBit j then (Polynomial.X : Polynomial (ZMod 2)) ^ j else 0).coeff i
      = if i = j then (if a.testBit i then 1 else 0) else 0 := fun j => by
    by_cases hij : i = j
    · subst hij
      split <;> simp
    · split <;> simp [Polynomial.coeff_X_pow, hij]
  rw [bitPoly, Polynomial.finsetSum_coeff, Finset.sum_congr rfl fun j _ => hterm j, Finset.sum_ite_eq, ite_and]
  simp only [Finset.mem_range]

/-- Adding over GF(2) is the exclusive or of the bits. -/
theorem bitPoly_xor (n a b : Nat) : bitPoly n (a ^^^ b) = bitPoly n a + bitPoly n b := by
  have htwo : (1 + 1 : ZMod 2) = 0 := rfl
  ext i
  rw [Polynomial.coeff_add, coeff_bitPoly, coeff_bitPoly, coeff_bitPoly, Nat.testBit_xor]
  by_cases hi : i < n <;> cases a.testBit i <;> cases b.testBit i <;> simp [hi, htwo]

/-- Shifting by k multiplies by x^k, while the word is long enough. -/
theorem bitPoly_shiftLeft {n k g : Nat} (hg : g <<< k < 2 ^ n) : bitPoly n (g <<< k) = Polynomial.X ^ k * bitPoly n g := by
  have hzero : ∀ i, k ≤ i → n ≤ i → g.testBit (i - k) = false := fun i hk hn => by
    have hbit : (g <<< k).testBit i = false := Nat.testBit_lt_two_pow (hg.trans_le (Nat.pow_le_pow_right (by decide) hn))
    simpa [Nat.testBit_shiftLeft, hk] using hbit
  ext i
  rw [Polynomial.coeff_X_pow_mul', coeff_bitPoly, Nat.testBit_shiftLeft]
  by_cases hk : k ≤ i
  · rw [if_pos hk, coeff_bitPoly]
    by_cases hn : i < n
    · simp [hk, hn, show i - k < n by omega]
    · simp [hn, hzero i hk (Nat.le_of_not_lt hn)]
  · simp [hk]

section
variable {d g : Nat} (htop : g.testBit d = true) (hsize : g < 2 ^ (d + 1))
include hsize

/-- The divisor moved under bit n. -/
theorem shiftLeft_lt {n : Nat} (hn : d ≤ n) : g <<< (n - d) < 2 ^ (n + 1) := by
  rw [Nat.shiftLeft_eq, show n + 1 = (d + 1) + (n - d) by omega, Nat.pow_add]
  exact Nat.mul_lt_mul_of_pos_right hsize (Nat.two_pow_pos _)

/-- Each step of the division takes a multiple of the divisor away. -/
theorem bitPoly_polyMod_modByMonic {N : Nat} (n a : Nat) (hN : n ≤ N) (hmonic : (bitPoly N g).Monic) :
    bitPoly N (polyMod d g n a) %ₘ bitPoly N g = bitPoly N a %ₘ bitPoly N g := by
  induction n generalizing a with
  | zero => rfl
  | succ n ih =>
    rw [polyMod, ih _ (by omega)]
    by_cases hstep : (a.testBit n && decide (d ≤ n)) = true
    · have hdn : d ≤ n := by simp_all
      have hshift : g <<< (n - d) < 2 ^ N := (shiftLeft_lt hsize hdn).trans_le (Nat.pow_le_pow_right (by decide) hN)
      rw [if_pos hstep, bitPoly_xor, Polynomial.add_modByMonic, bitPoly_shiftLeft hshift,
        (Polynomial.modByMonic_eq_zero_iff_dvd hmonic).2 (dvd_mul_left _ _), add_zero]
    · rw [if_neg hstep]

include htop

/-- Taking the divisor from under the top bit leaves a shorter dividend. -/
theorem xor_shiftLeft_lt {n a : Nat} (hn : d ≤ n) (ha : a < 2 ^ (n + 1)) (hbit : a.testBit n = true) : a ^^^ (g <<< (n - d)) < 2 ^ n := by
  refine Nat.lt_pow_two_of_testBit _ fun i hi => ?_
  rw [Nat.testBit_xor]
  rcases Nat.eq_or_lt_of_le hi with rfl | hlt
  · simp [hbit, Nat.testBit_shiftLeft, show n - (n - d) = d by omega, htop]
  · have hpow : 2 ^ (n + 1) ≤ 2 ^ i := Nat.pow_le_pow_right (by decide) hlt
    rw [Nat.testBit_lt_two_pow (ha.trans_le hpow), Nat.testBit_lt_two_pow ((shiftLeft_lt hsize hn).trans_le hpow)]
    rfl

/-- The remainder is shorter than the divisor. -/
theorem polyMod_lt (n a : Nat) (ha : a < 2 ^ max n d) : polyMod d g n a < 2 ^ d := by
  induction n generalizing a with
  | zero => rwa [Nat.zero_max] at ha
  | succ n ih =>
    rw [polyMod]
    refine ih _ ?_
    by_cases hn : d ≤ n
    · rw [Nat.max_eq_left (by omega)] at ha
      rw [Nat.max_eq_left hn]
      by_cases hbit : a.testBit n = true
      · rw [if_pos (by simp [hbit, hn])]
        exact xor_shiftLeft_lt htop hsize hn ha hbit
      · rw [if_neg (by simp [hbit])]
        refine Nat.lt_pow_two_of_testBit _ fun i hi => ?_
        rcases Nat.eq_or_lt_of_le hi with rfl | hlt
        · exact Bool.eq_false_iff.2 hbit
        · exact Nat.testBit_lt_two_pow (ha.trans_le (Nat.pow_le_pow_right (by decide) hlt))
    · rw [Nat.max_eq_right (by omega)] at ha
      rwa [if_neg (by simp [hn]), Nat.max_eq_right (by omega)]

end

/-! ### The line-check bits (R144, R146) -/

/-- The two lowest bits as a polynomial. -/
theorem bitPoly_of_lt_four {n a : Nat} (hn : 2 ≤ n) (ha : a < 4) :
    bitPoly n a = (if a.testBit 1 then Polynomial.X else 0) + (if a.testBit 0 then 1 else 0) := by
  have hrest : ∀ j, j ∉ Finset.range 2 → (if a.testBit j then (Polynomial.X : Polynomial (ZMod 2)) ^ j else 0) = 0 := fun j hj => by
    have hj2 : 2 ≤ j := not_lt.1 (mt Finset.mem_range.2 hj)
    rw [Nat.testBit_lt_two_pow (ha.trans_le (Nat.pow_le_pow_right (n := 2) (by decide) hj2))]
    rfl
  rw [bitPoly, ← Finset.sum_subset (Finset.range_subset_range.2 hn) fun j _ => hrest j, Finset.sum_range_succ, Finset.sum_range_one, add_comm]
  simp

/-- The divisor of R144. -/
theorem bitPoly_seven {n : Nat} (hn : 3 ≤ n) : bitPoly n 7 = (Polynomial.X ^ 2 + Polynomial.X + 1 : Polynomial (ZMod 2)) := by
  have hsplit : 7 = 1 <<< 2 ^^^ 3 := rfl
  have hlow : bitPoly n 3 = Polynomial.X + 1 := bitPoly_of_lt_four (by omega) (by decide)
  have hone : bitPoly n 1 = 0 + 1 := bitPoly_of_lt_four (by omega) (by decide)
  have hfits : 1 <<< 2 < 2 ^ n := (by decide : 1 <<< 2 < 2 ^ 3).trans_le (Nat.pow_le_pow_right (by decide) hn)
  rw [hsplit, bitPoly_xor, bitPoly_shiftLeft hfits, hone, hlow, zero_add, mul_one, add_assoc]

theorem degree_xsq_add_x_add_one : (Polynomial.X ^ 2 + Polynomial.X + 1 : Polynomial (ZMod 2)).degree = 2 := by compute_degree!

/-- A remainder of two bits is of degree 1 at most. -/
theorem degree_two_bits_lt (a b : Bool) :
    ((if a then Polynomial.X else 0) + (if b then 1 else 0) : Polynomial (ZMod 2)).degree < 2 := by
  have hone : (if b then 1 else 0 : Polynomial (ZMod 2)).degree ≤ 1 := by
    split
    · exact Polynomial.degree_one_le.trans (by decide)
    · simp
  have hx : (if a then Polynomial.X else 0 : Polynomial (ZMod 2)).degree ≤ 1 := by
    split
    · exact Polynomial.degree_X_le
    · simp
  exact (Polynomial.degree_add_le_of_degree_le hx hone).trans_lt (by decide)

theorem lcBits_lt (l : BitVec 528) : lcBits l < 4 := polyMod_lt rfl (by decide) 528 l.toNat (by rw [Nat.max_eq_left (by decide)]; exact l.isLt)

/-- R144. -/
theorem remainder_eq_lcBits (l : BitVec 528) : bitPoly 528 l.toNat %ₘ (Polynomial.X ^ 2 + Polynomial.X + 1)
    = (if (lcBits l).testBit 1 then Polynomial.X else 0) + (if (lcBits l).testBit 0 then 1 else 0) := by
  have hmonic : (Polynomial.X ^ 2 + Polynomial.X + 1 : Polynomial (ZMod 2)).Monic := by monicity!
  have hdivide : bitPoly 528 (lcBits l) %ₘ bitPoly 528 7 = bitPoly 528 l.toNat %ₘ bitPoly 528 7 :=
    bitPoly_polyMod_modByMonic (by decide) 528 l.toNat le_rfl (bitPoly_seven (n := 528) (by decide) ▸ hmonic)
  rw [bitPoly_seven (by decide)] at hdivide
  rw [← hdivide, bitPoly_of_lt_four (by decide) (lcBits_lt l), (Polynomial.modByMonic_eq_self_iff hmonic).2]
  rw [degree_xsq_add_x_add_one]
  exact degree_two_bits_lt _ _

/-- A slot is the line, the check bits above it and the parity above both. -/
theorem toNat_encodeSlot (l : BitVec 528) : ∃ p, (encodeSlot l).toNat = (l.toNat + 2 ^ 528 * (lcBits l + 4 * p)) % (2 ^ 528 * 2 ^ 32) := by
  refine ⟨bchParity 530 (l.toNat + lcBits l * 2 ^ 528), ?_⟩
  rw [encodeSlot, BitVec.toNat_ofNat, show (560 : Nat) = 528 + 32 by rfl, show (530 : Nat) = 528 + 2 by rfl, Nat.pow_add, Nat.pow_add]
  generalize 2 ^ 528 = m
  ring_nf

theorem setWidth_encodeSlot (l : BitVec 528) : (encodeSlot l).setWidth 528 = l := by
  obtain ⟨p, hp⟩ := toNat_encodeSlot l
  refine BitVec.eq_of_toNat_eq ?_
  rw [BitVec.toNat_setWidth, hp, Nat.mod_mul_right_mod, Nat.add_mul_mod_self_left, Nat.mod_eq_of_lt l.isLt]

/-- R144, R145: the check bits stand right above the line. -/
theorem bitsOf_encodeSlot_lc (l : BitVec 528) : bitsOf (encodeSlot l) 529 528 = lcBits l := by
  obtain ⟨p, hp⟩ := toNat_encodeSlot l
  have hlc := lcBits_lt l
  rw [bitsOf_eq_div_mod, hp, Nat.mod_mul_right_div_self, Nat.add_mul_div_left _ _ (Nat.two_pow_pos 528), Nat.div_eq_of_lt l.isLt]
  omega

/-- R146: a correction whose check bits do not hold is rejected. -/
theorem innerDecode_wrong_lc {sl : Slot} {v w : Nat} (hfix : bchCorrect 530 sl.toNat = some (v, w))
    (hlc : lcBits (BitVec.ofNat 528 w) ≠ (w >>> 528) % 4) : innerDecode sl = (.failCheck (decide (v ≠ 0)), BitVec.ofNat 528 w) := by
  -- unfolded as a function: at an argument the kernel would run the decoder to compare the two sides
  have hdef : innerDecode = innerDecode := rfl
  conv_rhs at hdef => delta innerDecode
  rw [hdef]
  beta_reduce
  rw [hfix]
  exact if_neg hlc

/-- Settles O48: each step of the division takes a multiple of the divisor away, and what is left is shorter than the divisor. -/
theorem line_check_bits_are_the_remainder : Obligations.Line_check_bits_are_the_remainder := by
  unfold Obligations.Line_check_bits_are_the_remainder
  refine ⟨fun l => ⟨lcBits_lt l, setWidth_encodeSlot l, bitsOf_encodeSlot_lc l, remainder_eq_lcBits l⟩, fun sl v w hfix hlc => ?rejected⟩
  case rejected => rw [innerDecode_wrong_lc hfix hlc]; rfl

end Sys2Proof.Machine
end

section
/-! PROOFS. Groups of the Talus history, and its copy (R168, R169). -/

open Sys2Proof.Claims
namespace Sys2Proof.Machine

/-- R168: from a shift no smaller than which will do, with one that will do in reach, the search ends at the smallest that does. -/
theorem groupShift_minimal {blocks : Nat} (fuel g : Nat) (hreach : blocks ≤ 64 * 2 ^ (g + fuel)) (hmin : ∀ h < g, 64 * 2 ^ h < blocks) :
    blocks ≤ 64 * 2 ^ groupShift blocks fuel g ∧ ∀ h < groupShift blocks fuel g, 64 * 2 ^ h < blocks := by
  induction fuel generalizing g with
  | zero => exact ⟨hreach, hmin⟩
  | succ fuel ih =>
    rw [groupShift]
    by_cases hfits : blocks ≤ 64 * 2 ^ g
    · rw [if_pos hfits]
      exact ⟨hfits, hmin⟩
    · rw [if_neg hfits]
      refine ih (g + 1) (by rwa [Nat.add_right_comm g 1 fuel]) fun h hh => ?_
      rcases Nat.lt_succ_iff_lt_or_eq.1 hh with hlt | rfl
      · exact hmin h hlt
      · exact Nat.lt_of_not_le hfits

/-- R352: the blocks per plane stand in a field of 15 bits. -/
theorem lunBlocks_le (s : State) (l : Nat) : lunBlocks s l ≤ 2 ^ 15 := bitsOf_lt _ 48 34

/-- Settles O49: the search starts at shift 0 and reaches past the largest geometry; the copy is what the command leaves. -/
theorem talus_groups_and_their_copy : Obligations.Talus_groups_and_their_copy := by
  unfold Obligations.Talus_groups_and_their_copy
  refine ⟨fun s l => groupShift_minimal 16 0 ?reach fun h hh => absurd hh (Nat.not_lt_zero h), fun s hp => gate_up hp _⟩
  case reach => exact (lunBlocks_le s l).trans (by decide)

end Sys2Proof.Machine
end

section
/-! PROOFS. Merged and poisoned lines, byte by byte (R171, R186). -/

open Sys2Proof.Claims
namespace Sys2Proof.Machine

/-! ### A line put together from fields of one width (R171, R186) -/

theorem getLsbD_foldl_or {α : Type} {n : Nat} (f : α → BitVec n) (j : Nat) (l : List α) (a : BitVec n) :
    (l.foldl (fun a i => a ||| f i) a).getLsbD j = (a.getLsbD j || l.any (fun i => (f i).getLsbD j)) := by
  induction l generalizing a with
  | nil => simp
  | cons i l ih => rw [List.foldl_cons, ih, BitVec.getLsbD_or, List.any_cons, Bool.or_assoc]

/-- A bit of field k is set by no field but that of index k. -/
theorem getLsbD_place_fields {n w k j v : Nat} (i : Nat) (hv : v < 2 ^ w) (hj : j < w) (hword : w * k + j < n) :
    (place n (w * i) v).getLsbD (w * k + j) = (decide (i = k) && v.testBit j) := by
  rw [getLsbD_place]
  rcases Nat.lt_trichotomy i k with hlt | rfl | hgt
  · have hnext : w * i + w ≤ w * k := Nat.mul_le_mul_left w hlt
    have hpast : v.testBit (w * k + j - w * i) = false :=
      Nat.testBit_lt_two_pow (hv.trans_le (Nat.pow_le_pow_right (by decide) (by omega)))
    simp [hpast, hlt.ne]
  · simp [hword]
  · have hnext : w * k + w ≤ w * i := Nat.mul_le_mul_left w hgt
    simp [hgt.ne', show ¬ w * i ≤ w * k + j by omega]

/-- Fields of w bits laid side by side read back one by one. -/
theorem extractLsb'_foldl_place {n w m k : Nat} (v : Nat → Nat) (hv : ∀ i, v i < 2 ^ w) (hk : k < m) (hn : w * m ≤ n) :
    ((List.range m).foldl (fun a i => a ||| place n (w * i) (v i)) 0).extractLsb' (w * k) w = BitVec.ofNat w (v k) := by
  have hend : w * k + w ≤ w * m := Nat.mul_le_mul_left w hk
  ext j hj
  have hfield : ∀ i, (place n (w * i) (v i)).getLsbD (w * k + j) = (decide (i = k) && (v i).testBit j) := fun i =>
    getLsbD_place_fields i (hv i) hj (by omega)
  rw [BitVec.getElem_extractLsb', getLsbD_foldl_or, ← BitVec.getLsbD_eq_getElem, BitVec.getLsbD_ofNat, Bool.eq_iff_iff]
  simp [hfield, hj, hk]

/-- Settles O55: both are fields of one width laid side by side. -/
theorem merged_and_poisoned_lines_byte_by_byte : Obligations.Merged_and_poisoned_lines_byte_by_byte := by
  unfold Obligations.Merged_and_poisoned_lines_byte_by_byte
  refine ⟨fun mask new old i hi => ?merged, fun cause line i hcause hline hi => ?poisoned⟩
  case merged =>
    have hfield : ∀ (w : W512) j, BitVec.ofNat 8 (bitsOf w (8 * j + 7) (8 * j)) = w.extractLsb' (8 * j) 8 := fun w j => by
      rw [bitsOf, show 8 * j + 7 + 1 - 8 * j = 8 by omega, BitVec.ofNat_toNat, BitVec.setWidth_eq]
    have hbyte : ∀ (w : W512) j, bitsOf w (8 * j + 7) (8 * j) < 2 ^ 8 := fun w j =>
      (bitsOf_lt w (8 * j + 7) (8 * j)).trans_eq (by rw [show 8 * j + 7 + 1 - 8 * j = 8 by omega])
    rw [mergeBytes, extractLsb'_foldl_place _ (fun j => by split <;> exact hbyte _ j) hi (by decide), apply_ite (BitVec.ofNat 8), hfield, hfield]
  case poisoned =>
    simp only [poisonPattern, Nat.mod_eq_of_lt hcause, Nat.mod_eq_of_lt hline]
    exact extractLsb'_foldl_place (fun _ => 0xBAD05A1700000000 + cause * 256 + line) (fun _ => by omega) hi (by decide)

end Sys2Proof.Machine
end

section
/-! PROOFS. Control-port writes of the maps' REMOVE entries, of a link's ENABLE and of MIRROR_CTRL (R174, R175, R222, R251, R252, R261). -/

open Sys2Proof.Claims
namespace Sys2Proof.Machine

/-! ### Writes of these entries (R386) -/

/-- The entries of the poison and half-erased maps, of links and of mirrored regions. -/
abbrev MapOrColEntry (i : Nat) : Prop := i = 0x21C0 ∨ i = 0x2200 ∨ 0x8010 ≤ i ∧ i < 0x8200

theorem rangeOk_mapOrColEntry (s : State) {i : Nat} (sub v : Nat) (h : MapOrColEntry i) : rangeOk s i sub v = true := by
  have hgroup : ¬ (0x2140 ≤ i ∧ i < 0x2148 ∧ sub = 0x01) := by omega
  have hlock : ¬ (0x4200 ≤ i ∧ i < 0x4240 ∧ sub = 0x01) := by omega
  unfold rangeOk
  split
  iterate 12 omega
  rw [if_neg hgroup, if_neg hlock, ite_self]

/-- R386: a control-port write of such an entry that is not held to a STOPPED unit passes when its row takes the value. -/
theorem gate_ctlWrite_mapOrColEntry {s : State} {mid i sub v : Nat} {r : OdRow} (hp : s.ao.portsUp = true) (hm : mid ≠ 0)
    (h : MapOrColEntry i) (hr : odRow i sub = some r) (ha : r.acc = .rw ∨ r.acc = .wo)
    (hv : (tyFits r.ty v && decide (r.lo ≤ v) && decide (v ≤ r.hi)) = true) :
    gate s (ctlWrite s mid i sub v) = .next (okWrite (applyWrite s ⟨false, mid⟩ i sub v) mid i sub) := by
  have htv : isTvState i sub = false := by simp [isTvState]; omega
  have hrws : r.acc ≠ .rws := by rcases ha with h | h <;> simp [h]
  have hcode : writeCode s ⟨false, mid⟩ i sub v = 0 := by
    refine writeCode_ok s mid i sub v r hm hr ha ?once ?stop ?busy ?owner ?value
    case once => simp [onceWritten, show i ≠ 0x9100 by omega]
    case stop => simp [needsStop, hrws, show i ≠ 0x9000 by omega, show i ≠ 0x9200 by omega]
    case busy => simp [odBusy, show i ≠ 0x6000 by omega, show i ≠ 0x9100 by omega]
    case owner => simp [ownerOnly]; omega
    case value => simp only [valueOk, hv, rangeOk_mapOrColEntry s sub v h, Bool.and_self, Bool.or_true]
  rw [gate_up hp, ctlWrite_eq_okWrite s mid i sub v hcode htv]

/-! ### What these writes do -/

/-- An entry from 0x5000 on, no selector, is written as applyHigh says. -/
theorem applyWrite_high (s : State) (q : Req) {i sub : Nat} (v : Nat) (hi : 0x5000 ≤ i) (hsel : isSel i sub = false) :
    applyWrite s q i sub v = (applyHigh s q i sub v).getD (setOd s i sub v) := by
  rw [applyWrite, hsel, if_neg Bool.false_ne_true, if_neg (by omega), if_neg (by omega)]

theorem applyWrite_linkEnable (s : State) (q : Req) {l : Nat} (v : Nat) (h : l < 2) :
    applyWrite s q (0x8010 + l) 0x01 v = switchLink s l v := by
  have hsel : isSel (0x8010 + l) 0x01 = false := by simp [isSel]; omega
  rw [applyWrite_high s q v (by omega) hsel, applyHigh, if_neg (by omega), if_neg (by omega), if_pos (by omega), if_pos rfl, Option.getD_some,
    Nat.add_sub_cancel_left]

theorem applyWrite_mirrorCtrl (s : State) (q : Req) {r : Nat} (v : Nat) (h : r < 256) :
    applyWrite s q (0x8100 + r) 0x05 v = mirrorCtrl s r v := by
  have hsel : isSel (0x8100 + r) 0x05 = false := by simp [isSel]; omega
  rw [applyWrite_high s q v (by omega) hsel, applyHigh, if_neg (by omega), if_neg (by omega), if_neg (by omega), if_pos (by omega),
    Option.getD_some, Nat.add_sub_cancel_left]

/-! ### The commands -/

section
variable {s : State} {mid : Nat} (hp : s.ao.portsUp = true) (hm : mid ≠ 0)
include hp hm

/-- R175: a write of 1 to REMOVE of the poison map. -/
theorem exec_poisonRemove : exec (.poisonRemove mid) s = .next (okWrite (removePoison s mid) mid 0x21C0 0x08) :=
  gate_ctlWrite_mapOrColEntry hp hm (i := 0x21C0) (sub := 0x08) (r := ⟨8, 8, .bool, .wo, 0, 0, 1⟩) (.inl rfl) rfl (.inr rfl) rfl

/-- R222: a write of 1 to HE_REMOVE. -/
theorem exec_heRemove : exec (.heRemove mid) s = .next (okWrite (removeHalf s mid) mid 0x2200 0x07) :=
  gate_ctlWrite_mapOrColEntry hp hm (i := 0x2200) (sub := 0x07) (r := ⟨7, 7, .bool, .wo, 0, 0, 1⟩) (.inr (.inl rfl)) rfl (.inr rfl) rfl

/-- R251: a write of a link's ENABLE. -/
theorem gate_linkEnable {l v : Nat} (h : l < 2) (hv : v ≤ 1) :
    gate s (ctlWrite s mid (0x8010 + l) 0x01 v) = .next (okWrite (switchLink s l v) mid (0x8010 + l) 0x01) := by
  have hrow : odRow (0x8010 + l) 0x01 = some ⟨1, 1, .bool, .rw, 0, 0, 1⟩ := by rw [odRow, odRows_link l h]; rfl
  rw [gate_ctlWrite_mapOrColEntry hp hm (by omega) hrow (.inl rfl) (by simp [tyFits, hv]), applyWrite_linkEnable s _ v h]

/-- R252, R253: a write of MIRROR_CTRL. -/
theorem gate_mirrorCtrl {r v : Nat} (h : r < 256) (hv : v < 256) :
    gate s (ctlWrite s mid (0x8100 + r) 0x05 v) = .next (okWrite (mirrorCtrl s r v) mid (0x8100 + r) 0x05) := by
  have hrow : odRow (0x8100 + r) 0x05 = some ⟨5, 5, .u8, .wo, 0, 0, 255⟩ := by rw [odRow, odRows_mirror r h]; rfl
  rw [gate_ctlWrite_mapOrColEntry hp hm (by omega) hrow (.inr rfl) (by simp [tyFits]; omega), applyWrite_mirrorCtrl s _ v h]

end

/-! ### Links by their state (R251) -/

section
variable {s : State} {l : Nat}

/-- Log entry 31: a link that is off trains, its lanes up. -/
theorem enableLink_off (h : (link s l).state = 0) : enableLink s l = modLink s l (fun x => { x with state := 1, lanes := true }) := by
  simp only [enableLink, h]

/-- A FAILED link notes that ENABLE came early. -/
theorem enableLink_failed (h : (link s l).state = 3) : enableLink s l = modLink s l (fun x => { x with early := true }) := by
  simp only [enableLink, h]

/-- A link that is UP goes down by command. -/
theorem disableLink_up (h : (link s l).state = 2) :
    disableLink s l = modLink (linkDown s l 0 6 0 0) l (fun x => { x with lanes := false }) := by
  rw [disableLink]
  exact if_pos h

/-- A link that is not UP is off, and what is held for it is judged again. -/
theorem disableLink_not_up (h : (link s l).state ≠ 2) : disableLink s l
    = releaseHeld (modLink s l (fun x => { x with state := 0, lanes := false })) (fun c => decide (c = .link l)) := by
  rw [disableLink]
  exact if_neg h

end

/-! ### MIRROR_CTRL by the state of the region (R252, R253) -/

section
variable {s : State} {r : Nat}

/-- R253: of a region that is no origin every command is refused with result 2. -/
theorem mirrorCtrl_not_origin (v : Nat) (h : isOrigin s r = false) : mirrorCtrl s r v = setOd s (0x8100 + r) 0x09 2 := by
  rw [mirrorCtrl]
  exact if_pos (.inl (by simp [h]))

variable (horigin : isOrigin s r = true) (hrun : (region s r).state = 1)
include horigin hrun

theorem mirrorCtrl_resync (hm : (region s r).mirror = 0) (hup : (link s (downLink s r)).state = 2) :
    mirrorCtrl s r 1 = setOd (modRegion s r (fun g => { g with mirror := 1 })) (0x8100 + r) 0x09 0 := by
  simp [mirrorCtrl, horigin, hrun, hm, hup]

theorem mirrorCtrl_synced (hm : (region s r).mirror = 1) :
    mirrorCtrl s r 2 = setOd (modRegion s r (fun g => { g with mirror := 2 })) (0x8100 + r) 0x09 0 := by
  simp [mirrorCtrl, horigin, hrun, hm]

theorem mirrorCtrl_degrade (hm : (region s r).mirror = 1 ∨ (region s r).mirror = 2) :
    mirrorCtrl s r 3 = setOd (degradeRegion s r 0 6) (0x8100 + r) 0x09 0 := by
  simp [mirrorCtrl, horigin, hrun, hm]

end

/-- Settles O16: each write passes at its row, and its effect is read off the link or the region it meets. -/
theorem map_link_and_mirror_writes : Obligations.Map_link_and_mirror_writes := by
  unfold Obligations.Map_link_and_mirror_writes
  refine ⟨fun s mid hp hm => ⟨exec_poisonRemove hp hm, exec_heRemove hp hm⟩, fun s mid l r hp hm hl hr => ?_⟩
  intro on off
  have henable : exec (.linkEnable mid l) s = .next (okWrite (enableLink on l) mid (0x8010 + l) 0x01) := gate_linkEnable hp hm hl (v := 1) le_rfl
  have hdisable : exec (.linkDisable mid l) s = .next (okWrite (disableLink off l) mid (0x8010 + l) 0x01) :=
    gate_linkEnable hp hm hl (v := 0) (Nat.zero_le 1)
  have hresync : exec (.mirrorResync mid r) s = .next (okWrite (mirrorCtrl s r 1) mid (0x8100 + r) 0x05) := gate_mirrorCtrl hp hm hr (by decide)
  -- ENABLE is stored and driven before the link is looked at, and neither changes the link
  have hon : link on l = link s l := rfl
  have hoff : link off l = link s l := rfl
  refine ⟨fun h => ?trains, fun h => ?early, fun h => ?goesDown, fun h => ?off, fun horigin hrun => ⟨fun hm0 hup => ?resync, fun hm1 => ?synced,
    fun hm12 => ?degrade⟩, fun h => ?notOrigin⟩
  case trains => rw [henable, enableLink_off (hon ▸ h)]
  case early => rw [henable, enableLink_failed (hon ▸ h)]
  case goesDown => rw [hdisable, disableLink_up (hoff ▸ h)]
  case off => rw [hdisable, disableLink_not_up (hoff ▸ h)]
  case resync => rw [hresync, mirrorCtrl_resync horigin hrun hm0 hup]
  case synced =>
    rw [← mirrorCtrl_synced horigin hrun hm1]
    exact gate_mirrorCtrl hp hm hr (by decide)
  case degrade =>
    rw [← mirrorCtrl_degrade horigin hrun hm12]
    exact gate_mirrorCtrl hp hm hr (by decide)
  case notOrigin => rw [hresync, mirrorCtrl_not_origin 1 h]

end Sys2Proof.Machine
end

section
/-! PROOFS. Accesses of a command at the key port, its timeouts and the first STATUS read (R270, R271, R273, R376, R435). -/

open Sys2Proof.Claims
namespace Sys2Proof.Machine

/-! ### One access (R270, R271) -/

/-- The state once an access of command j is on the port. -/
def keyAsks (s : State) (j : KeyJob) (o : PortOut) : State :=
  { s with keyJob := some { j with busy := true, waitLock := false, waitPoll := false }, sent := o :: s.sent }

section
variable {s : State} {j : KeyJob} {rest : List KeyAcc} (hjob : s.keyJob = some j)
include hjob

theorem keyIssue_lock (htodo : j.todo = .lock :: rest) : keyIssue s = keyAsks s j (.key false 0x00 0 (keyClient s)) := by
  simp only [keyIssue, keyAsks, hjob, htodo]
  rfl

theorem keyIssue_status (htodo : j.todo = .status :: rest) : keyIssue s = keyAsks s j (.key false 0x18 0 (keyClient s)) := by
  simp only [keyIssue, keyAsks, hjob, htodo]
  rfl

theorem keyIssue_write {a v : Nat} (htodo : j.todo = .write a v :: rest) : keyIssue s = keyAsks s j (.key true a v (keyClient s)) := by
  simp only [keyIssue, keyAsks, hjob, htodo]
  rfl

theorem keyIssue_unlock (htodo : j.todo = .unlock :: rest) : keyIssue s = keyAsks s j (.key true 0x00 0 (keyClient s)) := by
  simp only [keyIssue, keyAsks, hjob, htodo]
  rfl

/-! ### A command that fails (R270, R273) -/

/-- An access in progress is waited for. -/
theorem keyFail_busy (hfailed : j.failed = none) (hbusy : j.busy = true) (res cause : Nat) :
    keyFail s res cause = { s with keyJob := some { j with failed := some (res, cause), todo := j.todo.take 1 } } := by
  simp only [keyFail, hjob, hfailed, hbusy]
  rfl

/-- A lock that is held is released. -/
theorem keyFail_locked (hfailed : j.failed = none) (hbusy : j.busy = false) (hlocked : j.locked = true) (res cause : Nat) :
    keyFail s res cause
      = keyAsks s { j with failed := some (res, cause), todo := [.unlock] } (.key true 0x00 0 (keyClient s)) := by
  simp only [keyFail, hjob, hfailed, hbusy, hlocked, if_true, Bool.false_eq_true, if_false]
  exact keyIssue_unlock rfl rfl

/-- Without the lock the command is over. -/
theorem keyFail_unlocked (hfailed : j.failed = none) (hbusy : j.busy = false) (hlocked : j.locked = false) (res cause : Nat) :
    keyFail s res cause = keyFinish { s with keyJob := some { j with failed := some (res, cause), todo := [] } } := by
  simp only [keyFail, hjob, hfailed, hbusy, hlocked, Bool.false_eq_true, if_false]
  rfl

end

/-! ### An access that ends (R270, R271, R435) -/

section
variable (s : State) {j : KeyJob} {rest : List KeyAcc}

/-- R270: a LOCK read that finds the lock held is counted, and waits for its retry. -/
theorem keyNext_lock_held {v : BitVec 32} (hfailed : j.failed = none) (htodo : j.todo = .lock :: rest) (hv : v ≠ 0) :
    keyNext s j v = count { s with keyJob := some { j with busy := false, waitLock := true } } 0x6000 0x11 := by
  simp only [keyNext, hfailed, htodo, if_neg hv]

/-- R270: a LOCK read of 0 has won the lock. -/
theorem keyNext_lock_won (hfailed : j.failed = none) (htodo : j.todo = .lock :: rest) :
    keyNext s j 0 = keyIssue { s with keyJob := some { j with busy := false, locked := true, todo := rest } } := by
  simp only [keyNext, hfailed, htodo, if_true, List.drop_one, List.tail_cons]

/-- R271: a STATUS that shows busy is polled again. -/
theorem keyNext_status_busy {v : BitVec 32} (hfailed : j.failed = none) (htodo : j.todo = .status :: rest)
    (herror : v.getLsbD 1 = false) (hbusy : v.getLsbD 0 = true) :
    keyNext s j v = { s with keyJob := some { j with busy := false, waitPoll := true } } := by
  simp only [keyNext, hfailed, htodo, herror, hbusy, Bool.false_eq_true, if_false, if_true]

theorem keyNext_write {a d : Nat} (v : BitVec 32) (hfailed : j.failed = none) (htodo : j.todo = .write a d :: rest) :
    keyNext s j v = keyIssue { s with keyJob := some { j with busy := false, todo := rest } } := by
  simp only [keyNext, hfailed, htodo, List.drop_one, List.tail_cons]

/-- R435: a write that ends in an error fails the command. -/
theorem keyError_write {a d : Nat} (htodo : j.todo = .write a d :: rest) :
    keyError s j = keyFail { s with keyJob := some { j with busy := false } } 0x22 3 := by
  simp only [keyError, htodo]

/-- R270: under the lock, the lock is then released. -/
theorem keyError_write_locked {a d : Nat} (htodo : j.todo = .write a d :: rest) (hfailed : j.failed = none) (hlocked : j.locked = true) :
    keyError s j = keyAsks s { j with failed := some (0x22, 3), todo := [.unlock] } (.key true 0x00 0 (keyClient s)) := by
  rw [keyError_write s htodo]
  exact keyFail_locked (j := { j with busy := false }) rfl hfailed rfl hlocked 0x22 3

end

/-! ### The commands -/

section
variable {s : State} {j : KeyJob} (hp : s.ao.portsUp = true) (hjob : s.keyJob = some j)
include hp hjob

theorem exec_keyLockRetry (hwait : j.waitLock = true) : exec .keyLockRetry s = .next (keyIssue s) := by
  show execKeyLockRetry s = _
  simp only [execKeyLockRetry, gate_up hp, hjob, if_pos hwait]

theorem exec_keyStatusPoll (hwait : j.waitPoll = true) : exec .keyStatusPoll s = .next (keyIssue s) := by
  show execKeyStatusPoll s = _
  simp only [execKeyStatusPoll, gate_up hp, hjob, if_pos hwait]

theorem exec_lockTimeout {rest : List KeyAcc} (hfailed : j.failed = none) (htodo : j.todo = .lock :: rest) :
    exec .lockTimeout s = .next (keyFail s 0x22 1) := by
  show execLockTimeout s = _
  simp only [execLockTimeout, gate_up hp, hjob, hfailed, htodo, List.head?_cons, true_and, if_true]

theorem exec_opTimeout {rest : List KeyAcc} (hfailed : j.failed = none) (htodo : j.todo = .status :: rest) :
    exec .opTimeout s = .next (keyFail s 0x22 4) := by
  have hruns : opRunning j = true := by simp only [opRunning, htodo]
  show execOpTimeout s = _
  simp only [execOpTimeout, gate_up hp, hjob, hfailed, hruns, true_and, if_true]

variable (hbusy : j.busy = true) (hfirst : s.keyFirst = false)
include hbusy hfirst

theorem exec_keyAccessAck_good (v : BitVec 32) : exec (.keyAccessAck false v) s = .next (keyNext s j v) := by
  show execKeyAccessAck false v s = _
  simp only [execKeyAccessAck, gate_up hp, hfirst, hjob, hbusy, Bool.false_eq_true, if_false, not_true_eq_false]

theorem exec_keyAccessAck_error (v : BitVec 32) : exec (.keyAccessAck true v) s = .next (keyError s j) := by
  show execKeyAccessAck true v s = _
  simp only [execKeyAccessAck, gate_up hp, hfirst, hjob, hbusy, Bool.false_eq_true, if_false, if_true, not_true_eq_false]

theorem exec_keyAccessTimeout : exec .keyAccessTimeout s = .next (keyError s j) := by
  show execKeyAccessTimeout s = _
  simp only [execKeyAccessTimeout, gate_up hp, hfirst, hjob, hbusy, Bool.false_eq_true, if_false, if_true]

end

/-! ### The first read of STATUS (R376) -/

section
variable {s : State} (hp : s.ao.portsUp = true) (hfirst : s.keyFirst = true)
include hp hfirst

theorem exec_keyAccessAck_first (err : Bool) (v : BitVec 32) : exec (.keyAccessAck err v) s = .next (firstStatus s err) := by
  show execKeyAccessAck err v s = _
  rw [execKeyAccessAck, gate_up hp, if_pos hfirst]

theorem exec_keyAccessTimeout_first : exec .keyAccessTimeout s = .next (firstStatus s true) := by
  show execKeyAccessTimeout s = _
  rw [execKeyAccessTimeout, gate_up hp, if_pos hfirst]

end

/-- An error leaves the port not ready. -/
theorem firstStatus_error (s : State) : firstStatus s true = { s with keyFirst := false } := by
  rw [firstStatus]
  exact if_pos (.inl rfl)

/-- A port whose self-test has not failed is ready. -/
theorem firstStatus_ready {s : State} (hgood : s.keyBad = false) (hnot : s.keyReady = false) :
    firstStatus s false = readyChange { s with keyFirst := false, keyReady := true } 5 0 true 0 := by
  rw [firstStatus]
  exact if_neg (by simp [hgood, hnot])

end Sys2Proof.Machine
end

section
/-! PROOFS. Ridge key caches and tag checks (R143, R268, R281, R282), and the key port's statement. -/

open Sys2Proof.Claims
namespace Sys2Proof.Machine

/-! ### Key caches (R268) -/

/-- What the end of a fill leaves of a ridge: a full cache loses its oldest key (log entry 34). -/
def keyFilled (x : Ridge) (kg : Nat × Nat) (m : W512) : Ridge :=
  { x with keyCache := (if x.keyCache.length ≥ 32 then x.keyCache.drop 1 else x.keyCache) ++ [(kg, m)],
           keyFills := x.keyFills.filter (fun y => y ≠ kg) }

section
variable {s : State} {rg slot gen : Nat} (hp : s.ao.portsUp = true)
include hp

theorem exec_keyCacheFill_started {m : W512} (hkey : material s (slot, gen) = some m) (hmiss : keyCached s rg (slot, gen) = false)
    (hfill : (ridge s rg).keyFills.contains (slot, gen) = true) :
    exec (.keyCacheFill rg slot gen) s = .next (modRidge s rg (fun x => keyFilled x (slot, gen) m)) := by
  show execKeyCacheFill rg slot gen s = _
  simp only [execKeyCacheFill, gate_up hp, hkey, hmiss, hfill]
  rfl

theorem exec_keyCacheFill_idle (hidle : material s (slot, gen) = none ∨ keyCached s rg (slot, gen) = true
    ∨ (ridge s rg).keyFills.contains (slot, gen) = false) : exec (.keyCacheFill rg slot gen) s = .next s := by
  show execKeyCacheFill rg slot gen s = _
  rw [execKeyCacheFill, gate_up hp]
  cases hkey : material s (slot, gen) with
  | none => rfl
  | some m =>
    have hskip : keyCached s rg (slot, gen) = true ∨ ¬ (ridge s rg).keyFills.contains (slot, gen) = true := by simpa [hkey] using hidle
    exact congrArg _ (if_pos hskip)

end

theorem keyFilled_room {x : Ridge} (kg : Nat × Nat) (m : W512) (h : x.keyCache.length < 32) :
    keyFilled x kg m = { x with keyCache := x.keyCache ++ [(kg, m)], keyFills := x.keyFills.filter (fun y => y ≠ kg) } := by
  rw [keyFilled, if_neg (by omega)]

theorem keyFilled_full {x : Ridge} {oldest : (Nat × Nat) × W512} {rest : List ((Nat × Nat) × W512)} (kg : Nat × Nat) (m : W512)
    (hcache : x.keyCache = oldest :: rest) (hlen : rest.length = 31) :
    keyFilled x kg m = { x with keyCache := rest ++ [(kg, m)], keyFills := x.keyFills.filter (fun y => y ≠ kg) } := by
  have hfull : x.keyCache.length ≥ 32 := by simp [hcache, hlen]
  rw [keyFilled, if_pos hfull, hcache, List.drop_one, List.tail_cons]

/-! ### Tag checks (R281, R282) -/

theorem spurs_gcmStart (s : State) (rg : Nat) : (gcmStart s rg).spurs = s.spurs := by
  unfold gcmStart
  repeat' split
  all_goals rfl

/-- The engines are the ridge's: freeing one leaves the spurs, and their contexts, alone. -/
theorem ctxUsed_gcmFree (s : State) (rg e p c : Nat) : ctxUsed (gcmFree s rg e) p c = ctxUsed s p c := by
  have hspurs : (gcmFree s rg e).spurs = s.spurs := spurs_gcmStart _ rg
  rw [ctxUsed, spur_congr s _ p hspurs, ctxUsed]

/-- The 64 lines of a job's sector, 0 where a line has not come. -/
def sectorLines (j : GcmJob) : List (BitVec 528) :=
  (List.range 64).map (fun i => ((j.lines.find? (fun x => x.1 = j.sector * 64 + i)).map (fun x => x.2)).getD 0)

section
variable {s : State} {j : GcmJob}

theorem tagReason_noKey (hkey : j.key.bind (laneKey s (j.spur / 4)) = none) : tagReason s j = 1 := by
  simp only [tagReason, hkey]

variable {m : W512} (hkey : j.key.bind (laneKey s (j.spur / 4)) = some m)
include hkey

theorem tagReason_bad (hbad : j.bad ≠ 0) : tagReason s j = j.bad := by
  simp only [tagReason, hkey, if_pos hbad]

variable (hbad : j.bad = 0)
include hbad

theorem tagReason_unsealed (hline : ∃ l ∈ sectorLines j, lSealed l = false) : tagReason s j = 3 := by
  have hany : (sectorLines j).any (fun l => !lSealed l) = true := by simpa using hline
  simp only [tagReason, hkey, if_neg (not_not.2 hbad)]
  exact if_pos hany

theorem tagReason_sealed (hlines : ∀ l ∈ sectorLines j, lSealed l = true) : tagReason s j
    = if gcmTag m j.du ((sectorLines j).map lMeta0) ((sectorLines j).map lData) = ((sectorLines j).map lMeta1).take 16 then 0 else 4 := by
  have hany : ¬ (sectorLines j).any (fun l => !lSealed l) = true := by simpa using hlines
  simp only [tagReason, hkey, if_neg (not_not.2 hbad)]
  exact if_neg hany

end

section
variable {s : State} {rg e : Nat} {j : GcmJob} (hp : s.ao.portsUp = true) (hjob : gcmJob s rg (e % 2) = some j)
  (hopens : j.sealing = false) (hused : ctxUsed s j.spur j.ctx = true)
include hp hjob hopens hused

/-- A blank sector passes without a check. -/
theorem exec_tagVerifyDone_blank (hbad : j.bad = 0) (hblank : ∀ l ∈ j.lines, l.2 = 0) : exec (.tagVerifyDone rg e) s
    = .next (afterLines (sectorChecked (gcmFree s rg (e % 2)) j.spur j.ctx j 0) j.spur j.ctx) := by
  have hall : (decide (j.bad = 0) && j.lines.all (fun l => decide (l.2 = 0))) = true := by
    rw [decide_eq_true hbad, Bool.true_and]
    exact List.all_eq_true.2 fun l hl => decide_eq_true (hblank l hl)
  show execTagVerifyDone rg e s = _
  simp only [execTagVerifyDone, gate_up hp, hjob, hopens, ctxUsed_gcmFree, hused, hall, Bool.false_eq_true, not_true_eq_false, if_false, if_true]

/-- Another sector is counted, and judged by its tag. -/
theorem exec_tagVerifyDone_checked (hmarked : j.bad ≠ 0 ∨ ∃ l ∈ j.lines, l.2 ≠ 0) : exec (.tagVerifyDone rg e) s
    = .next (afterLines (sectorChecked (count (gcmFree s rg (e % 2)) 0x6000 0x14) j.spur j.ctx j (tagReason (gcmFree s rg (e % 2)) j))
        j.spur j.ctx) := by
  have hall : (decide (j.bad = 0) && j.lines.all (fun l => decide (l.2 = 0))) = false := by
    rcases hmarked with hbad | ⟨l, hl, hne⟩
    · simp [hbad]
    · simp only [Bool.and_eq_false_iff, List.all_eq_false]
      exact .inr ⟨l, hl, mt of_decide_eq_true hne⟩
  show execTagVerifyDone rg e s = _
  simp only [execTagVerifyDone, gate_up hp, hjob, hopens, ctxUsed_gcmFree, hused, hall, Bool.false_eq_true, not_true_eq_false, if_false]

end

/-- Settles O36: an access by the head of the command's script, a fill by what the cache holds, a sector by its lines and its key. -/
theorem key_port_caches_and_tags : Obligations.Key_port_caches_and_tags := by
  unfold Obligations.Key_port_caches_and_tags
  refine ⟨fun s j hp hjob => ⟨fun rest htodo => ?lock, fun rest htodo => ?status, fun a v rest htodo hfailed hbusy hfirst => ?write,
    fun hfirst rdata => ?first⟩, fun s rg hp => ⟨fun slot gen m hkey hmiss hfill => ?fill, fun slot gen => exec_keyCacheFill_idle hp,
    fun e j hjob hopens hused => ?tag⟩⟩
  case lock =>
    refine ⟨fun hwait => ?retry, fun hfailed hbusy => ?inProgress, fun hfailed hbusy hlocked => ?ended,
      fun hfailed hbusy hfirst v => ⟨fun hv => ?held, fun a d more hv hrest => ?won⟩⟩
    case retry =>
      rw [exec_keyLockRetry hp hjob hwait, keyIssue_lock hjob htodo]
      rfl
    case inProgress =>
      rw [exec_lockTimeout hp hjob hfailed htodo, keyFail_busy hjob hfailed hbusy, htodo]
      rfl
    case ended => rw [exec_lockTimeout hp hjob hfailed htodo, keyFail_unlocked hjob hfailed hbusy hlocked]
    case held =>
      rw [exec_keyAccessAck_good hp hjob hbusy hfirst, keyNext_lock_held s hfailed htodo hv]
    case won =>
      rw [exec_keyAccessAck_good hp hjob hbusy hfirst, hv, keyNext_lock_won s hfailed htodo, keyIssue_write rfl hrest]
      rfl
  case status =>
    refine ⟨fun hwait => ?poll, fun hfailed hbusy hfirst v herror hrun => ?busy, fun hfailed hbusy hlocked => ?timeout⟩
    case poll =>
      rw [exec_keyStatusPoll hp hjob hwait, keyIssue_status hjob htodo]
      rfl
    case busy =>
      rw [exec_keyAccessAck_good hp hjob hbusy hfirst, keyNext_status_busy s hfailed htodo herror hrun]
    case timeout =>
      rw [exec_opTimeout hp hjob hfailed htodo, keyFail_locked hjob hfailed hbusy hlocked]
      rfl
  case write =>
    refine ⟨fun b w more rdata hrest => ?next, fun hlocked => ⟨fun rdata => ?error, ?timeout⟩⟩
    case next =>
      rw [exec_keyAccessAck_good hp hjob hbusy hfirst, keyNext_write s rdata hfailed htodo, keyIssue_write rfl hrest]
      rfl
    case error =>
      rw [exec_keyAccessAck_error hp hjob hbusy hfirst, keyError_write_locked s htodo hfailed hlocked]
      rfl
    case timeout =>
      rw [exec_keyAccessTimeout hp hjob hbusy hfirst, keyError_write_locked s htodo hfailed hlocked]
      rfl
  case first =>
    refine ⟨?_, ?_, fun hgood hnot => ?_⟩
    · rw [exec_keyAccessAck_first hp hfirst, firstStatus_error]
    · rw [exec_keyAccessTimeout_first hp hfirst, firstStatus_error]
    · rw [exec_keyAccessAck_first hp hfirst, firstStatus_ready hgood hnot]
  case fill =>
    refine ⟨_, exec_keyCacheFill_started hp hkey hmiss hfill, rfl, fun r hr => ridge_modRidge_other s rg r _ hr, fun hroom => ?room,
      fun oldest rest hcache hlen => ?full⟩
    case room => rw [ridge_modRidge, keyFilled_room _ _ hroom]
    case full => rw [ridge_modRidge, keyFilled_full _ _ hcache hlen]
  case tag =>
    refine ⟨exec_tagVerifyDone_blank hp hjob hopens hused, fun hmarked => ?checked⟩
    dsimp only
    rw [exec_tagVerifyDone_checked hp hjob hopens hused hmarked]
    refine ⟨fun hkey => ?noKey, fun m hkey => ⟨fun hbad => ?bad, fun hbad hline => ?unsealed, fun hbad hlines => ?sealed⟩⟩
    case noKey => rw [tagReason_noKey hkey]
    case bad => rw [tagReason_bad hkey hbad]
    case unsealed => rw [tagReason_unsealed hkey hbad hline]
    case sealed =>
      rw [tagReason_sealed hkey hbad hlines]
      rfl

end Sys2Proof.Machine
end

section
/-! PROOFS. A unit's lines, its sealing, its fills and its release (R180, R186, R192, R194, R195, R201). -/

open Sys2Proof.Claims
namespace Sys2Proof.Machine

/-! ### A unit freed (R180, R263) -/

/-- A notice leaves the units of the Ledge as they are. -/
theorem units_blockNotice (s : State) (code detail extra : Nat) : (blockNotice s code detail extra).units = s.units := by
  rw [blockNotice, postAuto_changes_rings_od]

/-- A user that leaves its key touches no unit, the notice that its DRAINING has ended included (R263, R286). -/
theorem units_dropUser (s : State) (k g : Nat) : (dropUser s k g).units = s.units := by
  unfold dropUser
  dsimp only
  split
  · rfl
  · split
    · rfl
    · split
      · exact units_blockNotice _ _ _ _
      · rfl

/-- R180: of a unit freed nothing is left but its generation, advanced. -/
theorem unit_freeUnit (s : State) (u : Nat) : unit (freeUnit s u) u = { gen := ((unit s u).gen + 1) % 65536 } := by
  have hnew : unit (modUnit s u (fun d => { gen := (d.gen + 1) % 65536 })) u = { gen := ((unit s u).gen + 1) % 65536 } := unit_modUnit s u _
  unfold freeUnit
  dsimp only
  split
  · exact (unit_congr _ _ u (units_dropUser _ _ _)).trans hnew
  · exact hnew

/-! ### The unit a handle names (R185, R192, R195, R201) -/

section
variable {s : State} {h : BitVec 32} (hp : s.ao.portsUp = true) (hgen : (unit s (unitKey h)).gen = hGen h)
include hp hgen

/-- R186: an OPEN or COMMITTED unit whose key stands stores the line of its first write. -/
theorem exec_lineStore (hstate : (unit s (unitKey h)).state = .opened ∨ (unit s (unitKey h)).state = .committed)
    (hkey : (unit s (unitKey h)).keyLost = false) : exec (.lineStore h) s = .next (storeFirst s (unitKey h)) := by
  show execLineStore h s = _
  rw [execLineStore, gate_up hp]
  exact congrArg _ (if_pos ⟨hgen, hstate, by simp [hkey]⟩)

/-- R192: a committed unit with no write outstanding seals. -/
theorem exec_unitCommitted (hstate : (unit s (unitKey h)).state = .committed) (hready : (unit s (unitKey h)).ready = false)
    (hwriters : (unit s (unitKey h)).writers = []) (hloading : (unit s (unitKey h)).loading = 0) (hheld : heldWriter s (unitKey h) = false) :
    exec (.unitCommitted h) s = .next (startSealing s (unitKey h)) := by
  show execUnitCommitted h s = _
  rw [execUnitCommitted, gate_up hp, if_pos hgen]
  exact congrArg _ (if_pos ⟨hstate, by simp [hready], hwriters, hloading, by simp [hheld]⟩)

/-- R195: once WL_FILL_MS has passed the holes of the group are filled. -/
theorem exec_wlFillExpiry_due (hstate : (unit s (unitKey h)).state = .committed) (hdue : (unit s (unitKey h)).fillUs ≤ s.ao.timeUs)
    (hruns : (unit s (unitKey h)).restored = false ∨ (region s (unit s (unitKey h)).region).state = 1) :
    exec (.wlFillExpiry h) s = .next (fillGroup s (unitKey h)) := by
  have hgo : ¬ ((unit s (unitKey h)).restored = true ∧ (region s (unit s (unitKey h)).region).state ≠ 1) := by
    rintro ⟨hrestored, hstopped⟩
    exact hruns.elim (by simp [hrestored]) hstopped
  show execWlFillExpiry h s = _
  rw [execWlFillExpiry, gate_up hp]
  exact congrArg _ (if_pos ⟨hgen, hstate, hdue, hgo⟩)

/-- R201: a DONE unit that nothing reads and no frame waits for is FREE, and a gap move that waited for a unit tries again. -/
theorem exec_unitRelease (hstate : (unit s (unitKey h)).state = .done) (hreaders : (unit s (unitKey h)).readers = 0)
    (hmirror : (unit s (unitKey h)).mirror = []) :
    exec (.unitRelease h) s = .next (moveRetry (freeUnit s (unitKey h)) (unitKey h / 232)) := by
  have hrel : releasable (unit s (unitKey h)) = true := by simp [releasable, hstate, hreaders, hmirror]
  show execUnitRelease h s = _
  rw [execUnitRelease, gate_up hp]
  exact congrArg _ (if_pos ⟨hgen, hrel⟩)

end

/-- R195: before WL_FILL_MS has passed nothing is filled. -/
theorem exec_wlFillExpiry_early {s : State} {h : BitVec 32} (hp : s.ao.portsUp = true) (hearly : s.ao.timeUs < (unit s (unitKey h)).fillUs) :
    exec (.wlFillExpiry h) s = .next s := by
  show execWlFillExpiry h s = _
  rw [execWlFillExpiry, gate_up hp]
  exact congrArg _ (if_neg fun ⟨_, _, hdue, _⟩ => Nat.not_le_of_lt hearly hdue)

/-- R194: a sector that an engine has sealed is noted with its unit and counted, and its group may have become complete by it. -/
theorem exec_sectorSealed {s : State} {rg e : Nat} {j : GcmJob} (hp : s.ao.portsUp = true) (hjob : gcmJob s rg (e % 2) = some j)
    (hseal : j.sealing = true) : exec (.sectorSealed rg e) s = .next (noteComplete (count (gcmFree
      (modUnit s j.record (fun d => { d with sealedSec := d.sealedSec ++ [j.sector] })) rg (e % 2)) 0x6000 0x13) j.record) := by
  show execSectorSealed rg e s = _
  rw [execSectorSealed, gate_up hp, hjob]
  exact congrArg _ (if_pos hseal)

/-- Settles O29: each command on a handle is its unit's, and a unit freed keeps nothing but its generation. -/
theorem ledge_units_fill_commit_and_seal : Obligations.Ledge_units_fill_commit_and_seal := by
  unfold Obligations.Ledge_units_fill_commit_and_seal
  intro s h hp hgen u d
  refine ⟨exec_lineStore hp hgen, exec_unitCommitted hp hgen, exec_wlFillExpiry_due hp hgen, fun _ => exec_wlFillExpiry_early hp,
    fun hstate hreaders hmirror => ⟨exec_unitRelease hp hgen hstate hreaders hmirror, ?freed⟩, fun rg e j => exec_sectorSealed hp⟩
  case freed =>
    rw [unit_freeUnit]
    exact ⟨rfl, rfl, rfl⟩

end Sys2Proof.Machine
end

section
/-! PROOFS. The end of an image load, and ridges and spurs that leave and return (R206, R309, R321 to R323). -/

open Sys2Proof.Claims
namespace Sys2Proof.Machine

/-! ### The key port's answer to a load (R309) -/

/-- R309: a loaded image whose tag is right is READY, every control store is good, and spurs begin to return. -/
def imageReady (s : State) : State := svcKick
  { s with image := { s.image with state := 2, result := 0, cause := 0, answer := none, crc := storeCrc s.image.words }
           spurs := s.spurs.mapVals {} (fun x => { x with csGood := true })
           spares := s.spares.mapVals {} (fun x => { x with csGood := true }) }

/-- R309: a failure of the key port refuses the image with its cause, then a wrong tag does; otherwise the image is READY. -/
theorem exec_imageLoadComplete {s : State} {c : Nat} {b : List Byte} (hp : s.ao.portsUp = true) (hload : s.image.state = 1)
    (hans : s.image.answer = some (c, b)) : exec .imageLoadComplete s = .next (
      if c ≠ 0 then imageFail s 8 c else if b ≠ bytesOf 16 s.image.tag then imageFail s 9 0 else imageReady s) := by
  show execImageLoadComplete s = _
  rw [execImageLoadComplete, gate_up hp, hans]
  exact congrArg _ (if_neg (not_not_intro hload))

/-! ### Leaving service (R206, R321) -/

/-- R206: a ridge with no unit has none to flush. -/
theorem flushDraining_empty {s : State} {r : Nat} (h : unitsOf s r = []) : flushDraining s r = s := by
  rw [flushDraining, h]
  exact ite_self s

section
variable {s : State} {n : Nat} (hp : s.ao.portsUp = true)
include hp

/-- R321: a DRAINING ridge with its spurs OUT and every unit FREE goes OUT. -/
theorem exec_drainComplete_ridge (hsvc : (ridge s n).svc = .draining) (hspurs : ∀ i, i < 4 → (spur s (4 * n + i)).svc = .out)
    (hunits : unitsOf s n = []) : exec (.drainComplete true n) s = .next (ridgeDrained s n) := by
  have hout : (List.range 4).all (fun i => decide ((spur s (4 * n + i)).svc = .out)) = true :=
    List.all_eq_true.2 fun i hi => decide_eq_true (hspurs i (List.mem_range.1 hi))
  show execDrainComplete true n s = _
  rw [execDrainComplete, gate_up hp, if_pos rfl, flushDraining_empty hunits]
  exact congrArg _ (if_pos ⟨hsvc, hout, hunits⟩)

/-- R206, R321: an idle DRAINING spur has the FAILED units of its ridge flushed, and goes OUT unless it owes a program then. -/
theorem exec_drainComplete_spur (hsvc : (spur s n).svc = .draining) (hidle : spurIdle s n = true) :
    exec (.drainComplete false n) s = .next (
      if spurOwes (flushDraining s (n / 4)) n then flushDraining s (n / 4) else spurDrained (flushDraining s (n / 4)) n) := by
  show execDrainComplete false n s = _
  rw [execDrainComplete, gate_up hp, if_neg Bool.false_ne_true, if_pos ⟨hsvc, hidle⟩]

/-! ### Returning to service (R322, R323) -/

/-- R323: a ridge whose first return is behind it is IN at the end of its steps; its spurs may return, and held work goes on. -/
theorem exec_rejoinDone_ridge (hsvc : (ridge s n).svc = .returning) (hfirst : (ridge s n).firstDone = true) :
    exec (.rejoinDone true n) s = .next (releaseUnits (svcKick (ridgeIn s n))) := by
  show execRejoinDone true n s = _
  rw [execRejoinDone, gate_up hp, if_pos rfl, if_pos ⟨hsvc, hfirst⟩]

/-- R322, R323: a spur brought up on a ridge IN joins if its engine passes its check, and is refused otherwise (log entry 22). -/
theorem exec_rejoinDone_spur (hsvc : (spur s n).svc = .returning) (hridge : (ridge s (n / 4)).svc = .inService)
    (hup : spurBrought s n = true) (hstores : (spur s n).storesBad = false) :
    exec (.rejoinDone false n) s = .next (if engineGood s n then releaseUnits (spurIn s n)
      else modSpur (setOd s (0x4100 + n) 0x01 0) n (fun x => { x with svc := .out, refusal := 0x13 })) := by
  have hgo : (spur s n).svc = .returning ∧ (ridge s (n / 4)).svc = .inService ∧ spurBrought s n = true ∧ ¬ (spur s n).storesBad = true :=
    ⟨hsvc, hridge, hup, by simp [hstores]⟩
  show execRejoinDone false n s = _
  rw [execRejoinDone, gate_up hp, if_neg Bool.false_ne_true, if_pos hgo]

end

/-- Settles O38: the key port's answer ends a load, and what a spur or ridge still has decides whether it leaves or returns. -/
theorem images_load_and_units_leave_and_return : Obligations.Images_load_and_units_leave_and_return := by
  unfold Obligations.Images_load_and_units_leave_and_return
  refine ⟨fun s c b hp hload hans => ⟨fun hc => ?failed, fun hc hb => ?wrongTag, fun hc hb => ?ready⟩,
    fun s n hp => ⟨exec_drainComplete_ridge hp, fun hsvc hidle => ⟨fun howes => ?leaves, fun howes => ?owes⟩, exec_rejoinDone_ridge hp,
      fun hsvc hridge hup hstores => ⟨fun hgood => ?joins, fun hbad => ?refused⟩⟩⟩
  case failed => rw [exec_imageLoadComplete hp hload hans, if_pos hc]
  case wrongTag => rw [exec_imageLoadComplete hp hload hans, if_neg (not_not_intro hc), if_pos hb]
  case ready =>
    rw [exec_imageLoadComplete hp hload hans, if_neg (not_not_intro hc), if_neg (not_not_intro hb)]
    rfl
  case leaves => rw [exec_drainComplete_spur hp hsvc hidle, if_neg (Bool.eq_false_iff.1 howes)]
  case owes => rw [exec_drainComplete_spur hp hsvc hidle, if_pos howes]
  case joins => rw [exec_rejoinDone_spur hp hsvc hridge hup hstores, if_pos hgood]
  case refused => rw [exec_rejoinDone_spur hp hsvc hridge hup hstores, if_neg (Bool.eq_false_iff.1 hbad)]

end Sys2Proof.Machine
end

section
/-! PROOFS. Erases between their markers (R208 to R210, R217 to R221). -/

open Sys2Proof.Claims
namespace Sys2Proof.Machine

/-! ### What a poll leaves of a LUN's work (R128) -/

theorem erases_polled (s : State) (l : Nat) (byte : Byte) : (lunOf (polled s l byte) l).erases = (lunOf s l).erases := by
  rw [lunOf_polled]

theorem busy_polled (s : State) (l : Nat) (byte : Byte) : (lunOf (polled s l byte) l).busy = (lunOf s l).busy := by
  rw [lunOf_polled]

/-- A poll takes no time of the block's clock. -/
theorem timeUs_polled (s : State) (l : Nat) (byte : Byte) : (polled s l byte).ao.timeUs = s.ao.timeUs := by
  have hlatch : (latchDie (bus s l (pollCycles s l)) l byte).ao = s.ao :=
    foldl_keeps (·.ao) _ (fun s e => by split <;> rfl) _ _
  rw [polled]
  exact congrArg (·.timeUs) hlatch

section
variable {s : State} {l : Nat} {j : EraseJob} {rest : List EraseJob} (hhead : (lunOf s l).erases = j :: rest)
include hhead

/-! ### The erase at the head of a LUN starts (R208, R209, R217) -/

section
variable (hphase : j.phase = .queued) (hblocked : eraseBlocked s l j = false) (hopen : eraseOpen s l = true)
include hphase hblocked hopen

/-- R209: an erase without journaling is issued at once. -/
theorem startErase_unjournaled (hjournal : j.journal = false) : startErase s l = issueErase (tookTurn s l 3) l j := by
  simp only [startErase, hhead, hphase, hblocked, hopen, hjournal]
  rfl

/-- R217: one with journaling takes its ERASE_SEQ and programs its INTENT. -/
theorem startErase_journaled (hjournal : j.journal = true) (hretried : j.retried = false) (hcovers : covers s (eProgram s 0) = true)
    (hswitch : switchDue s l = false) : startErase s l = programMarker (takeSeq (tookTurn s l 3) l) l j 1 := by
  simp only [startErase, hhead, hphase, hblocked, hopen, hjournal, hretried, hcovers, hswitch]
  rfl

end

/-- R208: where the planes go one by one the next is issued once the LUN and its port let it. -/
theorem startNext_open {k : Nat} {left : List Nat} (hleft : j.left = k :: left) (hphase : j.phase = .erasing) (hopen : eraseOpen s l = true) :
    startNext s l = nextErase (tookTurn s l 3) l j k left := by
  simp only [startNext, hhead, hleft]
  exact if_pos ⟨hphase, hopen⟩

/-- R219: a switch that is due comes before the next marker. -/
theorem eraseIssue_switch (hphase : j.phase ≠ .marked) (hjournal : j.journal = true) (hswitch : switchDue s l = true) :
    eraseIssue s l = switchFirst s l j := by
  rw [eraseIssue, hhead]
  exact if_pos ⟨hjournal, hphase, hswitch⟩

/-- R209: with no switch to make the erase does what it can. -/
theorem eraseIssue_go (h : j.journal = false ∨ switchDue s l = false) : eraseIssue s l = eraseGo s l := by
  have hnone : ¬ (j.journal = true ∧ j.phase ≠ .marked ∧ switchDue s l = true) := by
    rintro ⟨hjournal, -, hswitch⟩
    exact h.elim (by simp [hjournal]) (by simp [hswitch])
  rw [eraseIssue, hhead]
  exact if_neg hnone

/-! ### The INTENT marker ends (R218, R221) -/

/-- In its phase an INTENT ends by FAIL of the status byte and by whether the marker has failed before. -/
theorem intentResult_eq (byte : Byte) (hphase : j.phase = .intent) (hbusy : (lunOf s l).busy = .marker) : intentResult s l byte =
    let e := markerEnd s l j
    let f := markerFailed e l byte.toNat 1 j.desc.region
    if byte.getLsbD 0 = false then startMarked (modErase (modLun e l (fun x =>
      { x with markers := x.markers ++ [⟨fBlock j.desc.phys, planeMask j.planes, j.seq, j.desc.region, j.record, x.flagBlock⟩] })) l
      (fun j => { j with phase := .marked, retried := false })) l
    else if j.retried = true then endErase f l j (unmarkedStatus byte.toNat j)
    else eraseIssue (modErase f l (fun j => { j with phase := .queued, retried := true, byte := byte.toNat })) l := by
  have hgo : ¬ (j.phase ≠ .intent ∨ (lunOf s l).busy ≠ .marker) := by simp [hphase, hbusy]
  rw [intentResult, hhead]
  dsimp only
  rw [if_neg hgo]
  simp only [Bool.not_eq_true]

/-! ### The DONE marker ends (R218, R220, R221) -/

/-- In its phase a DONE ends by FAIL of the status byte and by whether the marker has failed before. -/
theorem doneResult_eq (byte : Byte) (hphase : j.phase = .doneMark) (hbusy : (lunOf s l).busy = .marker) : doneResult s l byte =
    let e := markerEnd s l j
    let f := markerFailed e l byte.toNat 2 j.desc.region
    if byte.getLsbD 0 = false then settleErase (modLun e l (fun x =>
      { x with markers := resolveMarks x.markers (fBlock j.desc.phys) (planeMask j.planes) j.fail j.seq })) l j
    else if j.retried = true then settleErase f l j
    else eraseIssue (modErase f l (fun j => { j with retried := true })) l := by
  have hgo : ¬ (j.phase ≠ .doneMark ∨ (lunOf s l).busy ≠ .marker) := by simp [hphase, hbusy]
  rw [doneResult, hhead]
  dsimp only
  rw [if_neg hgo]
  simp only [Bool.not_eq_true]

end

/-! ### The die reports the result of an erase (R208, R210) -/

/-- An erase once the die has reported its result on some planes. -/
def erasedOn (j : EraseJob) (planes : List Nat) (mask : Nat) (byte : Byte) : EraseJob :=
  let bad := failingPlanes planes mask byte
  { j with fail := j.fail ||| planeMask bad, byte := if j.fail = 0 then byte.toNat else j.byte,
           passed := j.passed ++ planes.filter (fun k => !bad.contains k) }

/-- The LUN is free again, and the erase at its head stands as f, in a phase. -/
def erasedState (s : State) (l : Nat) (f : EraseJob) (p : ErasePhase) : State :=
  climbWaiting (modErase (modLun s l (fun x => { x with busy := .idle })) l (fun _ => { f with phase := p })) l

/-- R208, R221: what follows the result of an erase: the next plane, its DONE marker, or its end. -/
theorem eraseResult_eq {s : State} {l b : Nat} {j : EraseJob} {rest : List EraseJob} {planes : List Nat} (mask : Nat) (byte : Byte)
    (hhead : (lunOf s l).erases = j :: rest) (hbusy : (lunOf s l).busy = .erase planes b) :
    eraseResult s l mask byte =
      let f := erasedOn j planes mask byte
      if j.left ≠ [] then startNext (erasedState s l f j.phase) l
      else if j.journal = true then startDone (erasedState s l f .doneMark) l
      else settleErase (erasedState s l f j.phase) l f := by
  have hone : eraseResult s l mask byte =
      let f := erasedOn j planes mask byte
      let t := erasedState s l f (if j.journal = true ∧ j.left = [] then .doneMark else j.phase)
      if j.left ≠ [] then startNext t l else if j.journal = true then startDone t l else settleErase t l f := by
    rw [eraseResult, hhead, hbusy]
    rfl
  rw [hone]
  by_cases hleft : j.left = []
  · cases hjournal : j.journal <;> simp [hleft]
  · simp [hleft]

/-- R218: the end of a marker in three: it passed, it failed again, or it failed for the first time. -/
theorem marker_outcomes {x : Host.Outcome State Fault Refusal} {fail retried : Bool} {passed again first : State}
    (h : x = .next (if fail = false then passed else if retried = true then again else first)) :
    (fail = false → x = .next passed) ∧ (fail = true → retried = true → x = .next again)
      ∧ (fail = true → retried = false → x = .next first) := by
  cases fail <;> cases retried <;> simp [h]

/-! ### The commands -/

section
variable {s : State} {l : Nat} {byte : Byte} (hp : s.ao.portsUp = true)
include hp

theorem exec_eraseCommandIssue : exec (.eraseCommandIssue l) s = .next (eraseIssue s l) :=
  gate_up hp _

theorem exec_intentMarkerResult (hready : Ready s l byte) (hbusy : (lunOf s l).busy = .marker) :
    exec (.intentMarkerResult l byte) s = .next (intentResult (polled s l byte) l byte) := by
  show execIntentMarkerResult l byte s = _
  rw [execIntentMarkerResult, gate_up hp, if_pos hbusy, dieResult_of_ready hready]

theorem exec_doneMarkerResult (hready : Ready s l byte) (hbusy : (lunOf s l).busy = .marker) :
    exec (.doneMarkerResult l byte) s = .next (doneResult (polled s l byte) l byte) := by
  show execDoneMarkerResult l byte s = _
  rw [execDoneMarkerResult, gate_up hp, if_pos hbusy, dieResult_of_ready hready]

theorem exec_eraseResult {planes : List Nat} {b : Nat} (mask : Nat) (hready : Ready s l byte) (hbusy : (lunOf s l).busy = .erase planes b) :
    exec (.eraseResult l mask byte) s = .next (eraseResult (polled s l byte) l mask byte) := by
  show execEraseResult l mask byte s = _
  rw [execEraseResult, gate_up hp, hbusy]
  dsimp only
  rw [dieResult_of_ready hready]

end

/-- Settles O31: a poll leaves the erase at the head of its LUN as it was, and what ends there is told by FAIL and by the erase's phase. -/
theorem erases_run_between_their_markers : Obligations.Erases_run_between_their_markers := by
  unfold Obligations.Erases_run_between_their_markers
  intro s l j rest hp hhead
  have hpoll (byte : Byte) : (lunOf (polled s l byte) l).erases = j :: rest := (erases_polled s l byte).trans hhead
  refine ⟨fun hphase hblocked hopen => ⟨fun hjournal => ?issued, fun hjournal hretried hcovers hswitch => ?marked⟩,
    fun hphase hjournal hswitch => ?switches, fun byte hready hphase hbusy => ?intent, fun mask byte planes b hready hbusy => ?result,
    fun k left hleft hphase hopen => startNext_open hhead hleft hphase hopen, fun byte hready hphase hbusy => ?done⟩
  case issued =>
    rw [exec_eraseCommandIssue hp, eraseIssue_go hhead (.inl hjournal), eraseGo, startErase_unjournaled hhead hphase hblocked hopen hjournal]
  case marked =>
    rw [exec_eraseCommandIssue hp, eraseIssue_go hhead (.inr hswitch), eraseGo,
      startErase_journaled hhead hphase hblocked hopen hjournal hretried hcovers hswitch]
  case switches => rw [exec_eraseCommandIssue hp, eraseIssue_switch hhead hphase hjournal hswitch]
  case intent =>
    exact marker_outcomes ((exec_intentMarkerResult hp hready hbusy).trans
      (congrArg _ (intentResult_eq (hpoll byte) byte hphase ((busy_polled s l byte).trans hbusy))))
  case result =>
    intro bad f t
    rw [exec_eraseResult hp mask hready hbusy, eraseResult_eq mask byte (hpoll byte) ((busy_polled s l byte).trans hbusy)]
    exact ⟨fun hleft => congrArg _ (if_pos hleft),
      fun hleft hjournal => congrArg _ ((if_neg (not_not.2 hleft)).trans (if_pos hjournal)),
      fun hleft hjournal => congrArg _ ((if_neg (not_not.2 hleft)).trans (if_neg (ne_true_of_eq_false hjournal)))⟩
  case done =>
    exact marker_outcomes ((exec_doneMarkerResult hp hready hbusy).trans
      (congrArg _ (doneResult_eq (hpoll byte) byte hphase ((busy_polled s l byte).trans hbusy))))

end Sys2Proof.Machine
end

section
/-! PROOFS. Probes of blocks and the patrol scrub (R224, R227, R229). -/

open Sys2Proof.Claims
namespace Sys2Proof.Machine

/-! ### Probes (R224) -/

/-- R224: the operation of a probe that has ended makes way for the next one. -/
theorem probeNext_more {s : State} {l b r : Nat} {pl : List Nat} {x y : Bool × List BusCyc} {more : List (Bool × List BusCyc)}
    (hbusy : (lunOf s l).busy = .probe pl b r (x :: y :: more)) : probeNext s l
      = modLun (bus s l y.2) l (fun z => { z with busy := .probe pl b r (y :: more), startUs := s.ao.timeUs, ranUs := 0 }) := by
  rw [probeNext, hbusy]

theorem pollReady_probe {s : State} {l b r : Nat} {pl : List Nat} {todo : List (Bool × List BusCyc)}
    (hbusy : (lunOf s l).busy = .probe pl b r todo) : pollReady s l = probeNext s l := by
  rw [pollReady, hbusy]

section
variable {s : State} {l b r : Nat} {pl : List Nat} {todo : List (Bool × List BusCyc)} (zeros : List Nat)
  (hbusy : (lunOf s l).busy = .probe pl b r todo)
include hbusy

/-- With operations left to send no probe ends. -/
theorem probeResult_more (hmore : 1 < todo.length) : probeResult s l zeros = s := by
  rw [probeResult, hbusy]
  exact if_pos hmore

variable (hlast : todo.length ≤ 1)
include hlast

/-- R224: after its last operation a probe ends for the first context that waits for it, and step 0 is restored. -/
theorem probeResult_ends {p c : Nat} {more : List (Nat × Nat)} (hwaits : probeCtxs s l = (p, c) :: more) : probeResult s l zeros
    = probeRestore (probeEnded (modLun s l (fun x => { x with busy := .idle })) l p c zeros) l r b := by
  rw [probeResult, hbusy]
  dsimp only
  rw [if_neg (Nat.not_lt.2 hlast), hwaits]

/-- With no context left that waits for it, step 0 is restored all the same. -/
theorem probeResult_unclaimed (hnone : probeCtxs s l = []) : probeResult s l zeros
    = probeRestore (modLun s l (fun x => { x with busy := .idle })) l r b := by
  rw [probeResult, hbusy]
  dsimp only
  rw [if_neg (Nat.not_lt.2 hlast), hnone]

end

theorem exec_probeResult {s : State} (l : Nat) (zeros : List Nat) (hp : s.ao.portsUp = true) :
    exec (.probeResult l zeros) s = .next (probeResult s l zeros) :=
  gate_up hp _

/-- R128, R224: a poll that shows the LUN of a probe ready sends the next operation. -/
theorem exec_statusPoll_probe {s : State} {l b r : Nat} {byte : Byte} {pl : List Nat} {x y : Bool × List BusCyc}
    {more : List (Bool × List BusCyc)} (hp : s.ao.portsUp = true) (hready : Ready s l byte) (hsusp : (lunOf s l).susp = none)
    (hbusy : (lunOf s l).busy = .probe pl b r (x :: y :: more)) :
    exec (.statusPoll l byte) s = .next (modLun (bus (polled s l byte) l y.2) l
      (fun z => { z with busy := .probe pl b r (y :: more), startUs := s.ao.timeUs, ranUs := 0 })) := by
  have hpoll : (lunOf (polled s l byte) l).busy = .probe pl b r (x :: y :: more) := (busy_polled s l byte).trans hbusy
  rw [exec_statusPoll_ended hp hready (.inl hsusp), pollReady_probe hpoll, probeNext_more hpoll, timeUs_polled]

/-! ### The patrol scrub (R227, R229) -/

section
variable {s : State} {r : Nat}

/-- R227: the patrol of a RUNNING region runs while the block takes new work, SCRUB_PERIOD is above 0 and SCRUB_ENABLE set. -/
theorem scrubRuns_iff : scrubRuns s r = true ↔
    (region s r).state = 1 ∧ fetchOpen s = true ∧ od s (0x2000 + r) 0x08 ≠ 0 ∧ od s 0x2240 0x01 ≠ 0 := by
  simp only [scrubRuns, Bool.and_eq_true, decide_eq_true_eq, and_assoc]
  rfl

variable (hp : s.ao.portsUp = true)
include hp

/-- R227: a step due waits for the reads of the last one, counted late once. -/
theorem exec_scrubStepDue (hruns : scrubRuns s r = true) : exec (.scrubStepDue r) s = .next (
    if 0 < (region s r).scrubOut then
      (if (region s r).scrubLate = true then s else count (modRegion s r (fun g => { g with scrubLate := true })) (0x2300 + r) 0x05)
    else scrubStep s r) := by
  show execScrubStepDue r s = _
  rw [execScrubStepDue, gate_up hp]
  exact congrArg _ (if_neg (not_not.2 hruns))

/-- R229: a page that a patrol step or a SCRUB_RANGE has read is assessed. -/
theorem exec_scrubPageAssessed {p c : Nat} (hused : ctxUsed s p c = true) (hstage : (ctxOf s p c).stage = 4)
    (hop : (ctxOf s p c).desc.op = 0x18 ∨ (ctxOf s p c).desc.op = 0x40) : exec (.scrubPageAssessed p c) s = .next (assessPage s p c) := by
  show execScrubPageAssessed p c s = _
  rw [execScrubPageAssessed, gate_up hp]
  exact congrArg _ (if_pos ⟨hused, hstage, hop⟩)

end

/-- Settles O32: a probe ends with its last operation, and a patrol step waits for the reads of the one before it. -/
theorem probes_and_patrol_steps : Obligations.Probes_and_patrol_steps := by
  unfold Obligations.Probes_and_patrol_steps
  intro s hp
  refine ⟨fun l zeros pl b r todo hbusy hlast => ?ends, fun l zeros pl b r x y more hbusy => ⟨?waits, fun byte hready hsusp => ?next⟩,
    fun r hstate hfetch hperiod henable => ⟨fun hidle => ?runs, fun hreads hfirst => ?late⟩, fun p c => exec_scrubPageAssessed hp⟩
  case ends =>
    intro i
    rw [exec_probeResult l zeros hp]
    exact ⟨fun p c more hwaits => congrArg _ (probeResult_ends zeros hbusy hlast hwaits),
      fun hnone => congrArg _ (probeResult_unclaimed zeros hbusy hlast hnone)⟩
  case waits => rw [exec_probeResult l zeros hp, probeResult_more zeros hbusy (by simp)]
  case next => exact exec_statusPoll_probe hp hready hsusp hbusy
  case runs =>
    rw [exec_scrubStepDue hp (scrubRuns_iff.2 ⟨hstate, hfetch, hperiod, henable⟩), if_neg (by omega)]
  case late =>
    rw [exec_scrubStepDue hp (scrubRuns_iff.2 ⟨hstate, hfetch, hperiod, henable⟩), if_pos hreads, if_neg (ne_true_of_eq_false hfirst)]

end Sys2Proof.Machine
end

section
/-! PROOFS. Frames received on a Col link, in turn, damaged or out of turn (R244, R245, R246, R247, R250, R254, R257, R259). -/

open Sys2Proof.Claims
namespace Sys2Proof.Machine

/-! ### What a link does with a frame (R245) -/

section
variable {s : State} {l kind n : Nat} {flit tail : Flit} {data : List Flit} {taken : State → State}

/-- R251: a link that is not UP, or whose lanes are down, receives nothing. -/
theorem rxFrame_deaf (h : (link s l).state ≠ 2 ∨ (link s l).lanes = false) : rxFrame s l kind flit n data tail taken = s := by
  have hdeaf : (link s l).state ≠ 2 ∨ ¬ (link s l).lanes = true := h.imp_right ne_true_of_eq_false
  simp only [rxFrame, hdeaf, ↓reduceIte]

/-- R245: a frame in its turn, its data whole, is counted and taken. -/
theorem rxFrame_in_turn (h : Arrives s l kind flit) (hdata : 0 < n → dataIntact n data tail = true) :
    rxFrame s l kind flit n data tail taken = taken (counted s l (if n = 0 then 1 else n + 2)) := by
  obtain ⟨-, hup, hlanes, hintact, hkind, hseq⟩ := h
  have hwhole : ¬ (n > 0 ∧ ¬ dataIntact n data tail = true) := fun hbad => hbad.2 (hdata hbad.1)
  simp only [rxFrame, counted, hup, hlanes, hintact, hkind, hseq, hwhole, ne_eq, not_true_eq_false, or_self, ↓reduceIte]

theorem gate_rxFrame_header (h : Arrives s l kind flit) :
    gate s (rxFrame s l kind flit 0 [] 0 taken) = .next (taken (counted s l 1)) := by
  rw [gate_up h.1, rxFrame_in_turn h (absurd · (lt_irrefl 0)), if_pos rfl]

theorem gate_rxFrame_data (hn : n ≠ 0) (h : Arrives s l kind flit) (hdata : dataIntact n data tail = true) :
    gate s (rxFrame s l kind flit n data tail taken) = .next (taken (counted s l (n + 2))) := by
  rw [gate_up h.1, rxFrame_in_turn h fun _ => hdata, if_neg hn]

variable (hup : (link s l).state = 2) (hlanes : (link s l).lanes = true)
include hup hlanes

/-- R245: a flit that fails its CRC is counted, and a replay asked for. -/
theorem rxFrame_damaged (h : flitIntact flit = false) :
    rxFrame s l kind flit n data tail taken = ackOn (count s (0x8010 + l) 0x07) l 0 0 0 true := by
  simp [rxFrame, hup, hlanes, h]

/-- R245: for a SEQ that is not the next expected a replay is asked for. -/
theorem rxFrame_out_of_turn (hintact : flitIntact flit = true) (hkind : fhKind flit = kind) (hseq : fhSeq flit ≠ (link s l).rxNext) :
    rxFrame s l kind flit n data tail taken = ackOn s l 0 0 0 true := by
  simp [rxFrame, hup, hlanes, hintact, hkind, hseq]

end

/-! ### What a member does with a frame that came down its chain (R238, R246, R254, R366) -/

section
variable {s : State} {l r : Nat} {flit : Flit} {act : Nat → State → State}

theorem withMember_unmatched {cause : Nat} (h : matchFrame s l flit = .error cause) :
    withMember l flit s act = refuseFrame s l (fhSeq flit) cause := by
  simp only [withMember, h]

/-- R246 cause 7, R366: refused while the rail is low, the region attached again. -/
theorem withMember_railLow (h : matchFrame s l flit = .ok r) (hlow : railLow s = true) :
    withMember l flit s act = refuseFrame (reattach s r) l (fhSeq flit) 7 := by
  simp only [withMember, h, hlow, ↓reduceIte]

theorem withMember_act (h : matchFrame s l flit = .ok r) (hrail : railLow s = false) :
    withMember l flit s act = act r (reattach s r) := by
  simp only [withMember, h, hrail, Bool.false_eq_true, ↓reduceIte]

/-- R250: an OPEN that no cause of a NAK holds against opens the member's unit. -/
theorem openTaken_opens (h : matchFrame s l flit = .ok r) (hrail : railLow s = false)
    (hnew : memberUnit (reattach s r) l (fhHandle flit) = none)
    (haddr : frameAddr (reattach s r) 0x09 r (fhFpa flit) (fhByte20 flit % 8) = true)
    (hroom : bankRoom (reattach s r) (fhFpa flit) (fhByte20 flit % 8 + 1) = true)
    (hhalf : frameHalf (reattach s r) r (fhFpa flit) (fhByte20 flit % 8) = false) :
    openTaken l flit s =
      let y := memberOpen (reattach s r) l r .member 0x09 (fhFpa flit) (fhByte20 flit % 8) (fhSeq flit) (fhHandle flit)
      memberGo (acceptFrame y.1 l r flit [] false) y.2 := by
  simp only [openTaken, withMember_act h hrail, hnew, haddr, hroom, hhalf, Option.isSome_none, Bool.false_eq_true, not_true_eq_false, ↓reduceIte]

/-- R250: a DISCARD is accepted, and takes the unit away unless its program has begun. -/
theorem discardTaken_of_unit {u : Nat} (h : matchFrame s l flit = .ok r) (hrail : railLow s = false)
    (hunit : memberUnit (reattach s r) l (fhHandle flit) = some u) :
    discardTaken l flit s = acceptFrame
      (if (unit (reattach s r) u).state = .opened ∨ (unit (reattach s r) u).state = .committed
        then moveRetry (freeUnit (reattach s r) u) (u / 232) else reattach s r) l r flit [] true := by
  simp only [discardTaken, withMember_act h hrail, hunit]
  split <;> rfl

/-- R250: an ERASE whose address holds is pushed as the member's own work. -/
theorem eraseTaken_pushes (h : matchFrame s l flit = .ok r) (hrail : railLow s = false)
    (haddr : frameAddr (reattach s r) 0x10 r (fhFpa flit) (fhByte20 flit % 8) = true) :
    eraseTaken l flit s = acceptFrame (memberPush (reattach s r)
      { op := 0x10, cls := 3, region := r, flags := fhByte20 flit % 8, named := fhFpa flit, phys := physOf (reattach s r) r (fhFpa flit),
        arg := fhByte20 flit % 8 }) l r flit [] true := by
  simp only [eraseTaken, withMember_act h hrail, haddr, not_true_eq_false, ↓reduceIte]

end

/-- OPEN, DISCARD and ERASE, whole and in turn, are taken as a member takes a frame down its chain. -/
theorem exec_memberFrame {s : State} {l : Nat} {flit : Flit} {c : Instr}
    (h : (c = .openFrame l flit ∧ Arrives s l 0x02 flit) ∨ (c = .discardFrame l flit ∧ Arrives s l 0x05 flit)
      ∨ (c = .eraseFrame l flit ∧ Arrives s l 0x07 flit)) :
    ∃ act, exec c s = .next (withMember l flit (counted s l 1) act) := by
  rcases h with ⟨rfl, hframe⟩ | ⟨rfl, hframe⟩ | ⟨rfl, hframe⟩
  case inl =>
    have hexec : exec (.openFrame l flit) s = .next (openTaken l flit (counted s l 1)) := gate_rxFrame_header hframe
    simp only [hexec, openTaken]
    exact ⟨_, rfl⟩
  case inr.inl => exact ⟨_, gate_rxFrame_header (taken := discardTaken l flit) hframe⟩
  case inr.inr =>
    have hexec : exec (.eraseFrame l flit) s = .next (eraseTaken l flit (counted s l 1)) := gate_rxFrame_header hframe
    simp only [hexec, eraseTaken]
    exact ⟨_, rfl⟩

/-- Settles O33: a frame in turn reaches what its kind takes, and a member's frame what its match, the rail and its unit say. -/
theorem col_frames_are_taken_in_turn : Obligations.Col_frames_are_taken_in_turn := by
  unfold Obligations.Col_frames_are_taken_in_turn
  intro s l flit data tail f num seq b
  refine ⟨fun c hc => ?refused, fun r hmatch hrail => ?_, gate_rxFrame_header, gate_rxFrame_header, gate_rxFrame_data (by decide),
    gate_rxFrame_header, gate_rxFrame_header, gate_rxFrame_header, gate_rxFrame_data (by decide)⟩
  case refused =>
    obtain ⟨act, hexec⟩ := exec_memberFrame hc
    rw [hexec]
    exact ⟨fun n hmatch => congrArg _ (withMember_unmatched hmatch), fun r hmatch hlow => congrArg _ (withMember_railLow hmatch hlow)⟩
  intro a
  refine ⟨fun h hnew haddr hroom hhalf => ?opens, fun h u hunit => ?discards, fun h haddr => ?erases⟩
  case opens =>
    rw [← openTaken_opens hmatch hrail hnew haddr hroom hhalf]
    exact gate_rxFrame_header h
  case discards =>
    have hexec : exec (.discardFrame l flit) s = .next (discardTaken l flit b) := gate_rxFrame_header h
    rw [hexec, discardTaken_of_unit hmatch hrail hunit]
    refine ⟨fun hfree => ?frees, fun hbegun => ?keeps⟩
    case frees => rw [if_pos hfree]
    case keeps => rw [if_neg (by rcases hbegun with hu | hu <;> simp [a, hu])]
  case erases =>
    rw [← eraseTaken_pushes hmatch hrail haddr]
    exact gate_rxFrame_header h

/-! ### Commands of frames of one header flit -/

/-- A frame of one header flit as a command: its KIND, the command, and what a link takes from it once it is received. -/
structure HeaderFrame where
  kind : Nat
  command : Instr
  taken : State → State

/-- R242: the frames of one header flit that have a SEQ but HELLO. -/
def headerFrames (l : Nat) (flit : Flit) : List HeaderFrame :=
  [⟨0x02, .openFrame l flit, openTaken l flit⟩, ⟨0x03, .lineFrame l flit, lineTaken l flit⟩, ⟨0x04, .commitFrame l flit, commitTaken l flit⟩,
   ⟨0x05, .discardFrame l flit, discardTaken l flit⟩, ⟨0x07, .eraseFrame l flit, eraseTaken l flit⟩, ⟨0x08, .copyFrame l flit, copyTaken l flit⟩,
   ⟨0x09, .degradeFrame l flit, degradeTaken l flit⟩, ⟨0x0A, .repairReq l flit, requestTaken l flit⟩]

/-- R245: each of them is received by its link alike. -/
theorem exec_headerFrame (s : State) {l : Nat} {flit : Flit} {x : HeaderFrame} (h : x ∈ headerFrames l flit) :
    exec x.command s = gate s (rxFrame s l x.kind flit 0 [] 0 x.taken) := by
  revert x
  simp only [headerFrames, List.forall_mem_cons]
  exact ⟨rfl, rfl, rfl, rfl, rfl, rfl, rfl, rfl, fun _ h => absurd h List.not_mem_nil⟩

/-- R243, R245: an ACK that fails its CRC is counted, and a replay asked for. -/
theorem exec_ack_damaged {s : State} {l : Nat} {flit : Flit} (hp : s.ao.portsUp = true) (hup : (link s l).state = 2)
    (hlanes : (link s l).lanes = true) (h : flitIntact flit = false) :
    exec (.ack l flit) s = .next (ackOn (count s (0x8010 + l) 0x07) l 0 0 0 true) := by
  show execAck l flit s = _
  rw [execAck, gate_up hp]
  simp [hup, hlanes, h]

/-- Settles O34: every such frame comes to its link in one way, and the link looks at its CRC and its SEQ before anything else of it. -/
theorem damaged_or_repeated_frames_have_no_effect : Obligations.Damaged_or_repeated_frames_have_no_effect := by
  unfold Obligations.Damaged_or_repeated_frames_have_no_effect
  refine fun s l flit hp hup hlanes => ⟨fun hdamaged => ?damaged, fun hintact hseq => ?outOfTurn⟩
  case damaged =>
    refine (List.forall_mem_append (l₁ := (headerFrames l flit).map HeaderFrame.command) (l₂ := [.ack l flit])).2
      ⟨List.forall_mem_map.2 fun x hx => ?frame, List.forall_mem_singleton.2 (exec_ack_damaged hp hup hlanes hdamaged)⟩
    case frame => rw [exec_headerFrame s hx, gate_up hp, rxFrame_damaged hup hlanes hdamaged]
  case outOfTurn =>
    have hframe : ∀ x ∈ headerFrames l flit, fhKind flit = x.kind → exec x.command s = .next (ackOn s l 0 0 0 true) := fun x hx hkind => by
      rw [exec_headerFrame s hx, gate_up hp, rxFrame_out_of_turn hup hlanes hintact hkind hseq]
    exact List.forall_mem_map (f := fun x : HeaderFrame => (x.kind, x.command)) (l := headerFrames l flit) |>.2 hframe

end Sys2Proof.Machine
end

section
/-! PROOFS. Links that train, acknowledge and fail, and repairs that nobody answers (R244, R245, R247, R248, R251, R257). -/

open Sys2Proof.Claims
namespace Sys2Proof.Machine

/-! ### Training (R251) -/

section
variable {s : State} {l : Nat}

/-- A change of a link that agrees with another on the link as it is. -/
theorem modLink_congr {f g : Link → Link} (h : f (link s l) = g (link s l)) : modLink s l f = modLink s l g := by
  by_cases hl : l = 0 <;> simp only [link, modLink, hl, ↓reduceIte] at h ⊢ <;> rw [h]

/-- Only a link that is UP can fail. -/
theorem linkFail_up (cause pos nak : Nat) (h : (link s l).state = 2) : linkFail s l cause pos nak = linkDown s l 3 cause pos nak := if_pos h

theorem linkFail_not_up (cause pos nak : Nat) (h : (link s l).state ≠ 2) : linkFail s l cause pos nak = s := if_neg h

variable (hp : s.ao.portsUp = true)
include hp

theorem exec_helloTimer (htrains : (link s l).state = 1) (hrail : railDown s = false) :
    exec (.helloTimer l) s = .next (count (emit s (.col l 0 (helloFlit s))) (0x8010 + l) 0x04) := by
  show execHelloTimer l s = _
  rw [execHelloTimer, gate_up hp, if_pos ⟨htrains, ne_true_of_eq_false hrail⟩]

/-- R251: an intact HELLO brings a training link up; what was held for the link is judged again, and damaged pages are asked for. -/
theorem exec_hello {flit : Flit} (htrains : (link s l).state = 1) (hlanes : (link s l).lanes = true) (hintact : flitIntact flit = true)
    (hkind : fhKind flit = 1) : exec (.hello l flit) s = .next (
      let b := modLink s l (fun x => { x with state := 2, txSeq := 1, rxNext := 1, credits := 512 })
      (List.range 256).foldl askRepairs (releaseHeld
        (readyChange (setOd (count b (0x8010 + l) 0x05) (0x8010 + l) 0x03 (fhFpa flit).toNat) 6 l true 0) (fun c => decide (c = .link l)))) := by
  show execHello l flit s = _
  rw [execHello, gate_up hp]
  simp only [htrains, hlanes, hintact, hkind, ne_eq, not_true_eq_false, or_self, ↓reduceIte]

/-- R251: with its lanes down a link takes no HELLO. -/
theorem exec_hello_deaf (flit : Flit) (hlanes : (link s l).lanes = false) : exec (.hello l flit) s = .next s := by
  show execHello l flit s = _
  rw [execHello, gate_up hp, if_pos (.inr (ne_true_of_eq_false hlanes))]

/-- R432: a link whose lanes fall fails if it is UP, and keeps its lanes only if it trains. -/
theorem exec_lanesDown : exec (.lanesDown l) s
    = .next (modLink (linkFail s l 5 0 0) l (fun x => { x with lanes := decide (x.state = 1) })) :=
  gate_up hp _

/-! ### Acknowledges (R243, R247) -/

theorem exec_ack_deaf (flit : Flit) (hlanes : (link s l).lanes = false) : exec (.ack l flit) s = .next s := by
  show execAck l flit s = _
  rw [execAck, gate_up hp, if_pos (.inr (ne_true_of_eq_false hlanes))]

theorem exec_ack_taken {flit : Flit} (hup : (link s l).state = 2) (hlanes : (link s l).lanes = true) (hintact : flitIntact flit = true)
    (hkind : fhKind flit = 0x10) : exec (.ack l flit) s = .next (ackTaken s l flit) := by
  show execAck l flit s = _
  rw [execAck, gate_up hp]
  simp only [hup, hlanes, hintact, hkind, ne_eq, not_true_eq_false, or_self, ↓reduceIte]

/-! ### Timeouts (R244, R245, R248, R257) -/

/-- R244: a link whose first waiting frame lacks credits fails. -/
theorem exec_creditTimeout {f : TxFrame} {rest : List TxFrame} (hwaits : (link s l).waiting = f :: rest)
    (hstarved : (link s l).credits < f.flits.length) : exec (.creditTimeout l) s = .next (linkFail s l 3 0 0) := by
  show execCreditTimeout l s = _
  simp only [execCreditTimeout, gate_up hp, hwaits, gt_iff_lt, hstarved, ↓reduceIte]

/-- R245: a frame of the replay buffer that is not covered in time is sent again. -/
theorem exec_replayTimeout {f : TxFrame} (hup : (link s l).state = 2) (hf : f ∈ (link s l).replay) :
    exec (.replayTimeout l f.seq) s = .next (replayFrom s l f.seq) := by
  show execReplayTimeout l f.seq s = _
  rw [execReplayTimeout, gate_up hp, if_pos ⟨hup, List.any_eq_true.2 ⟨f, hf, decide_eq_true rfl⟩⟩]

/-- R248: the first position of a timed frame past its deadline fails the link, a later one degrades the region. -/
theorem exec_hopDeadline {seq pos n : Nat} {t : HopTimer} (htimer : (link s l).timers.find? (fun t => t.seq = seq) = some t)
    (hsent : ∀ f ∈ (link s l).waiting, f.seq ≠ seq)
    (hlate : ((List.range (min pos (chainLen s t.region))).map (fun k => k + 1)).find? (fun n => !posAcked (link s l) n seq) = some n) :
    exec (.hopDeadline l seq pos) s = .next (if n = 1 then linkFail s l 1 1 0 else degradeRegion s t.region n 1) := by
  have hissued : (link s l).waiting.any (fun f => decide (f.seq = seq)) = false := by simpa using hsent
  show execHopDeadline l seq pos s = _
  simp only [execHopDeadline, gate_up hp, htimer, hissued, hlate, Bool.false_eq_true, ↓reduceIte]

/-- R257: the oldest request of a REQUEST_ID that has stood its time goes, and this block's own is told of. -/
theorem exec_repairTimeout {id : BitVec 32} {e : RepReq}
    (hdue : s.col.table.find? (fun e => decide (e.id = id) && decide (e.since + od s 0x8000 0x05 * 1000 ≤ s.ao.timeUs)) = some e) :
    exec (.repairTimeout id) s = .next (
      let b := { s with col := { s.col with table := s.col.table.erase e } }
      if e.own then repairNotice b e.region 3 (chainPos s e.region) id.toNat e.fpa (downLink s e.region) id.toNat else b) := by
  show execRepairTimeout id s = _
  simp only [execRepairTimeout, gate_up hp, hdue]
  rfl

end

/-- Settles O35: each command is told apart by the state of its link, and a link that fails was UP. -/
theorem links_train_acknowledge_and_fail : Obligations.Links_train_acknowledge_and_fail := by
  unfold Obligations.Links_train_acknowledge_and_fail
  refine ⟨fun s l flit hp => ⟨exec_helloTimer hp, exec_hello hp, fun htrains => ?trainsAgain, fun _ hlanes => ?deaf, exec_ack_taken hp⟩,
    fun s l hp hup => ⟨fun f rest hwaits hstarved => ?starved, fun seq f hf hseq => ?replays, ?lanesLost, fun seq pos n t htimer hsent hlate => ?late,
      fun id e => exec_repairTimeout hp⟩⟩
  case trainsAgain =>
    rw [exec_lanesDown hp, linkFail_not_up 5 0 0 (by omega)]
    exact congrArg _ (modLink_congr (by simp only [htrains, decide_true]))
  case deaf =>
    refine ⟨exec_hello_deaf hp flit hlanes, ?_, exec_ack_deaf hp flit hlanes⟩
    show gate s (rxFrame s l 2 flit 0 [] 0 (openTaken l flit)) = _
    rw [gate_up hp, rxFrame_deaf (.inr hlanes)]
  case starved => rw [exec_creditTimeout hp hwaits hstarved, linkFail_up 3 0 0 hup]
  case replays =>
    subst hseq
    exact exec_replayTimeout hp hup hf
  case lanesLost => rw [exec_lanesDown hp, linkFail_up 5 0 0 hup]
  case late => rw [exec_hopDeadline hp htimer hsent hlate, linkFail_up 1 1 0 hup]

end Sys2Proof.Machine
end

section
/-! PROOFS. Control-port writes of the key command and of the erase of a key slot (R265, R267, R271 to R274). -/

open Sys2Proof.Claims
namespace Sys2Proof.Machine

/-! ### Writes of the key entries (R386) -/

theorem rangeOk_keyEntry (s : State) {i : Nat} (sub v : Nat) (h : i = 0x6000) : rangeOk s i sub v = true := by
  have hgroup : ¬ (0x2140 ≤ i ∧ i < 0x2148 ∧ sub = 0x01) := by omega
  have hlock : ¬ (0x4200 ≤ i ∧ i < 0x4240 ∧ sub = 0x01) := by omega
  unfold rangeOk
  split
  iterate 12 omega
  rw [if_neg hgroup, if_neg hlock, ite_self]

/-- R386: a control-port write of a key entry that no running command bars passes when its row takes the value. -/
theorem gate_ctlWrite_keyEntry {s : State} {mid sub v : Nat} {r : OdRow} (hp : s.ao.portsUp = true) (hm : mid ≠ 0)
    (hr : odRow 0x6000 sub = some r) (ha : r.acc = .rw ∨ r.acc = .wo) (hfree : odBusy s 0x6000 sub = false)
    (hv : (tyFits r.ty v && decide (r.lo ≤ v) && decide (v ≤ r.hi)) = true) :
    gate s (ctlWrite s mid 0x6000 sub v) = .next (okWrite (applyWrite s ⟨false, mid⟩ 0x6000 sub v) mid 0x6000 sub) := by
  have htv : isTvState 0x6000 sub = false := by simp [isTvState]
  have hrws : r.acc ≠ .rws := by rcases ha with h | h <;> simp [h]
  have hcode : writeCode s ⟨false, mid⟩ 0x6000 sub v = 0 := by
    refine writeCode_ok s mid 0x6000 sub v r hm hr ha ?once ?stop hfree ?owner ?value
    case once => simp [onceWritten]
    case stop => simp [needsStop, hrws]
    case owner => simp [ownerOnly]
    case value => simp only [valueOk, hv, rangeOk_keyEntry s sub v rfl, Bool.and_self, Bool.or_true]
  rw [gate_up hp, ctlWrite_eq_okWrite s mid 0x6000 sub v hcode htv]

theorem applyWrite_keyCmd (s : State) (q : Req) (v : Nat) : applyWrite s q 0x6000 0x08 v = keyCommand s (decide (v = 2)) := by
  rw [applyWrite_high s q v (by decide) (by decide), applyHigh, if_neg (by decide), if_neg (by decide),
    if_neg (by decide), if_neg (by decide), if_pos ⟨rfl, rfl⟩, Option.getD_some]

theorem applyWrite_keyErase (s : State) (q : Req) (v : Nat) : applyWrite s q 0x6000 0x15 v = eraseSlot s v := by
  rw [applyWrite_high s q v (by decide) (by decide), applyHigh, if_neg (by decide), if_neg (by decide),
    if_neg (by decide), if_neg (by decide), if_neg (by decide), if_pos ⟨rfl, rfl⟩, Option.getD_some]

/-! ### The commands -/

section
variable {s : State} {mid : Nat} (hp : s.ao.portsUp = true) (hm : mid ≠ 0)
include hp hm

/-- R273: a write of 1 or 2 to CMD while no command runs. -/
theorem gate_keyCmd {v : Nat} (hlo : 1 ≤ v) (hhi : v ≤ 2) (hidle : od s 0x6000 0x09 % 4 ≠ 1) :
    gate s (ctlWrite s mid 0x6000 0x08 v) = .next (okWrite (keyCommand s (decide (v = 2))) mid 0x6000 0x08) := by
  have hfree : odBusy s 0x6000 0x08 = false := by simp [odBusy, hidle]
  have hfits : (tyFits .u8 v && decide (1 ≤ v) && decide (v ≤ 2)) = true := by simp [tyFits]; omega
  rw [gate_ctlWrite_keyEntry hp hm (r := ⟨8, 8, .u8, .wo, 0, 1, 2⟩) rfl (.inr rfl) hfree hfits, applyWrite_keyCmd]

/-- R267: a write of a slot to ERASE_SLOT, which a running command does not bar. -/
theorem exec_eraseSlot {v : Nat} (hv : v < 1024) : exec (.eraseSlot mid v) s = .next (okWrite (eraseSlot s v) mid 0x6000 0x15) := by
  have hfits : (tyFits .u16 v && decide (0 ≤ v) && decide (v ≤ 1023)) = true := by simp [tyFits]; omega
  show execEraseSlot mid v s = _
  rw [execEraseSlot, gate_ctlWrite_keyEntry hp hm (r := ⟨21, 21, .u16, .wo, 0, 0, 1023⟩) rfl (.inr rfl) rfl hfits, applyWrite_keyErase]

variable (hidle : od s 0x6000 0x09 % 4 ≠ 1)
include hidle

theorem exec_load : exec (.load mid) s = .next (okWrite (keyCommand s false) mid 0x6000 0x08) :=
  gate_keyCmd hp hm (v := 1) le_rfl (by decide) hidle

theorem exec_derive : exec (.derive mid) s = .next (okWrite (keyCommand s true) mid 0x6000 0x08) :=
  gate_keyCmd hp hm (v := 2) (by decide) le_rfl hidle

end

/-! ### LOAD and DERIVE by the state of the slot (R265, R273) -/

/-- The context bytes of the command that starts (R272). -/
def keyContext (s : State) : List Byte :=
  (leBytes 8 (od s 0x6000 0x04) ++ leBytes 8 (od s 0x6000 0x05) ++ leBytes 8 (od s 0x6000 0x06)).take (od s 0x6000 0x07)

/-- R263: the slot once a command for it begins; one with live material keeps it in use while it is loaded again. -/
def slotBegun (s : State) (k : Nat) : State :=
  modKey s k (fun x => { x with state := if slotUsable x.state then .reloading else .loading })

section
variable {s : State} (derive : Bool)

theorem keyCommand_draining (h : (keySlot s (od s 0x6000 0x01)).state = .draining) : keyCommand s derive = cmdStatus s 0x21 6 2 :=
  if_pos h

/-- Marking the slot leaves the dictionary alone, so the parameters of the script are those found. -/
theorem keyCommand_starts (h : (keySlot s (od s 0x6000 0x01)).state ≠ .draining) (hready : s.keyReady = true) : keyCommand s derive
    = keyStart (cmdStatus (slotBegun s (od s 0x6000 0x01)) 0 0 1)
        (keyJobOf (if derive then .derive else .load) (od s 0x6000 0x01) (od s 0x6000 0x02) (od s 0x6000 0x03) (keyContext s)) := by
  have hstill : ¬ ¬ (slotBegun s (od s 0x6000 0x01)).keyReady = true := not_not.2 hready
  rw [keyCommand]
  exact (if_neg h).trans (if_neg hstill)

end

/-! ### ERASE_SLOT while no command runs (R205, R263, R267) -/

/-- The slot without its material, and its keys gone from every ridge's cache and fills. -/
def slotEmptied (s : State) (k : Nat) : State :=
  let a := modKey s k (fun x => { x with state := if (keySlot s k).state = .empty then .empty else .erased,
                                         live := 0, shadow := 0, derived := false })
  { a with ridges := a.ridges.mapVals {} (fun r => { r with keyCache := r.keyCache.filter (fun x => x.1.1 ≠ k),
                                                            keyFills := r.keyFills.filter (fun x => x.1 ≠ k) }) }

/-- The units bound to a slot. -/
def unitsOfSlot (s : State) (k : Nat) : List (Nat × Led) :=
  s.units.entries.filter (fun e => match e.2.key with
    | some (n, _) => decide (n = k)
    | none => false)

/-- R205: what becomes of the units bound to a slot: each is treated by its state, then the places of the committed ones are filled. -/
def unitsErased (s : State) (k : Nat) : State :=
  ((unitsOfSlot s k).filter (fun e => e.2.state = .committed)).foldl fillDiscarded
    (((unitsOfSlot s k).map (fun e => e.1)).foldl (eraseUnit k) s)

/-- With no command at the port or waiting for it, none is abandoned, and the erase is that of the slot and its units. -/
theorem eraseSlot_idle {s : State} (k : Nat) (hjob : s.keyJob = none) (hqueue : s.keyQueue = []) : eraseSlot s k
    = releaseHeld (keyNotice (count (unitsErased (slotEmptied s k) k) 0x6000 0x10) k 3 0) (fun c => decide (c = .keyLoading)) := by
  simp only [eraseSlot, hjob, hqueue, List.any_nil, Bool.false_eq_true, if_false]
  rfl

/-- Settles O17: the writes pass at their rows, and their effect is read off the slot, the key port and the units they meet. -/
theorem key_command_writes : Obligations.Key_command_writes := by
  unfold Obligations.Key_command_writes
  intro s mid hp hm hidle k begun ctx job
  refine ⟨fun hdraining => ?refused, fun hloads hready => ?begins, fun v hv hjob hqueue => ?erases⟩
  case refused =>
    rw [exec_load hp hm hidle, exec_derive hp hm hidle, keyCommand_draining false hdraining, keyCommand_draining true hdraining]
    exact ⟨rfl, rfl⟩
  case begins =>
    rw [exec_load hp hm hidle, exec_derive hp hm hidle, keyCommand_starts false hloads hready, keyCommand_starts true hloads hready]
    exact ⟨rfl, rfl⟩
  case erases =>
    rw [exec_eraseSlot hp hm hv, eraseSlot_idle v hjob hqueue]
    rfl

end Sys2Proof.Machine
end

section
/-! PROOFS. What every command keeps of the queue, block time and the resets, and what commands do with the ports down (R353, R444, R446, R447). -/

open Sys2Proof.Claims
namespace Sys2Proof.Machine

/-! ### One step -/

/-- Settles O1: the step looks at the queue alone. -/
theorem step_runs_front_command : Obligations.Step_runs_front_command := by
  unfold Obligations.Step_runs_front_command
  refine ⟨fun c rest s hqueue => ?front, fun s hempty => ?idle⟩
  case front => simp only [step, hqueue]
  case idle => simp only [step, hempty]

/-! ### Commands of the ports (R432, R444) -/

/-- The commands whose event can occur while the ports are down: those of the always-on island, the resets and the ends of self-tests. -/
def actsPortless : Instr → Bool
  | .railSample _ | .cairnRecord | .nonceExpiry | .clearRemove | .clearWaitTimeout | .aoReset | .blockReset | .aoResetRelease
  | .blockResetRelease | .selfTestDone _ _ => true
  | _ => false

/-- A command of the ports whose meaning leaves the queue of commands and the clock as they are. -/
def GatedKeepsClk (c : Instr) (s : State) : Prop := ∃ u, exec c s = gate s u ∧ KeepsClk u s

theorem keepsClk_of_keeps {t s : State} (h : Keeps t s) : KeepsClk t s := ⟨h.1, h.2.1⟩
theorem keepsClk_of_keepsOrder {t s : State} (h : KeepsOrder t s) : KeepsClk t s := ⟨h.1, h.2.1⟩

/-- R432, R444: every other command meets its meaning with the ports up alone, and no meaning touches the queue of commands, block time,
the resets or the port state. -/
theorem exec_gatedKeepsClk {c : Instr} (s : State) (hc : actsPortless c = false) : GatedKeepsClk c s := by
  cases c with
  | railSample | cairnRecord | nonceExpiry | clearRemove | clearWaitTimeout | aoReset | blockReset | aoResetRelease | blockResetRelease
    | selfTestDone => exact absurd hc (by simp [actsPortless])
  | queueEnable | queueDisable | qerrWrite | watermarkWrite | poolPeakWrite | noticeRingEnable | noticeRingDisable | regionEnable | regionDisable
    | tvStateWrite | poisonRemove | heRemove | linkEnable | linkDisable | mirrorResync | mirrorSynced | mirrorDegrade | load | derive | eraseSlot
    | rearm | imageCmd | spurEnable | spurDisable | ridgeEnable | ridgeDisable | engineFaultedWrite | mboxLockRelease | mboxLockForce | inDataWrite
    | inPost | outAck | rediscover | shutdown | dropPending | idleHintUs | railMinMvWrite | demandPeakWrite | crestlineEnable | portSeqWrite
    | rateWrite | nonceReq | clearCmd | clearKeyIndexWrite | injectEngine | injectMem | tempPeakWrite =>
    exact ⟨_, rfl, keepsClk_of_keepsOrder (kept_ctlWrite _ _ _ _ _)⟩
  | statusPoll lun byte =>
    exact ⟨_, rfl, keepsClk_of_keeps (kept_dieResult _ _ _ _ (fun t => by
      split
      · exact kept_modLun ..
      · exact kept_pollReady ..))⟩
  | programResult lun failMask byte =>
    have hres := kept_dieResult s lun byte (fun s => programResult s lun failMask byte) (fun t => kept_programResult ..)
    refine ⟨_, rfl, ?_, ?_⟩ <;> (repeat' split) <;> simp [hres]
  | intentMarkerResult lun byte =>
    have hres := kept_dieResult s lun byte (fun s => intentResult s lun byte) (fun t => kept_intentResult ..)
    refine ⟨_, rfl, ?_, ?_⟩ <;> (repeat' split) <;> simp [hres]
  | eraseResult lun failMask byte =>
    have hres := kept_dieResult s lun byte (fun s => eraseResult s lun failMask byte) (fun t => kept_eraseResult ..)
    refine ⟨_, rfl, ?_, ?_⟩ <;> (repeat' split) <;> simp [hres]
  | doneMarkerResult lun byte =>
    have hres := kept_dieResult s lun byte (fun s => doneResult s lun byte) (fun t => kept_doneResult ..)
    refine ⟨_, rfl, ?_, ?_⟩ <;> (repeat' split) <;> simp [hres]
  | openFrame l flit => exact ⟨_, rfl, keepsClk_of_keeps (kept_rxFrame _ _ _ _ _ _ _ _ (kept_openTaken l flit))⟩
  | lineFrame l flit => exact ⟨_, rfl, keepsClk_of_keeps (kept_rxFrame _ _ _ _ _ _ _ _ (kept_lineTaken l flit))⟩
  | commitFrame l flit => exact ⟨_, rfl, keepsClk_of_keeps (kept_rxFrame _ _ _ _ _ _ _ _ (kept_commitTaken l flit))⟩
  | discardFrame l flit => exact ⟨_, rfl, keepsClk_of_keeps (kept_rxFrame _ _ _ _ _ _ _ _ (kept_discardTaken l flit))⟩
  | pageFrame l flit data tail => exact ⟨_, rfl, keepsClk_of_keeps (kept_rxFrame _ _ _ _ _ _ _ _ (kept_pageData l flit data tail))⟩
  | eraseFrame l flit => exact ⟨_, rfl, keepsClk_of_keeps (kept_rxFrame _ _ _ _ _ _ _ _ (kept_eraseTaken l flit))⟩
  | copyFrame l flit => exact ⟨_, rfl, keepsClk_of_keeps (kept_rxFrame _ _ _ _ _ _ _ _ (kept_copyTaken l flit))⟩
  | degradeFrame l flit => exact ⟨_, rfl, keepsClk_of_keeps (kept_rxFrame _ _ _ _ _ _ _ _ (kept_degradeTaken l flit))⟩
  | repairReq l flit => exact ⟨_, rfl, keepsClk_of_keeps (kept_rxFrame _ _ _ _ _ _ _ _ (kept_requestTaken l flit))⟩
  | repairFrame l flit data tail => exact ⟨_, rfl, keepsClk_of_keeps (kept_rxFrame _ _ _ _ _ _ _ _ (kept_repairTaken l flit data tail))⟩
  | dictionaryWrite =>
    refine ⟨_, rfl, keepsClk_of_keepsOrder ?_⟩
    split
    · exact keeps_order ⟨by simp, by simp, by simp⟩
    · exact kept_ctlWrite ..
  | crestRead syms =>
    refine ⟨_, rfl, keepsClk_of_keepsOrder ?_⟩
    split
    · exact order_ringRequest _ _ _ (fun t => keeps_order (kept_ringRead t syms))
    · exact keeps_order ⟨rfl, rfl, rfl⟩
  | crestWrite syms =>
    refine ⟨_, rfl, keepsClk_of_keepsOrder ?_⟩
    split
    · exact order_ringRequest _ _ _ (fun t => kept_ringWrite t syms)
    · exact keeps_order ⟨rfl, rfl, rfl⟩
  | selectRead syms =>
    refine ⟨_, rfl, keepsClk_of_keepsOrder ?_⟩
    split
    · exact order_ringRequest _ _ _ (fun t => kept_ringSelectRead t syms)
    · exact keeps_order ⟨rfl, rfl, rfl⟩
  | fetchTurn | fabricTimeout | retireEntry | noticeRecordWrite | portPhaseSelect | dataInSegmentDone | microwordExecute | fullTrainingDone | recordPortSend | memoryError | tagVerifyDone =>
    refine ⟨_, rfl, ?_, ?_⟩ <;> dsimp only <;> (repeat' split) <;> simp
  | doorbellWrite | tread | entryFetchResponse | lineRead | sectorRead | pageRead | gatherLineRead | lineWrite | unitOpen | unitCommit | pageProgram | erase | copyback | scrubRange
    | repairServe | fence | getFeatures | setFeatures | lunGetFeatures | lunSetFeatures | integratorOpcode | holdTimeout | descriptorPop
    | statusWriteResponse | queueOff | doneWordTimer | doneWordResponse | fenceComplete | noticeRecordResponse | tailWordResponse | messageWriteResponse | msgHoldoffExpiry
    | headWordReread | headWordResponse | regionStopped | gapMoveCommit | busyTimeout | arrayReadDone | slotReceived | readDataWriteResponse
    | holdWindowExpiry | resumeRunElapsed | suspendObserved | suspendPollTimeout | suspendWindowExpiry | resumeIssue | decoderAssign
    | decoderWaitTimeout | outerDecodeDone | thresholdsSet | chaseDecodeDone | stepZeroRestored | talusSync | lineStore | unitCommitted
    | sectorSealed | wlFillExpiry | programStart | unitRelease | eraseCommandIssue | probeResult | scrubStepDue | scrubPageAssessed | helloTimer
    | hello | ack | creditTimeout | replayTimeout | hopDeadline | repairTimeout | lanesDown | keyLockRetry | lockTimeout | keyAccessAck
    | keyAccessTimeout | keyStatusPoll | opTimeout | keyCacheFill | contextTimerExpiry | watchdogExpiry | spareTakeover | spareClockSwitched
    | imageLoadComplete | drainComplete | rejoinDone | mboxLockRead | mailboxTaken | outTimeout | bringupDone | trackingPass | railArmed
    | railWarning | railRecovered | ledgerGrant | admissionResumed | ridgeClosingDone | sequenceComplete | shutdownComplete | recoveryBarrier
    | unitRestore | idleEntry | wake | wakeComplete | idleHintExpiry | frameForward | ringCheck | ringCheckReturn | ringCheckTimeout | lateResponse
    | sensorConversion | sensorFault | readData | reservedKindMessage | discardedFrame | returningFrame =>
    refine ⟨_, rfl, ?_, ?_⟩ <;> (repeat' split) <;> simp

/-- Settles O59: with the ports down the gate of such a command gives the state back. -/
theorem with_the_ports_down_nothing_is_commanded : Obligations.With_the_ports_down_nothing_is_commanded := by
  unfold Obligations.With_the_ports_down_nothing_is_commanded
  intro c s hdown
  have hgate (hc : actsPortless c = false) : exec c s = .next s := by
    obtain ⟨u, hexec, -⟩ := exec_gatedKeepsClk s hc
    rw [hexec, gate, hdown, if_neg Bool.false_ne_true]
  cases c with
  | railSample | cairnRecord | nonceExpiry | clearRemove | clearWaitTimeout | aoReset | blockReset | aoResetRelease | blockResetRelease
    | selfTestDone => exact trivial
  | _ => exact hgate rfl

/-! ### The commands that act with the ports down too -/

/-- R353: a sample's other work leaves the queue of commands and the clock. -/
theorem keepsClk_afterTick (s : State) :
    KeepsClk (railAbove (railRuns (if s.ao.inBlkReset then s else answersSent (tagsFreed (countTime s))))) s := by
  refine ⟨?_, ?_⟩ <;> split <;> simp

/-- R447: no self-test but that of the ports touches the clock or the ports. -/
theorem keepsClk_selfTested (s : State) {what : SelfTest} (pass : Bool) (h : what ≠ .ports) : KeepsClk (selfTested s what pass) s := by
  cases what with
  | ports => exact absurd rfl h
  | _ =>
    unfold selfTested
    dsimp only
    refine ⟨?_, ?_⟩ <;> (repeat' split) <;> simp

/-- R447: the self-test of the ports leaves the clock, and may bring the ports up. -/
theorem selfTested_ports_clk (s : State) (pass : Bool) : (selfTested s .ports pass).pending = s.pending
    ∧ ((selfTested s .ports pass).ao.toClk = s.ao.toClk ∨ (selfTested s .ports pass).ao.toClk = { s.ao.toClk with portsUp := true }) := by
  unfold selfTested
  dsimp only
  split
  · refine ⟨?_, .inl ?_⟩ <;> split <;> simp
  · split
    · exact ⟨rfl, .inl rfl⟩
    · exact ⟨rfl, .inr rfl⟩

/-- What a command makes of the clock: block time, the two resets and the ports (R353, R444, R447). -/
def ClkStep (c : Instr) (k k' : Clk) : Prop :=
  match c with
  | .railSample _ => k' = if k.inAoReset then k else { k with timeUs := k.timeUs + 1 }
  | .aoReset => k' = { inAoReset := true, inBlkReset := k.inBlkReset }
  | .blockReset => k' = { k with inBlkReset := true, portsUp := false }
  | .aoResetRelease => k' = { k with inAoReset := false }
  | .blockResetRelease => k' = { k with inBlkReset := false }
  | .selfTestDone _ _ => k' = k ∨ k.inAoReset = false ∧ k.inBlkReset = false ∧ k' = { k with portsUp := true }
  | _ => k' = k

/-- State t has the queue of commands of s, and its clock as c makes it. -/
def StepsClk (c : Instr) (s t : State) : Prop := t.pending = s.pending ∧ ClkStep c s.ao.toClk t.ao.toClk

theorem railSample_stepsClk (code : Nat) (s : State) : ∃ t, exec (.railSample code) s = .next t ∧ StepsClk (.railSample code) s t := by
  refine ⟨_, rfl, ?_⟩
  unfold StepsClk ClkStep
  dsimp only
  split
  · exact ⟨rfl, rfl⟩
  · exact keepsClk_afterTick (modAo s (fun a => { a with timeUs := a.timeUs + 1, samples := ((code % 4096) :: a.samples).take 3 }))

theorem selfTestDone_stepsClk (what : SelfTest) (pass : Bool) (s : State) :
    ∃ t, exec (.selfTestDone what pass) s = .next t ∧ StepsClk (.selfTestDone what pass) s t := by
  refine ⟨_, rfl, ?_⟩
  have hkept {t : State} (h : KeepsClk t s) : StepsClk (.selfTestDone what pass) s t := ⟨h.1, .inl h.2⟩
  split
  · exact hkept ⟨rfl, rfl⟩
  · next hao =>
    split
    · exact hkept (keepsClk_selfTested s pass (by decide))
    · next w hw =>
      split
      · exact hkept ⟨rfl, rfl⟩
      · next hblk =>
        by_cases hports : what = .ports
        · subst hports
          obtain ⟨hpending, hclk⟩ := selfTested_ports_clk s pass
          exact ⟨hpending, hclk.imp_right fun h => ⟨Bool.eq_false_iff.2 hao, Bool.eq_false_iff.2 hblk, h⟩⟩
        · exact hkept (keepsClk_selfTested s pass hports)

theorem blockReset_stepsClk (s : State) : ∃ t, exec .blockReset s = .next t ∧ StepsClk .blockReset s t := by
  refine ⟨_, exec_blockReset s, ?_⟩
  rw [blockResetCounted_changes_od_only]
  exact ⟨rfl, rfl⟩

/-- Every command answers a next state, with the queue of commands as it is and the clock as the command makes it. -/
theorem exec_stepsClk (c : Instr) (s : State) : ∃ t, exec c s = .next t ∧ StepsClk c s t := by
  have hgate (hc : actsPortless c = false) : ∃ t, exec c s = .next t ∧ KeepsClk t s := by
    obtain ⟨u, hexec, hkept⟩ := exec_gatedKeepsClk s hc
    refine ⟨_, hexec, ?_⟩
    split
    · exact hkept
    · exact ⟨rfl, rfl⟩
  cases c with
  | railSample code => exact railSample_stepsClk code s
  | selfTestDone what pass => exact selfTestDone_stepsClk what pass s
  | blockReset => exact blockReset_stepsClk s
  | aoReset | aoResetRelease | blockResetRelease => exact ⟨_, rfl, rfl, rfl⟩
  | cairnRecord | nonceExpiry | clearRemove | clearWaitTimeout =>
    refine ⟨_, rfl, ?_, (?_ : _ = s.ao.toClk)⟩ <;> (repeat' split) <;> simp
  | _ => exact hgate rfl

/-- Settles O56: block time is part of the clock, and every command says what it makes of that. -/
theorem every_command_completes_and_keeps_the_queue : Obligations.Every_command_completes_and_keeps_the_queue := by
  unfold Obligations.Every_command_completes_and_keeps_the_queue
  intro c s
  obtain ⟨t, hexec, hpending, hclk⟩ := exec_stepsClk c s
  refine ⟨t, hexec, hpending, ?_⟩
  cases c with
  | railSample code =>
    refine (congrArg Clk.timeUs hclk).trans ?_
    split <;> rfl
  | selfTestDone what pass =>
    rcases hclk with h | ⟨-, -, h⟩ <;> exact (congrArg Clk.timeUs h :)
  | _ => exact (congrArg Clk.timeUs hclk :)

/-! ### Asserted resets (R444, R446, R447) -/

/-- ResetQuiet, of the clock alone. -/
def Clk.quiet (k : Clk) : Prop := (k.inAoReset = true ∨ k.inBlkReset = true → k.portsUp = false) ∧ (k.inAoReset = true → k.timeUs = 0)

theorem resetQuiet_iff (s : State) : ResetQuiet s ↔ s.ao.toClk.quiet := Iff.rfl

/-- Time passes outside the always-on reset alone, and the ports come up outside both resets alone. -/
theorem quiet_clkStep {c : Instr} {k k' : Clk} (h : ClkStep c k k') (hq : k.quiet) : k'.quiet := by
  cases c with
  | railSample =>
    obtain rfl := h
    split
    · exact hq
    · next hao => exact ⟨hq.1, fun ha => absurd ha hao⟩
  | selfTestDone =>
    obtain rfl | ⟨hao, hblk, rfl⟩ := h
    · exact hq
    · simp [Clk.quiet, hao, hblk]
  | aoReset =>
    obtain rfl := h
    exact ⟨fun _ => rfl, fun _ => rfl⟩
  | blockReset =>
    obtain rfl := h
    exact ⟨fun _ => rfl, hq.2⟩
  | aoResetRelease =>
    obtain rfl := h
    exact ⟨fun ha => hq.1 (.inr (ha.resolve_left Bool.false_ne_true)), fun ha => absurd ha Bool.false_ne_true⟩
  | blockResetRelease =>
    obtain rfl := h
    exact ⟨fun hb => hq.1 (.inl (hb.resolve_right Bool.false_ne_true)), hq.2⟩
  | _ =>
    obtain rfl := h
    exact hq

/-- Settles O57: by what each command makes of the clock. -/
theorem asserted_resets_keep_the_ports_down : Obligations.Asserted_resets_keep_the_ports_down := by
  unfold Obligations.Asserted_resets_keep_the_ports_down
  intro s t hquiet hstep
  unfold step at hstep
  split at hstep
  · exact Host.Outcome.next.inj hstep ▸ hquiet
  · next c rest hqueue =>
    obtain ⟨u, hexec, -, hclk⟩ := exec_stepsClk c { s with pending := rest }
    obtain rfl := Host.Outcome.next.inj (hexec.symm.trans hstep)
    exact quiet_clkStep hclk hquiet

end Sys2Proof.Machine
end

section
/-! PROOFS. The pointers of a Scree class and its packets (R302 to R305). -/

open Sys2Proof.Claims
namespace Sys2Proof.Machine

/-! ### Slots and items of a list of packets (R304) -/

theorem reservedSlots_append (l r : List (Nat × Bool × Desc)) : reservedSlots (l ++ r) = reservedSlots l + reservedSlots r := by
  induction l with
  | nil => simp [reservedSlots]
  | cons x l ih => simp [reservedSlots, ih, Nat.add_assoc]

/-- R304: a packet reserved behind the others publishes nothing. -/
theorem written_append_unwritten (l : List (Nat × Bool × Desc)) (n : Nat) (d : Desc) :
    Scree.written (l ++ [(n, false, d)]) = Scree.written l := by
  induction l with
  | nil => rfl
  | cons x l ih =>
    obtain ⟨m, whole, e⟩ := x
    cases whole with
    | false => rfl
    | true => simp [Scree.written, ih]

/-- What is published is reserved. -/
theorem written_le_reservedSlots (l : List (Nat × Bool × Desc)) : Scree.written l ≤ reservedSlots l := by
  induction l with
  | nil => exact Nat.le_refl _
  | cons x l ih =>
    obtain ⟨m, whole, e⟩ := x
    cases whole with
    | false => exact Nat.zero_le _
    | true => exact Nat.add_le_add_left ih m

/-! ### The pointers (R302 to R305) -/

/-- A pointer n slots ahead of P, on a ring of 512, reads back its distance. -/
theorem screeDistance {p n : Nat} (hp : p < 512) (hn : n ≤ 256) : ((p + n) % 512 + 512 - p % 512) % 512 = n := by omega

section
variable {c : Scree} (h : ScreeInv c)
include h

theorem occupancy_of_screeInv : c.occupancy = c.unread + reservedSlots c.packets := by
  obtain ⟨hp, hw, -, hroom⟩ := h
  rw [Scree.occupancy, hw, Nat.add_assoc, screeDistance hp hroom]

theorem depth_of_screeInv : c.depth = c.unread + Scree.written c.packets := by
  obtain ⟨hp, -, hc, hroom⟩ := h
  have := written_le_reservedSlots c.packets
  rw [Scree.depth, hc, Nat.add_assoc, screeDistance hp (by omega)]

/-- R302: room for a packet is room behind the items unread and the slots reserved. -/
theorem slots_of_room {n : Nat} (hroom : c.room n = true) : c.unread + reservedSlots c.packets + n ≤ 256 := by
  rw [← occupancy_of_screeInv h]
  exact of_decide_eq_true hroom

/-- R304: reserving within room. -/
theorem screeInv_reserve {d : Desc} (hroom : c.room d.items = true) : ScreeInv (c.reserve d) := by
  have hslots := slots_of_room h hroom
  obtain ⟨hp, hw, hc, -⟩ := h
  refine ⟨hp, ?_, ?_, ?_⟩ <;> simp only [Scree.reserve, reservedSlots_append, written_append_unwritten, reservedSlots]
  · omega
  · exact hc
  · omega

/-- R304: pushing within room. -/
theorem screeInv_push {d : Desc} (hroom : c.room d.items = true) : ScreeInv (c.push d) := by
  have hslots := slots_of_room h hroom
  obtain ⟨hp, hw, -, -⟩ := h
  refine ⟨hp, ?_, rfl, ?_⟩ <;>
    simp only [Scree.push, Scree.publish, Scree.reserve, List.dropLast_concat, reservedSlots_append, reservedSlots] <;> omega

/-- R305: NEXT, DROP and END. -/
theorem screeInv_readItems (n : Nat) : ScreeInv (c.readItems n) := by
  obtain ⟨hp, hw, hc, hroom⟩ := h
  refine ⟨Nat.mod_lt _ (by decide), ?_, ?_, ?_⟩ <;> simp only [Scree.readItems] <;> omega

end

theorem packets_push (c : Scree) (d : Desc) : (c.push d).packets = c.packets ++ [(d.items, true, d)] := by
  simp [Scree.push, Scree.publish, Scree.reserve]

/-- R303: a pop takes the packet at the front, which stands whole. -/
theorem pop_eq_some {c e : Scree} {d : Desc} (h : c.pop = some (d, e)) : ∃ n, c.packets = (n, true, d) :: e.packets
    ∧ e = { c with p := (c.p + min 1 n) % 512, unread := c.unread + (n - 1), packets := e.packets } := by
  unfold Scree.pop at h
  split at h
  · next n d' rest hpackets =>
    obtain ⟨rfl, rfl⟩ := Prod.mk.inj (Option.some.inj h)
    exact ⟨n, hpackets, rfl⟩
  · exact nomatch h

/-- R303, R305: the head is passed, and its body items go from the slots reserved to the items unread. -/
theorem screeInv_pop {c e : Scree} {d : Desc} (h : ScreeInv c) (hpop : c.pop = some (d, e)) : ScreeInv e := by
  obtain ⟨n, hpackets, he⟩ := pop_eq_some hpop
  obtain ⟨hp, hw, hc, hroom⟩ := h
  rw [hpackets, reservedSlots] at hw hroom
  rw [hpackets, Scree.written] at hc
  rw [he]
  refine ⟨Nat.mod_lt _ (by decide), ?_, ?_, ?_⟩ <;> dsimp only <;> omega

/-- Settles O54: each operation moves the pointers by the slots and items it moves. -/
theorem scree_pointers_follow_the_packets : Obligations.Scree_pointers_follow_the_packets := by
  unfold Obligations.Scree_pointers_follow_the_packets
  intro c h
  refine ⟨occupancy_of_screeInv h, depth_of_screeInv h, fun d hroom => ?pushes, fun d e hpop => ?pops, fun n => ?reads, fun n d rest hhead => ?waits⟩
  case pushes => exact ⟨screeInv_reserve h hroom, rfl, screeInv_push h hroom, packets_push c d⟩
  case pops =>
    obtain ⟨n, hpackets, he⟩ := pop_eq_some hpop
    exact ⟨screeInv_pop h hpop, n, hpackets, congrArg Scree.unread he, congrArg Scree.p he⟩
  case reads =>
    have hunread : (c.readItems n).unread = c.unread - n := by
      simp only [Scree.readItems]
      omega
    exact ⟨screeInv_readItems h n, hunread, rfl, rfl⟩
  case waits => simp only [Scree.pop, hhead]

end Sys2Proof.Machine
end

section
/-! PROOFS. The mailbox: its lock, and messages both ways (R311 to R315). -/

open Sys2Proof.Claims
namespace Sys2Proof.Machine

/-! ### Writes that pass (R386) -/

/-- R386: a control-port write passes when its entry may be written at all, its unit is stopped where that is asked, no command bars it, the
lock is the writer's where that is asked, and the entry holds the value. -/
theorem writeCode_passes {s : State} {mid i sub v : Nat} {r : OdRow} (hm : mid ≠ 0) (hr : odRow i sub = some r) (ha : r.acc ≠ .ro)
    (honce : onceWritten s i sub = false) (hstop : needsStop r i sub = true → unitStopped s mid i sub = true) (hfree : odBusy s i sub = false)
    (hown : ownerOnly i sub = true → (spur s (i - 0x4200)).mbox.owner = mid) (hv : valueOk s r i sub v = true) :
    writeCode s ⟨false, mid⟩ i sub v = 0 := by
  have hpath : pathOk s ⟨false, mid⟩ true i sub = true := by simp [pathOk, hm]
  have hstopped : ¬ (needsStop r i sub = true ∧ ¬ unitStopped s (reqCtx ⟨false, mid⟩) i sub = true) := fun h => h.2 (hstop h.1)
  have howned : ¬ (ownerOnly i sub = true ∧ (spur s (i - 0x4200)).mbox.owner ≠ mid) := fun h => h.2 (hown h.1)
  unfold writeCode
  rw [if_neg (not_not.2 hpath), hr]
  dsimp only
  rw [if_neg (by simp [ha, honce]), if_neg hstopped, if_neg (by simp [hfree]), if_neg howned, if_neg (not_not.2 hv)]

/-- R430: what such a write leaves, with the ports up. -/
theorem gate_ctlWrite_ok {s : State} {mid i sub v : Nat} (hp : s.ao.portsUp = true) (hc : writeCode s ⟨false, mid⟩ i sub v = 0)
    (htv : isTvState i sub = false) : gate s (ctlWrite s mid i sub v) = .next (okWrite (applyWrite s ⟨false, mid⟩ i sub v) mid i sub) := by
  rw [gate_up hp, ctlWrite_eq_okWrite s mid i sub v hc htv]

/-! ### Writes of a mailbox's entries (R312, R313, R315) -/

theorem odRows_mbox (p : Nat) (h : p < 64) : odRows (0x4200 + p) = od4200 := by
  unfold odRows
  repeat rw [if_neg (by omega)]
  rw [if_pos (by omega)]

/-- R312: the range of a mailbox entry: LOCK takes 0 and 0xFF alone. -/
theorem rangeOk_mbox (s : State) {i sub : Nat} (v : Nat) (hi : 0x4200 ≤ i ∧ i < 0x4240) :
    rangeOk s i sub v = (decide (sub ≠ 0x01) || decide (v = 0) || decide (v = 0xFF)) := by
  have hgroup : ¬ (0x2140 ≤ i ∧ i < 0x2148 ∧ sub = 0x01) := by omega
  unfold rangeOk
  split
  iterate 12 omega
  rw [if_neg hgroup]
  by_cases hsub : sub = 0x01
  · rw [if_pos (by omega)]
    simp [hsub]
  · rw [if_neg (by omega), ite_self]
    simp [hsub]

/-- R311, R386: a control-port write of a mailbox entry; IN_DATA and IN_POST are the owner's. -/
theorem gate_ctlWrite_mbox {s : State} {mid p sub v : Nat} {r : OdRow} (hp : s.ao.portsUp = true) (hm : mid ≠ 0) (hpl : p < 64)
    (hr : odRow (0x4200 + p) sub = some r) (ha : r.acc = .rw ∨ r.acc = .wo)
    (hown : 2 ≤ sub ∧ sub ≤ 10 → (spur s p).mbox.owner = mid) (hv : (tyFits r.ty v && decide (r.lo ≤ v) && decide (v ≤ r.hi)) = true)
    (hlock : sub = 0x01 → v = 0 ∨ v = 0xFF) :
    gate s (ctlWrite s mid (0x4200 + p) sub v) = .next (okWrite (applyWrite s ⟨false, mid⟩ (0x4200 + p) sub v) mid (0x4200 + p) sub) := by
  have hrws : r.acc ≠ .rws ∧ r.acc ≠ .ro := by rcases ha with h | h <;> simp [h]
  have hrange : rangeOk s (0x4200 + p) sub v = true := by
    rw [rangeOk_mbox s v (by omega)]
    by_cases h : sub = 0x01 <;> simp [h, hlock]
  refine gate_ctlWrite_ok hp (writeCode_passes hm hr hrws.2 ?once ?stop ?busy ?owner ?value) ?tv
  case once => simp [onceWritten, show 0x4200 + p ≠ 0x9100 by omega]
  case stop => simp [needsStop, hrws, show 0x4200 + p ≠ 0x9000 by omega, show 0x4200 + p ≠ 0x9200 by omega]
  case busy => simp [odBusy, show 0x4200 + p ≠ 0x6000 by omega, show 0x4200 + p ≠ 0x9100 by omega]
  case owner =>
    rw [Nat.add_sub_cancel_left]
    exact fun h => hown (by simp [ownerOnly] at h; omega)
  case value => simp only [valueOk, hv, hrange, Bool.and_self, Bool.or_true]
  case tv => simp [isTvState]; omega

/-- What an accepted write does to a mailbox. -/
theorem applyWrite_mbox (s : State) (q : Req) {p : Nat} (sub v : Nat) (hp : p < 64) : applyWrite s q (0x4200 + p) sub v
    = (if sub = 0x01 then some (writeLock s p q.who v)
        else if 2 ≤ sub ∧ sub ≤ 9 then
          some (modMbox s p (fun m => { m with inData := setAt (m.inData ++ List.replicate (8 - m.inData.length) 0) (sub - 2) (BitVec.ofNat 64 v) }))
        else if sub = 0x0A then some (postIn s p v)
        else if sub = 0x14 then
          some (modMbox s p (fun m => { m with outTimeout := m.outTimeout && !v.testBit 3, outLate := m.outLate && !v.testBit 4 }))
        else if sub = 0x15 then some (ackOut s p v)
        else none).getD (setOd s (0x4200 + p) sub v) := by
  rw [applyWrite_mid s q v (by omega), applyMid, if_neg (by omega), if_neg (by omega), if_neg (by omega), if_neg (by omega), if_neg (by omega),
    if_pos (by omega), Nat.add_sub_cancel_left]

/-- A spur is changed alike by what gives the same for it. -/
theorem modSpur_congr {s : State} {p : Nat} {f g : Spur → Spur} (h : f (spur s p) = g (spur s p)) : modSpur s p f = modSpur s p g := by
  unfold modSpur SMap.modify
  exact congrArg (fun v => { s with spurs := s.spurs.set {} p v }) h

theorem modMbox_congr {s : State} {p : Nat} {f g : Mbox → Mbox} (h : f (spur s p).mbox = g (spur s p).mbox) : modMbox s p f = modMbox s p g :=
  modSpur_congr (congrArg (fun m => { spur s p with mbox := m }) h)

/-! ### The commands -/

section
variable {s : State} {mid p : Nat} (hp : s.ao.portsUp = true) (hm : mid ≠ 0) (hpl : p < 64)
include hp hm hpl

/-- R312: a read of LOCK whose storage is good answers the owner, or 0 to who takes or holds it. -/
theorem exec_mboxLockRead (hgood : s.badStore.contains ((0x4200 + p) * 256 + 1) = false) :
    exec (.mboxLockRead mid p) s
      = .next (emit (readLock s p mid).2 (.ctl mid 0 (BitVec.ofNat 64 (readLock s p mid).1))) := by
  have hpath : pathOk s ⟨false, mid⟩ false (0x4200 + p) 0x01 = true := by simp [pathOk, hm]
  have hrow : odRow (0x4200 + p) 0x01 ≠ none := by rw [odRow, odRows_mbox p hpl]; exact Option.some_ne_none _
  have hread : dictRead s ⟨false, mid⟩ (0x4200 + p) 0x01 = (0, readLock s p mid) := by
    unfold dictRead
    rw [if_neg (not_not.2 hpath), if_neg hrow, odKey, hgood, if_neg Bool.false_ne_true, if_pos (by omega), Nat.add_sub_cancel_left]
  show execMboxLockRead mid p s = _
  rw [execMboxLockRead, gate_up hp, ctlRead, hread]

/-- R312: a write of 0 or 0xFF to LOCK. -/
theorem gate_mboxLock {v : Nat} (hv : v = 0 ∨ v = 0xFF) :
    gate s (ctlWrite s mid (0x4200 + p) 0x01 v) = .next (okWrite (writeLock s p mid v) mid (0x4200 + p) 0x01) := by
  have hrow : odRow (0x4200 + p) 0x01 = some ⟨1, 1, .u8, .rw, 0, 0, 255⟩ := by rw [odRow, odRows_mbox p hpl]; rfl
  rw [gate_ctlWrite_mbox hp hm hpl hrow (.inl rfl) (by omega) (by rcases hv with rfl | rfl <;> rfl) (fun _ => hv), applyWrite_mbox s _ _ v hpl]
  rfl

/-- R313: the owner's write of an IN_DATA word. -/
theorem exec_inDataWrite {w v : Nat} (hown : (spur s p).mbox.owner = mid) (hw : w < 8) (hv : v < 2 ^ 64) : exec (.inDataWrite mid p w v) s
    = .next (okWrite (modMbox s p (fun m =>
        { m with inData := setAt (m.inData ++ List.replicate (8 - m.inData.length) 0) w (BitVec.ofNat 64 v) })) mid (0x4200 + p) (0x02 + w)) := by
  have hrow : odRow (0x4200 + p) (0x02 + w) = some ⟨2, 9, .u64, .rw, 0, 0, 18446744073709551615⟩ := by
    rw [odRow, odRows_mbox p hpl]
    simp [od4200, OdRow.has]
    omega
  show execInDataWrite mid p w v s = _
  rw [execInDataWrite, gate_ctlWrite_mbox hp hm hpl hrow (.inl rfl) (fun _ => hown) (by simp [tyFits]; omega) (by omega),
    applyWrite_mbox s _ _ v hpl, if_neg (by omega), if_pos (by omega), Option.getD_some, Nat.add_sub_cancel_left]

/-- R313: the owner's write of IN_POST. -/
theorem exec_inPost {v : Nat} (hown : (spur s p).mbox.owner = mid) (hv : v < 65536) :
    exec (.inPost mid p v) s = .next (okWrite (postIn s p v) mid (0x4200 + p) 0x0A) := by
  have hrow : odRow (0x4200 + p) 0x0A = some ⟨10, 10, .u16, .wo, 0, 0, 65535⟩ := by rw [odRow, odRows_mbox p hpl]; rfl
  show execInPost mid p v s = _
  rw [execInPost, gate_ctlWrite_mbox hp hm hpl hrow (.inr rfl) (fun _ => hown) (by simp [tyFits]; omega) (by omega), applyWrite_mbox s _ _ v hpl]
  rfl

/-- R315: a write of OUT_ACK. -/
theorem exec_outAck {v : Nat} (hlo : 1 ≤ v) (hhi : v ≤ 5) :
    exec (.outAck mid p v) s = .next (okWrite (ackOut s p v) mid (0x4200 + p) 0x15) := by
  have hrow : odRow (0x4200 + p) 0x15 = some ⟨21, 21, .u8, .wo, 0, 1, 5⟩ := by rw [odRow, odRows_mbox p hpl]; rfl
  show execOutAck mid p v s = _
  rw [execOutAck, gate_ctlWrite_mbox hp hm hpl hrow (.inr rfl) (by omega) (by simp [tyFits]; omega) (by omega), applyWrite_mbox s _ _ v hpl]
  rfl

end

/-! ### Their effects by the state they meet -/

/-- R312: a free lock goes to the reader, and the owner keeps it. -/
theorem readLock_taken {s : State} {p who : Nat} (h : (spur s p).mbox.owner = 0 ∨ (spur s p).mbox.owner = who) :
    readLock s p who = (0, modMbox s p (fun m => { m with owner := who })) := if_pos h

theorem readLock_held {s : State} {p who : Nat} (h0 : (spur s p).mbox.owner ≠ 0) (h : (spur s p).mbox.owner ≠ who) :
    readLock s p who = ((spur s p).mbox.owner, s) := if_neg (not_or.2 ⟨h0, h⟩)

theorem writeLock_release {s : State} {p who : Nat} (h : (spur s p).mbox.owner = who) :
    writeLock s p who 0 = modMbox s p (fun m => { m with owner := 0 }) := if_pos ⟨rfl, h⟩

theorem writeLock_others {s : State} {p who : Nat} (h : (spur s p).mbox.owner ≠ who) : writeLock s p who 0 = s := if_neg (fun hw => h hw.2)

theorem writeLock_force {s : State} {p who : Nat} (h : (spur s p).mbox.owner ≠ 0) : writeLock s p who 0xFF
    = cairn (modMbox s p (fun m => { m with owner := 0 })) 0x43 (cu 1 p) 0xFFFF ((spur s p).mbox.owner * 16 + who) 0 0 0 0 := if_neg h

/-- R313: a message is posted where none waits or is being handled, and the lock is free again. -/
theorem postIn_posts {s : State} {p v : Nat} (h1 : (spur s p).mbox.inState ≠ 1) (h2 : (spur s p).mbox.inState ≠ 2) :
    postIn s p v = modMbox s p (fun m => { m with inState := 1, inCode := v, inAck := 0, owner := 0 }) :=
  modMbox_congr (if_neg (not_or.2 ⟨h1, h2⟩))

theorem ackOut_answers {s : State} {p v : Nat} (h : (spur s p).mbox.outState = 1) :
    ackOut s p v = modMbox s p (fun m => { m with outState := 2, outAck := v }) := modMbox_congr (if_pos h)

/-- R315: an outbound message that nobody has answered is withdrawn. -/
theorem exec_outTimeout {s : State} {p : Nat} (hp : s.ao.portsUp = true) (h : (spur s p).mbox.outState = 1) :
    exec (.outTimeout p) s = .next (modMbox s p (fun m => { m with outState := 0, outTimeout := true })) := by
  show execOutTimeout p s = _
  rw [execOutTimeout, gate_up hp]
  exact congrArg _ (modSpur_congr (if_pos h))

/-- A list of words once its first word, there or not, is replaced. -/
theorem head?_setAt_zero (l : List W64) (v : W64) : (setAt (l ++ List.replicate (8 - l.length) 0) 0 v).head? = some v := by
  cases l with
  | nil => rfl
  | cons x l => rfl

/-- R313, R314: the shipped routine answers an echo with its first word. -/
theorem exec_mailboxTaken_echo {s : State} {p : Nat} (hp : s.ao.portsUp = true) (hwaits : mailWaits s p = true) (hidle : (spur s p).current = none)
    (hecho : (spur s p).mbox.inCode = 1) : exec (.mailboxTaken p) s = .next (modSpur s p (fun y => { y with mbox := { (spur s p).mbox with
      inState := 3, inAck := 1,
      inData := setAt ((spur s p).mbox.inData ++ List.replicate (8 - (spur s p).mbox.inData.length) 0) 0 ((spur s p).mbox.inData.getD 0 0) } })) := by
  have hgoes : ¬ (¬ mailWaits s p = true ∨ (spur s p).current ≠ none) := by simp [hwaits, hidle]
  show execMailboxTaken p s = _
  rw [execMailboxTaken, gate_up hp]
  dsimp only
  rw [if_neg hgoes, if_pos hecho]

/-- Settles O19: each write passes at its row, and its effect is read off the mailbox it meets. -/
theorem mailbox_commands : Obligations.Mailbox_commands := by
  unfold Obligations.Mailbox_commands
  intro s mid p v hp hm _ hpl m put lockKey
  refine ⟨fun hgood => ⟨fun hfree => ?takes, fun h0 hother => ?told⟩, fun hown => ?release, fun hother => ?noRelease, fun hheld => ?force,
    fun w hw hv hown => exec_inDataWrite hp hm hpl hown hw hv, fun hv hown h1 h2 => ?post, fun hlo hhi hout => ?ack,
    fun hin hsvc hgo hidle hctx hecho => ?echo, exec_outTimeout hp⟩
  case takes => rw [exec_mboxLockRead hp hm hpl hgood, readLock_taken hfree]; rfl
  case told => rw [exec_mboxLockRead hp hm hpl hgood, readLock_held h0 hother]
  case release =>
    refine (gate_mboxLock hp hm hpl (.inl rfl)).trans ?_
    rw [writeLock_release hown]
    rfl
  case noRelease =>
    refine (gate_mboxLock hp hm hpl (.inl rfl)).trans ?_
    rw [writeLock_others hother]
  case force =>
    refine (gate_mboxLock hp hm hpl (.inr rfl)).trans ?_
    rw [writeLock_force hheld]
    rfl
  case post => rw [exec_inPost hp hm hpl hown hv, postIn_posts h1 h2]; rfl
  case ack => rw [exec_outAck hp hm hpl hlo hhi, ackOut_answers hout]; rfl
  case echo =>
    have hwaits : mailWaits s p = true := by simp [mailWaits, show (spur s p).mbox.inState = 1 from hin, hsvc, hgo, hctx]
    refine ⟨_, exec_mailboxTaken_echo hp hwaits hidle hecho, ?_⟩
    rw [spur_modSpur]
    exact ⟨rfl, rfl, head?_setAt_zero _ _, rfl⟩

end Sys2Proof.Machine
end

section
/-! PROOFS. Control-port writes of the power, recovery, idle and sensor entries (R353, R357, R369, R374, R378, R381, R460). -/

open Sys2Proof.Claims
namespace Sys2Proof.Machine

/-! ### Writes of the entries from 0x7000 on (R386) -/

/-- R386: a control-port write of an entry from 0x7000 on that no selector, mirror or once-written key is; what bars it is said of its own
unit, of a clear and of its range. -/
theorem gate_ctlWrite_high {s : State} {mid i sub v : Nat} {r : OdRow} (hp : s.ao.portsUp = true) (hm : mid ≠ 0) (hi : 0x7000 ≤ i)
    (hsel : isSel i sub = false) (hr : odRow i sub = some r) (ha : r.acc = .rw ∨ r.acc = .wo) (honce : onceWritten s i sub = false)
    (hstop : i ≠ 0x9000 ∧ i ≠ 0x9200 ∨ sub ≠ 2 ∨ unitStopped s mid i sub = true) (hclear : i ≠ 0x9100 ∨ sub ≠ 0x18 ∨ s.ao.clear = none)
    (hv : (tyFits r.ty v && decide (r.lo ≤ v) && decide (v ≤ r.hi)) = true) (hrange : rangeOk s i sub v = true) :
    gate s (ctlWrite s mid i sub v)
      = .next (okWrite ((applyHigh s ⟨false, mid⟩ i sub v).getD (setOd s i sub v)) mid i sub) := by
  have hrws : r.acc ≠ .rws ∧ r.acc ≠ .ro := by rcases ha with h | h <;> simp [h]
  rw [← applyWrite_high s _ v (by omega) hsel]
  refine gate_ctlWrite_ok hp (writeCode_passes hm hr hrws.2 honce ?stop ?busy ?owner ?value) ?tv
  case stop =>
    intro h
    have : i = 0x9000 ∧ sub = 2 ∨ i = 0x9200 ∧ sub = 2 := by simpa [needsStop, hrws] using h
    exact (hstop.resolve_left (by omega)).resolve_left (by omega)
  case busy =>
    have hrun : (decide (i = 0x9100) && decide (sub = 0x18) && s.ao.clear.isSome) = false := by
      rcases hclear with h | h | h <;> simp [h]
    rw [odBusy, hrun]
    simp [show i ≠ 0x6000 by omega]
  case owner => intro h; simp [ownerOnly] at h; omega
  case value => simp only [valueOk, hv, hrange, Bool.and_self, Bool.or_true]
  case tv => simp [isTvState]; omega

theorem odRows_idle (r : Nat) (h : r < 16) : odRows (0x7140 + r) = od7140 := by
  unfold odRows
  repeat rw [if_neg (by omega)]
  rw [if_pos (by omega)]
theorem odRows_sensor (n : Nat) (h : n < 17) : odRows (0x7210 + n) = od7210 := by
  unfold odRows
  repeat rw [if_neg (by omega)]
  rw [if_pos (by omega)]

/-- The entries of ridges' idle states and of sensors have no range but their row's. -/
theorem rangeOk_idleOrSensor (s : State) {i : Nat} (sub v : Nat) (h : 0x7140 ≤ i ∧ i < 0x7150 ∨ 0x7210 ≤ i ∧ i < 0x7221) :
    rangeOk s i sub v = true := by
  have hgroup : ¬ (0x2140 ≤ i ∧ i < 0x2148 ∧ sub = 0x01) := by omega
  have hlock : ¬ (0x4200 ≤ i ∧ i < 0x4240 ∧ sub = 0x01) := by omega
  unfold rangeOk
  split
  iterate 12 omega
  rw [if_neg hgroup, if_neg hlock, ite_self]

/-! ### The commands -/

section
variable {s : State} {mid : Nat} (hp : s.ao.portsUp = true) (hm : mid ≠ 0)
include hp hm

/-- R369: a write of 1 to SHUTDOWN. -/
theorem exec_shutdown : exec (.shutdown mid) s = .next (okWrite (startShutdown s) mid 0x7000 0x14) :=
  gate_ctlWrite_high (r := ⟨20, 20, .bool, .wo, 0, 0, 1⟩) hp hm (by decide) rfl rfl (.inr rfl) rfl (.inl (by decide)) (.inl (by decide)) rfl rfl

/-- R374: a write of a key slot, or of 0xFFFF for all, to DROP_PENDING. -/
theorem exec_dropPending {v : Nat} (hv : v < 1024 ∨ v = 0xFFFF) :
    exec (.dropPending mid v) s = .next (okWrite (dropPendingUnits s v) mid 0x7100 0x03) :=
  gate_ctlWrite_high (r := ⟨3, 3, .u16, .wo, 0, 0, 65535⟩) hp hm (by decide) rfl rfl (.inr rfl) rfl (.inl (by decide)) (.inl (by decide))
    (by simp [tyFits]; omega) (by show (decide (v < 1024) || decide (v = 0xFFFF)) = true; simpa using hv)

/-- R378: a write of IDLE_HINT_US. -/
theorem exec_idleHintUs {r v : Nat} (hr : r < 16) (hv : v < 2 ^ 32) :
    exec (.idleHintUs mid r v) s = .next (okWrite (idleHint s r v) mid (0x7140 + r) 0x03) := by
  have hrow : odRow (0x7140 + r) 0x03 = some ⟨3, 3, .u32, .rw, 0, 0, 4294967295⟩ := by rw [odRow, odRows_idle r hr]; rfl
  show execIdleHintUs mid r v s = _
  rw [execIdleHintUs, gate_ctlWrite_high hp hm (by omega) (by simp [isSel]) hrow (.inl rfl) (by simp [onceWritten])
    (.inr (.inl (by decide))) (.inr (.inl (by decide))) (by simp [tyFits]; omega) (rangeOk_idleOrSensor s _ v (by omega)), applyHigh,
    if_pos (by omega), Option.getD_some, Nat.add_sub_cancel_left]

/-- R381: a write of RAIL_MIN_MV, whatever it carries. -/
theorem exec_railMinMvWrite {v : Nat} (hv : v < 65536) :
    exec (.railMinMvWrite mid v) s = .next (okWrite (setOd s 0x7000 0x02 (railMv s)) mid 0x7000 0x02) :=
  gate_ctlWrite_high (r := ⟨2, 2, .u16, .rw, 65535, 0, 65535⟩) hp hm (by decide) rfl rfl (.inl rfl) rfl (.inl (by decide)) (.inl (by decide))
    (by simp [tyFits]; omega) rfl

/-- R381: a write of DEMAND_PEAK, whatever it carries. -/
theorem exec_demandPeakWrite {v : Nat} (hv : v < 2 ^ 32) :
    exec (.demandPeakWrite mid v) s = .next (okWrite (setOd s 0x7000 0x11 (sat (2 ^ 32 - 1) (demand s))) mid 0x7000 0x11) :=
  gate_ctlWrite_high (r := ⟨17, 17, .u32, .rw, 20000, 0, 4294967295⟩) hp hm (by decide) rfl rfl (.inl rfl) rfl (.inl (by decide))
    (.inl (by decide)) (by simp [tyFits]; omega) rfl

/-- R460: a write of a sensor's peak, whatever it carries. -/
theorem exec_tempPeakWrite {n v : Nat} (hn : n < 17) (hv : v < 65536) : exec (.tempPeakWrite mid n v) s
    = .next (okWrite (setOd s (0x7210 + n) 0x02 (od s (0x7210 + n) 0x01)) mid (0x7210 + n) 0x02) := by
  have hrow : odRow (0x7210 + n) 0x02 = some ⟨2, 2, .u16, .rw, 32768, 0, 65535⟩ := by rw [odRow, odRows_sensor n hn]; rfl
  show execTempPeakWrite mid n v s = _
  rw [execTempPeakWrite, gate_ctlWrite_high hp hm (by omega) (by simp [isSel]; omega) hrow (.inl rfl) (by simp [onceWritten])
    (.inl (by omega)) (.inr (.inl (by decide))) (by simp [tyFits]; omega) (rangeOk_idleOrSensor s _ v (by omega)), applyHigh,
    if_neg (by omega), if_pos (by omega), Option.getD_some, Nat.add_sub_cancel_left, writeTempPeak]

end

/-- Settles O20: each write passes at its row; SHUTDOWN takes effect in UNARMED and ARMED alone. -/
theorem power_writes : Obligations.Power_writes := by
  unfold Obligations.Power_writes
  intro s mid r n v hp hm hr hn
  refine ⟨fun h => ?begins, fun hu ha => ?noEffect, exec_dropPending hp hm, exec_idleHintUs hp hm hr, exec_railMinMvWrite hp hm,
    exec_demandPeakWrite hp hm, exec_tempPeakWrite hp hm hn⟩
  case begins =>
    rw [exec_shutdown hp hm, startShutdown, if_pos h]
    rfl
  case noEffect => rw [exec_shutdown hp hm, startShutdown, if_neg (not_or.2 ⟨hu, ha⟩)]

end Sys2Proof.Machine
end

section
/-! PROOFS. Control-port writes of the ring's ENABLE, the record port, rates, the nonce, the clear and injected errors (R400, R406, R408, R412 to
R414, R422). -/

open Sys2Proof.Claims
namespace Sys2Proof.Machine

/-- R408: PORT_SEQ takes the sequence numbers of the log and the next one. -/
theorem rangeOk_portSeq (s : State) {i sub : Nat} (v : Nat) (hi : i = 0x9200) (hsub : sub = 0x02) :
    rangeOk s i sub v = decide ((v + 2 ^ 32 - oldestSeq s) % 2 ^ 32 ≤ (s.ao.nextSeq + 2 ^ 32 - oldestSeq s) % 2 ^ 32) := by
  unfold rangeOk
  split
  iterate 10 omega
  · rfl
  · omega
  · next hother _ => exact absurd hsub (hother hi)

/-! ### The commands -/

section
variable {s : State} {mid : Nat} (hp : s.ao.portsUp = true) (hm : mid ≠ 0)
include hp hm

/-- R400: a write of 1 to Crestline's ENABLE. -/
theorem exec_crestlineEnable : exec (.crestlineEnable mid) s = .next (okWrite (writeCrest s 1) mid 0x9000 0x01) :=
  gate_ctlWrite_high (r := ⟨1, 1, .bool, .rw, 0, 0, 1⟩) hp hm (by decide) rfl rfl (.inl rfl) rfl (.inr (.inl (by decide))) (.inl (by decide)) rfl rfl

/-- R408, R416: a write of PORT_SEQ, within the log, while the record port is off. -/
theorem exec_portSeqWrite {v : Nat} (hv : v < 2 ^ 32) (hoff : od s 0x9200 0x01 = 0)
    (hlog : (v + 2 ^ 32 - oldestSeq s) % 2 ^ 32 ≤ (s.ao.nextSeq + 2 ^ 32 - oldestSeq s) % 2 ^ 32) :
    exec (.portSeqWrite mid v) s = .next (okWrite (setOd s 0x9200 0x02 v) mid 0x9200 0x02) :=
  have hstopped : unitStopped s mid 0x9200 0x02 = true := decide_eq_true hoff
  have hrange : rangeOk s 0x9200 0x02 v = true := (rangeOk_portSeq s v rfl rfl).trans (decide_eq_true hlog)
  gate_ctlWrite_high (r := ⟨2, 2, .u32, .rw, 0, 0, 4294967295⟩) hp hm (by decide) rfl rfl (.inl rfl) rfl (.inr (.inr hstopped)) (.inl (by decide))
    (by simp [tyFits]; omega) hrange

/-- R406: a write of RATE, for the code the master has selected. -/
theorem exec_rateWrite {v : Nat} (hv : v ≤ 1000) :
    exec (.rateWrite mid v) s = .next (okWrite (writeRate s (selOf s mid 0x9100 0x0D) v) mid 0x9100 0x0E) :=
  gate_ctlWrite_high (r := ⟨14, 14, .u16, .rw, 0, 0, 1000⟩) hp hm (by decide) rfl rfl (.inl rfl) rfl (.inl (by decide)) (.inr (.inl (by decide)))
    (by simp [tyFits]; omega) rfl

/-- R412: a write of 1 to NONCE_REQ. -/
theorem exec_nonceReq : exec (.nonceReq mid) s = .next (okWrite (requestNonce s) mid 0x9100 0x13) :=
  gate_ctlWrite_high (r := ⟨19, 19, .bool, .wo, 0, 0, 1⟩) hp hm (by decide) rfl rfl (.inr rfl) rfl (.inl (by decide)) (.inr (.inl (by decide)))
    rfl rfl

/-- R414: a write of 1 to CLEAR_CMD while no clear runs. -/
theorem exec_clearCmd (hidle : s.ao.clear = none) : exec (.clearCmd mid) s = .next (okWrite (startClear s ⟨false, mid⟩) mid 0x9100 0x18) :=
  gate_ctlWrite_high (r := ⟨24, 24, .bool, .wo, 0, 0, 1⟩) hp hm (by decide) rfl rfl (.inr rfl) rfl (.inl (by decide)) (.inr (.inr hidle)) rfl rfl

/-- R413: the first write of CLEAR_KEY_INDEX. -/
theorem exec_clearKeyIndexWrite {v : Nat} (hv : v < 2 ^ 32) (hfirst : s.ao.keyDesignated = false) : exec (.clearKeyIndexWrite mid v) s
    = .next (okWrite (modAo (setOd s 0x9100 0x1A v) (fun a => { a with keyDesignated := true })) mid 0x9100 0x1A) :=
  gate_ctlWrite_high (r := ⟨26, 26, .u32, .rw, 4294967295, 0, 4294967295⟩) hp hm (by decide) rfl rfl (.inl rfl) hfirst (.inl (by decide))
    (.inr (.inl (by decide))) (by simp [tyFits]; omega) rfl

/-- R422: a write of INJECT_MEM that names a class of memories. -/
theorem exec_injectMem {v : Nat} (hv : v < 2 ^ 32) (hclass : memClass (v / 256 % 256) = true) :
    exec (.injectMem mid v) s = .next (okWrite (injectMem s v) mid 0xA000 0x02) :=
  gate_ctlWrite_high (r := ⟨2, 2, .u32, .wo, 0, 0, 4294967295⟩) hp hm (by decide) rfl rfl (.inr rfl) rfl (.inl (by decide)) (.inl (by decide))
    (by simp [tyFits]; omega) hclass

end

/-! ### Their effects by the state they meet -/

/-- R400: a block that joins the ring sends a check. -/
theorem writeCrest_joins {s : State} (hoff : od s 0x9000 0x01 = 0) : writeCrest s 1
    = sendCheck { setOd s 0x9000 0x01 1 with crest := { (setOd s 0x9000 0x01 1).crest with state := 1 } } := by
  have hwas : ¬ od s 0x9000 0x01 = 1 := by omega
  unfold writeCrest
  dsimp only
  rw [if_pos rfl, if_neg hwas]

/-- R412: the nonce is the block time, the count of nonces and the epoch. -/
theorem requestNonce_nonce (s : State) : (requestNonce s).ao.nonce = some (BitVec.ofNat 64 s.ao.timeUs,
    place 64 0 (od (requestNonce s) 0x9100 0x1C % 2 ^ 32) ||| place 64 32 (od s 0x2100 0x06 % 65536)) := by
  have hcount : od (requestNonce s) 0x9100 0x1C = od (count s 0x9100 0x1C) 0x9100 0x1C :=
    (od_setOd_other _ _ _ _ _ _ (by decide)).trans (od_setOd_other _ _ _ _ _ _ (by decide))
  have hepoch : od (count s 0x9100 0x1C) 0x2100 0x06 = od s 0x2100 0x06 := od_countBy_other _ _ _ _ _ _ (by decide)
  have htime : (count s 0x9100 0x1C).ao.timeUs = s.ao.timeUs := by rw [count, countBy_changes_od_only]
  rw [hcount, ← hepoch, ← htime]
  rfl

/-- R412: of the always-on island a request for a nonce sets the nonce alone. -/
theorem requestNonce_ao (s : State) : (requestNonce s).ao = { s.ao with nonce := (requestNonce s).ao.nonce } := by
  have hcount : (count s 0x9100 0x1C).ao = s.ao := by rw [count, countBy_changes_od_only]
  rw [← hcount]
  rfl

/-- R412, R414: without a nonce younger than 60 s a clear fails with cause 1. -/
theorem startClear_stale {s : State} {mid : Nat} (hold : ∀ n, s.ao.nonce = some n → n.1.toNat + 60000000 ≤ s.ao.timeUs) :
    startClear s ⟨false, mid⟩ = clearFail (modAo s (fun a => { a with nonce := none })) 1 mid 1 0 := by
  have hnone : s.ao.nonce.filter (nonceFresh s) = none := by
    cases h : s.ao.nonce with
    | none => rfl
    | some n => exact Option.filter_some_neg (by simpa [nonceFresh] using hold n h)
  unfold startClear
  dsimp only
  rw [hnone]
  rfl

/-- R414: the message that a clear has authenticated: the label, the nonce and the block's number. -/
def clearMessage (s : State) (n0 n1 : W64) : List Byte :=
  [0x43, 0x41, 0x49, 0x52, 0x4E, 0x43, 0x4C, 0x52] ++ bytesOf 8 n0 ++ bytesOf 8 n1 ++ leBytes 8 (od s 0x1000 0x03)

/-- R414: with a fresh nonce, a sound log, a designated key and a ready key port a clear starts. -/
theorem startClear_starts {s : State} {mid : Nat} {n0 n1 : W64} (hnonce : s.ao.nonce = some (n0, n1))
    (hfresh : s.ao.timeUs < n0.toNat + 60000000) (hlog : s.ao.logFault = false) (hkey : od s 0x9100 0x1A ≠ 0xFFFFFFFF) (hready : s.keyReady = true) :
    startClear s ⟨false, mid⟩
      = keyStart (clearStatus (modAo s (fun a => { a with nonce := none, clear := some ⟨1, 1, mid, n0, n1, 0, 0⟩ })) 0 0 1)
          (keyJobOf .clear 0 (od s 0x9100 0x1A) 0 (clearMessage s n0 n1)) := by
  have hsome : s.ao.nonce.filter (nonceFresh s) = some (n0, n1) := by
    rw [hnonce]
    exact Option.filter_some_pos (by simpa [nonceFresh] using hfresh)
  have hsound : ¬ (modAo s (fun a => { a with nonce := none })).ao.logFault = true := by simp [hlog]
  have hport : ¬ ¬ (modAo s (fun a => { a with nonce := none })).keyReady = true := not_not.2 hready
  unfold startClear
  dsimp only
  rw [hsome]
  dsimp only
  rw [if_neg hsound]
  exact (if_neg hkey).trans (if_neg hport)

/-- Settles O21: each write passes at its row, and its effect is read off the state it meets. -/
theorem log_ring_and_diagnostic_writes : Obligations.Log_ring_and_diagnostic_writes := by
  unfold Obligations.Log_ring_and_diagnostic_writes
  intro s mid v hp hm hv
  refine ⟨fun hoff => ?joins, exec_portSeqWrite hp hm hv, exec_rateWrite hp hm, ?nonce, fun hidle hold => ?stale,
    fun hidle n0 n1 hnonce hfresh hlog hkey hready => ?starts, exec_clearKeyIndexWrite hp hm hv, exec_injectMem hp hm hv⟩
  case joins =>
    rw [exec_crestlineEnable hp hm, writeCrest_joins hoff]
    rfl
  case nonce =>
    have hao := requestNonce_ao s
    exact ⟨_, exec_nonceReq hp hm, requestNonce_nonce s, (congrArg (fun a => a.timeUs) hao :), (congrArg Ao.log hao :)⟩
  case stale =>
    rw [exec_clearCmd hp hm hidle, startClear_stale hold]
    rfl
  case starts =>
    rw [exec_clearCmd hp hm hidle, startClear_starts hnonce hfresh hlog hkey hready]
    rfl

end Sys2Proof.Machine
end

section
/-! PROOFS. Records of the Cairn log, the record port, the nonce and the end of a clear (R403, R408, R412, R414). -/

open Sys2Proof.Claims
namespace Sys2Proof.Machine

/-! ### Records and the record port (R403, R408) -/

/-- R403, R414: the oldest record raised is written, unless a clear holds it. -/
theorem exec_cairnRecord {s : State} {r : CairnReq} {rest : List CairnReq} (hraised : s.ao.cairnIn = r :: rest) (hfree : clearHolds s = false) :
    exec .cairnRecord s = .next (writeRecord (modAo s (fun a => { a with cairnIn := rest })) r) := by
  show execCairnRecord s = _
  rw [execCairnRecord, hraised]
  dsimp only
  rw [hfree, if_neg Bool.false_ne_true]

/-- With no hold, noting that leaves ENABLE of the record port. -/
theorem recordPort_open {s : State} (hon : od s 0x9200 0x01 ≠ 0) : ¬ (false = true ∨ od (setOd s 0x9200 0x05 0) 0x9200 0x01 = 0) := by
  rw [od_setOd_other _ _ _ _ _ _ (by decide)]
  simpa using hon

section
variable {s : State} (hp : s.ao.portsUp = true)
include hp

/-- R408: a recorder that holds the port back is noted. -/
theorem exec_recordPortSend_held : exec (.recordPortSend true) s = .next (setOd s 0x9200 0x05 1) := by
  show execRecordPortSend true s = _
  rw [execRecordPortSend, gate_up hp]
  exact congrArg _ (if_pos (.inl rfl))

variable (hon : od s 0x9200 0x01 ≠ 0)
include hon

/-- R408: the enabled port sends the record at PORT_SEQ, which goes on to the next. -/
theorem exec_recordPortSend_log {w : W512} (hsound : s.ao.logFault = false)
    (hat : (portSkip (setOd s 0x9200 0x05 0)).ao.log.find? (fun x => decide (recSeq x = od (portSkip (setOd s 0x9200 0x05 0)) 0x9200 0x02)) = some w) :
    exec (.recordPortSend false) s
      = .next (count (setOd (emit (portSkip (setOd s 0x9200 0x05 0)) (.record w)) 0x9200 0x02
          ((od (portSkip (setOd s 0x9200 0x05 0)) 0x9200 0x02 + 1) % 2 ^ 32)) 0x9200 0x03) := by
  have hlog : ¬ (setOd s 0x9200 0x05 0).ao.logFault = true := by simp [hsound]
  show execRecordPortSend false s = _
  rw [execRecordPortSend, gate_up hp]
  dsimp only
  rw [if_neg Bool.false_ne_true, if_neg (recordPort_open hon), if_neg hlog, hat]

/-- Log entry 41: with LOGMEM_FAULT latched the enabled port sends from the bypass queue. -/
theorem exec_recordPortSend_bypass {b : Bypassed} {rest : List Bypassed} (hfault : s.ao.logFault = true) (hqueue : s.ao.bypass = b :: rest)
    (hwaits : b.port = true) : exec (.recordPortSend false) s = .next (count (emit (bypassTidy (modAo (setOd s 0x9200 0x05 0)
      (fun a => { a with bypass := { b with port := false } :: rest }))) (.record b.word)) 0x9200 0x03) := by
  have hbypass : (setOd s 0x9200 0x05 0).ao.bypass = b :: rest := hqueue
  have hfind : (b :: rest).find? (fun x => x.port) = some b := List.find?_cons_of_pos hwaits
  have hfront : (b :: rest).findIdx (fun x => x.port) = 0 := by rw [List.findIdx_cons, hwaits, cond_true]
  show execRecordPortSend false s = _
  rw [execRecordPortSend, gate_up hp]
  dsimp only
  rw [if_neg Bool.false_ne_true, if_neg (recordPort_open hon), if_pos (show (setOd s 0x9200 0x05 0).ao.logFault = true from hfault), hbypass, hfind]
  dsimp only
  rw [hfront]
  rfl

end

/-! ### The nonce and the end of a clear (R412, R414) -/

theorem exec_nonceExpiry (s : State) : exec .nonceExpiry s
    = .next (if s.ao.nonce.any (nonceFresh s) = true then s else modAo s (fun a => { a with nonce := none })) := rfl

/-- R412: a nonce is fresh for 60 s from its issue. -/
theorem any_nonceFresh {s : State} {n : W64 × W64} (h : s.ao.nonce = some n) :
    s.ao.nonce.any (nonceFresh s) = decide (s.ao.timeUs < n.1.toNat + 60000000) := by
  rw [h, Option.any_some, nonceFresh]

section
variable {s : State} {c : ClearJob} (hclear : s.ao.clear = some c) (hstage : c.stage = 3)
include hclear hstage

/-- R414: step 5, once the record port has caught up. -/
theorem exec_clearRemove_sent (hsent : clearSent s c = true) : exec .clearRemove s = .next (clearRemove s) := by
  show execClearRemove s = _
  rw [execClearRemove, hclear]
  dsimp only
  rw [if_pos ⟨hstage, hsent⟩]

/-- R414: a clear whose CLEARED record is not sent in time fails with cause 5. -/
theorem exec_clearWaitTimeout_behind (hbehind : clearSent s c = false) : exec .clearWaitTimeout s = .next (clearFail s c.path c.who 5 0) := by
  show execClearWaitTimeout s = _
  rw [execClearWaitTimeout, hclear]
  dsimp only
  rw [if_pos ⟨hstage, Bool.eq_false_iff.1 hbehind⟩]

end

/-- Settles O44: each command of the log by the state it meets. -/
theorem cairn_records_are_kept_sent_and_cleared : Obligations.Cairn_records_are_kept_sent_and_cleared := by
  unfold Obligations.Cairn_records_are_kept_sent_and_cleared
  intro s
  refine ⟨fun r rest => exec_cairnRecord, fun hp => ⟨exec_recordPortSend_held hp, fun w hon hsound => exec_recordPortSend_log hp hon hsound,
    fun b rest hon => exec_recordPortSend_bypass hp hon⟩, fun hstale => ?expires, fun n hnonce => ⟨fun hyoung => ?kept, fun hold => ?ends⟩,
    fun c hclear hstage => ⟨exec_clearRemove_sent hclear hstage, exec_clearWaitTimeout_behind hclear hstage⟩⟩
  case expires => rw [exec_nonceExpiry, hstale, if_neg Bool.false_ne_true]
  case kept => rw [exec_nonceExpiry, any_nonceFresh hnonce, if_pos (decide_eq_true hyoung)]
  case ends => rw [exec_nonceExpiry, any_nonceFresh hnonce, if_neg (by simpa using hold)]

end Sys2Proof.Machine
end

section
/-! PROOFS. Frames that arrive on the Crestline ring, and the checks of the ring (R397 to R401, R433). -/

open Sys2Proof.Claims
namespace Sys2Proof.Machine

/-! ### Requests (R397, R399) -/

/-- Log entry 41: with fewer than eight requests since the microsecond before, however many of them are unanswered, there is room. -/
theorem takeRequest_room {s : State} (l : List (BitVec 16)) (h : s.crest.askedOld + s.crest.asked < 8) : (takeRequest s l).1 = true := by
  have hfew : ¬ Config.freePick s.free % (s.crest.askedOld + s.crest.asked + 1) ≥ 8 := by
    have := Nat.mod_lt (Config.freePick s.free) (show 0 < s.crest.askedOld + s.crest.asked + 1 by omega)
    omega
  exact congrArg Prod.fst (if_neg hfew)

/-- R399: without room the request is answered BUSY. -/
theorem takeRequest_busy {s : State} {l : List (BitVec 16)} (h : (takeRequest s l).1 = false) :
    (takeRequest s l).2 = answerBusy { s with free := s.free + 1 } l := by
  unfold takeRequest at h ⊢
  dsimp only at h ⊢
  split at h
  · next hfull => rw [if_pos hfull]
  · exact nomatch h

section
variable {s : State} {f : List (BitVec 16)} (hp : s.ao.portsUp = true) (hfate : frameFate s f = .request)
include hp hfate

/-- R397, R399: a READ that finds room is answered with the entry's code and value. -/
theorem exec_crestRead (hkind : symKind f = 1) : exec (.crestRead f) s = .next (
    let d := dictRead (takeRequest s f).2 (ringReq f) (symAt f 2).toNat (bitsOf (symAt f 3) 15 8)
    if (takeRequest s f).1 = true then respond d.2.2 f d.1 d.2.1 else (takeRequest s f).2) := by
  show execCrestRead f s = _
  rw [execCrestRead, gate_up hp, if_pos ⟨hfate, hkind⟩]
  rfl

/-- R397, R399: a WRITE that finds room is answered with its code. -/
theorem exec_crestWrite (hkind : symKind f = 2) : exec (.crestWrite f) s = .next (
    let d := dictWrite (takeRequest s f).2 (ringReq f) (symAt f 2).toNat (bitsOf (symAt f 3) 15 8) (symWord f 4)
    if (takeRequest s f).1 = true then respond d.2 f d.1 0 else (takeRequest s f).2) := by
  show execCrestWrite f s = _
  rw [execCrestWrite, gate_up hp, if_pos ⟨hfate, hkind⟩]
  rfl

theorem exec_selectRead (hkind : symKind f = 3) : exec (.selectRead f) s
    = .next (if (takeRequest s f).1 = true then ringSelectRead (takeRequest s f).2 f else (takeRequest s f).2) := by
  show execSelectRead f s = _
  rw [execSelectRead, gate_up hp, if_pos ⟨hfate, hkind⟩]
  rfl

end

/-! ### Other frames (R397, R398, R433) -/

section
variable {s : State} {f : List (BitVec 16)} (hp : s.ao.portsUp = true)
include hp

theorem exec_frameForward (h : frameFate s f = .forward) : exec (.frameForward f) s = .next (emit s (.crest f)) := by
  show execFrameForward f s = _
  rw [execFrameForward, gate_up hp, if_pos h]

theorem exec_discardedFrame_crc (h : frameFate s f = .badCrc) : exec (.discardedFrame f) s = .next (count s 0x9000 0x09) := by
  show execDiscardedFrame f s = _
  rw [execDiscardedFrame, gate_up hp, h]

theorem exec_discardedFrame_form (h : frameFate s f = .badLen ∨ frameFate s f = .badKind) :
    exec (.discardedFrame f) s = .next (count s 0x9000 0x0B) := by
  show execDiscardedFrame f s = _
  rw [execDiscardedFrame, gate_up hp]
  rcases h with h | h <;> rw [h]

theorem exec_returningFrame (h : frameFate s f = .returned) : exec (.returningFrame f) s = .next (count s 0x9000 0x0A) := by
  show execReturningFrame f s = _
  rw [execReturningFrame, gate_up hp, if_pos h]

end

/-! ### Ring checks (R400, R401) -/

/-- What a check that ends settles: whether one is out, the ring's state, and RING_NS. -/
def checkView (s : State) : Bool × Nat × Nat := (s.crest.checkOut, s.crest.state, od s 0x9000 0x0C)

/-- The ring DOWN, no check out. -/
def ringLost (s : State) : State := { s with crest := { s.crest with checkOut := false, state := 3 } }

theorem checkView_recordFrame (s : State) (dst kind : Nat) (w : W512) : checkView (recordFrame s dst kind w) = checkView s := rfl

theorem checkView_readyChange (s : State) (kind n : Nat) (ready : Bool) (cause : Nat) :
    checkView (readyChange s kind n ready cause) = checkView s := by
  have hcrest : (readyChange s kind n ready cause).crest = s.crest := by
    rw [readyChange, blockNotice, postAuto_changes_rings_od]
    rfl
  have hod : od (readyChange s kind n ready cause) 0x9000 0x0C = od s 0x9000 0x0C :=
    od_blockNotice_other _ _ _ _ _ (by decide) (by decide)
  rw [checkView, hcrest, hod]
  rfl

theorem checkView_flushNotices (s : State) : checkView (flushNotices s) = checkView s := by
  unfold flushNotices
  dsimp only
  split
  · rfl
  · exact foldl_keeps checkView _ (fun s w => checkView_recordFrame s _ _ w) _ _

theorem checkView_bypassSink (s : State) : checkView (bypassSink s) = checkView s := by
  unfold bypassSink
  dsimp only
  split
  · rfl
  · exact foldl_keeps checkView _ (fun s w => checkView_recordFrame s _ _ w) _ s

section
variable {s : State} (hp : s.ao.portsUp = true)
include hp

theorem exec_ringCheck (hon : od s 0x9000 0x01 = 1) (hidle : s.crest.checkOut = false) : exec .ringCheck s = .next (sendCheck s) := by
  show execRingCheck s = _
  rw [execRingCheck, gate_up hp, if_pos ⟨hon, Bool.eq_false_iff.1 hidle⟩]

variable (hout : s.crest.checkOut = true)
include hout

/-- R400: a check that has come round in ns nanoseconds makes the ring UP; what waited for that goes out then. -/
theorem exec_ringCheckReturn (ns : Nat) {f : List (BitVec 16)} (hfate : frameFate s f = .check) :
    ∃ t, exec (.ringCheckReturn ns f) s = .next t ∧ checkView t = (false, 2, min ns (2 ^ 32 - 1)) := by
  have hup : checkView (setOd { s with crest := { s.crest with checkOut := false, state := 2 } } 0x9000 0x0C (sat (2 ^ 32 - 1) ns))
      = (false, 2, min ns (2 ^ 32 - 1)) := by
    rw [checkView, od_setOd, sat_eq_min]
    rfl
  refine ⟨_, gate_up hp _, ?_⟩
  rw [if_pos ⟨hfate, hout⟩]
  dsimp only
  split
  · exact hup
  · rw [checkView_bypassSink, checkView_flushNotices, checkView_readyChange, hup]

/-- R400: a check that has not come round in time makes the ring DOWN. -/
theorem exec_ringCheckTimeout :
    exec .ringCheckTimeout s = .next (if s.crest.state = 2 then readyChange (ringLost s) 7 0 false 5 else ringLost s) := by
  show execRingCheckTimeout s = _
  rw [execRingCheckTimeout, gate_up hp, if_pos hout]
  rfl

end

/-- Settles O43: frames by their fate, checks by their end. -/
theorem crestline_frames_and_ring_checks : Obligations.Crestline_frames_and_ring_checks := by
  unfold Obligations.Crestline_frames_and_ring_checks
  refine ⟨fun s f hp => ⟨fun hfate => ⟨takeRequest_room f, fun hfull => ?busy, exec_crestRead hp hfate, exec_crestWrite hp hfate,
    exec_selectRead hp hfate⟩, exec_frameForward hp, exec_discardedFrame_crc hp, exec_discardedFrame_form hp, exec_returningFrame hp⟩,
    fun s hp => ⟨exec_ringCheck hp, fun hout => ⟨fun ns f hfate => ?returns, ?lost⟩⟩⟩
  case busy =>
    show (takeRequest s f).2 = _
    rw [takeRequest_busy hfull]
    rfl
  case returns =>
    obtain ⟨t, hexec, hview⟩ := exec_ringCheckReturn hp hout ns hfate
    obtain ⟨hcheck, hstate, htime⟩ : t.crest.checkOut = false ∧ t.crest.state = 2 ∧ od t 0x9000 0x0C = min ns (2 ^ 32 - 1) := by
      simpa [checkView] using hview
    exact ⟨t, hexec, hcheck, hstate, htime⟩
  case lost =>
    have hdown : checkView (if s.crest.state = 2 then readyChange (ringLost s) 7 0 false 5 else ringLost s) = (false, 3, od s 0x9000 0x0C) := by
      split
      · exact checkView_readyChange _ _ _ _ _
      · rfl
    obtain ⟨hcheck, hstate⟩ := Prod.mk.inj hdown
    exact ⟨_, exec_ringCheckTimeout hp hout, hcheck, congrArg Prod.fst hstate, fun hdead => if_neg hdead⟩

end Sys2Proof.Machine
end

section
/-! PROOFS. Ring frames read back field by field, and the requests built as such frames (R396, R397, R399). -/

open Sys2Proof.Claims
namespace Sys2Proof.Machine

/-! ### Symbols (R396) -/

/-- R396: the symbols of a frame that its CRC covers: routing, tag and length, then the payload. -/
def ringBody (dst src kind tag : Nat) (payload : List (BitVec 16)) : List (BitVec 16) :=
  [BitVec.ofNat 16 (dst % 64 * 1024 + src % 64 * 16 + kind % 16), BitVec.ofNat 16 (tag % 256 * 256 + payload.length % 256)] ++ payload

theorem ringFrame_eq (dst src kind tag : Nat) (payload : List (BitVec 16)) : ringFrame dst src kind tag payload
    = ringBody dst src kind tag payload ++ symbolsOf 2 (crc32c (symBytes (ringBody dst src kind tag payload))).toNat := rfl

theorem length_ringBody (dst src kind tag : Nat) (payload : List (BitVec 16)) :
    (ringBody dst src kind tag payload).length = 2 + payload.length := by
  simp [ringBody]
  omega

theorem length_symbolsOf (n v : Nat) : (symbolsOf n v).length = n := by simp [symbolsOf]

/-- Symbol k of a number. -/
theorem symAt_symbolsOf {n k : Nat} (v : Nat) (h : k < n) : symAt (symbolsOf n v) k = BitVec.ofNat 16 (v / 2 ^ (16 * k)) := by
  simp [symAt, symbolsOf, List.getD_eq_getElem?_getD, h]

theorem symAt_append_left {a b : List (BitVec 16)} {n : Nat} (h : n < a.length) : symAt (a ++ b) n = symAt a n :=
  List.getD_append _ _ _ _ h

theorem symAt_append_right {a b : List (BitVec 16)} {n k : Nat} (h : n = a.length + k) : symAt (a ++ b) n = symAt b k := by
  rw [symAt, List.getD_append_right _ _ _ _ (by omega), h, Nat.add_sub_cancel_left]
  rfl

/-- Two symbols hold a 32-bit word. -/
theorem word_of_symbols (w : BitVec 32) : symAt (symbolsOf 2 w.toNat) 1 ++ symAt (symbolsOf 2 w.toNat) 0 = w := by
  rw [symAt_symbolsOf _ (by decide), symAt_symbolsOf _ (by decide)]
  apply BitVec.eq_of_toNat_eq
  rw [BitVec.toNat_append, BitVec.toNat_ofNat, BitVec.toNat_ofNat, ← Nat.shiftLeft_add_eq_or_of_lt (Nat.mod_lt _ (by decide)), Nat.shiftLeft_eq]
  have := w.isLt
  omega

/-- Four symbols hold a 64-bit value. -/
theorem symWord_symbolsOf {l : List (BitVec 16)} {n v : Nat} (hv : v < 2 ^ 64) (h : ∀ k < 4, symAt l (n + k) = symAt (symbolsOf 4 v) k) :
    symWord l n = v := by
  have hsym : ∀ k < 4, (symAt l (n + k)).toNat = v / 2 ^ (16 * k) % 2 ^ 16 := fun k hk => by
    rw [h k hk, symAt_symbolsOf v hk, BitVec.toNat_ofNat]
  have h0 := hsym 0 (by decide)
  have h1 := hsym 1 (by decide)
  have h2 := hsym 2 (by decide)
  have h3 := hsym 3 (by decide)
  norm_num at h0 h1 h2 h3
  unfold symWord
  omega

/-! ### A frame read back (R396, R433) -/

section
variable {dst src kind tag : Nat} {payload : List (BitVec 16)}

theorem symAt_ringFrame_routing (dst src kind tag : Nat) (payload : List (BitVec 16)) :
    symAt (ringFrame dst src kind tag payload) 0 = BitVec.ofNat 16 (dst % 64 * 1024 + src % 64 * 16 + kind % 16) := rfl

theorem symAt_ringFrame_length (dst src kind tag : Nat) (payload : List (BitVec 16)) :
    symAt (ringFrame dst src kind tag payload) 1 = BitVec.ofNat 16 (tag % 256 * 256 + payload.length % 256) := rfl

theorem symAt_ringFrame_payload {n : Nat} (h : n < payload.length) :
    symAt (ringFrame dst src kind tag payload) (2 + n) = payload.getD n 0 := by
  rw [ringFrame_eq, symAt_append_left (by rw [length_ringBody]; omega), ringBody]
  exact symAt_append_right (k := n) rfl

theorem symDst_ringFrame (h : dst < 64) : symDst (ringFrame dst src kind tag payload) = dst := by
  rw [symDst, symAt_ringFrame_routing, bitsOf_eq_div_mod, BitVec.toNat_ofNat]
  omega

theorem symSrc_ringFrame (h : src < 64) : symSrc (ringFrame dst src kind tag payload) = src := by
  rw [symSrc, symAt_ringFrame_routing, bitsOf_eq_div_mod, BitVec.toNat_ofNat]
  omega

theorem symKind_ringFrame (h : kind < 16) : symKind (ringFrame dst src kind tag payload) = kind := by
  rw [symKind, symAt_ringFrame_routing, bitsOf_eq_div_mod, BitVec.toNat_ofNat]
  omega

theorem symTag_ringFrame (h : tag < 256) : symTag (ringFrame dst src kind tag payload) = tag := by
  rw [symTag, symAt_ringFrame_length, bitsOf_eq_div_mod, BitVec.toNat_ofNat]
  omega

variable (hlen : payload.length < 256)
include hlen

theorem symLen_ringFrame : symLen (ringFrame dst src kind tag payload) = payload.length := by
  rw [symLen, symAt_ringFrame_length, bitsOf_eq_div_mod, BitVec.toNat_ofNat]
  omega

theorem symWhole_ringFrame : symWhole (ringFrame dst src kind tag payload) = true := by
  rw [symWhole, symLen_ringFrame hlen, ringFrame_eq, List.length_append, length_ringBody, length_symbolsOf]
  exact decide_eq_true (by omega)

theorem symIntact_ringFrame : symIntact (ringFrame dst src kind tag payload) = true := by
  have hbody := length_ringBody dst src kind tag payload
  unfold symIntact
  dsimp only
  rw [symLen_ringFrame hlen, ringFrame_eq, List.take_left' hbody, symAt_append_right (k := 1) (by omega), symAt_append_right (k := 0) (by omega),
    word_of_symbols]
  exact decide_eq_true rfl

end

/-! ### Requests of another node (R397, R399) -/

/-- R397: the first two symbols of a request, its index and subindex. -/
def askHead (i sub : Nat) : List (BitVec 16) := [BitVec.ofNat 16 i, BitVec.ofNat 16 (sub * 256)]

section
variable {s : State} {src kind tag i sub : Nat} {rest : List (BitVec 16)}

theorem symAt_askHead_index (hi : i < 65536) : (symAt (ringFrame (nodeId s) src kind tag (askHead i sub ++ rest)) 2).toNat = i := by
  have hsym : symAt (ringFrame (nodeId s) src kind tag (askHead i sub ++ rest)) 2 = BitVec.ofNat 16 i :=
    symAt_ringFrame_payload (n := 0) (by simp [askHead])
  rw [hsym, BitVec.toNat_ofNat, Nat.mod_eq_of_lt hi]

theorem symAt_askHead_sub (hsub : sub < 256) :
    bitsOf (symAt (ringFrame (nodeId s) src kind tag (askHead i sub ++ rest)) 3) 15 8 = sub := by
  have hsym : symAt (ringFrame (nodeId s) src kind tag (askHead i sub ++ rest)) 3 = BitVec.ofNat 16 (sub * 256) :=
    symAt_ringFrame_payload (n := 1) (by simp [askHead])
  rw [hsym, bitsOf_eq_div_mod, BitVec.toNat_ofNat]
  omega

/-- R398, R433: a whole, intact frame that another node sends to this one is a request if its length is its kind's. -/
theorem frameFate_request (hon : od s 0x9000 0x01 ≠ 0) (hme : nodeId s < 64) (hsrc : src < 64) (hother : src ≠ nodeId s)
    (hlen : rest.length < 256) (hfits : symFits (ringFrame (nodeId s) src kind tag rest) = true) :
    frameFate s (ringFrame (nodeId s) src kind tag rest) = .request := by
  have hdst := symDst_ringFrame (src := src) (kind := kind) (tag := tag) (payload := rest) hme
  have hfrom := symSrc_ringFrame (dst := nodeId s) (kind := kind) (tag := tag) (payload := rest) hsrc
  unfold frameFate
  dsimp only
  rw [if_neg hon, if_neg (fun h => h.1 hdst), if_neg (fun h => hother (hfrom.symm.trans h.1)), if_neg (fun h => hother (hfrom.symm.trans h.1)),
    if_neg (not_not.2 (symWhole_ringFrame hlen)), if_neg (not_not.2 (symIntact_ringFrame hlen)), if_pos hfits]

/-- R397: an answer goes to the source of a request, with its tag. -/
theorem respond_ringFrame (t : State) (dst kind code v : Nat) (payload : List (BitVec 16)) (hsrc : src < 64) (htag : tag < 256) :
    respond t (ringFrame dst src kind tag payload) code v
      = sendRing (count t 0x9000 0x08) src 8 tag (BitVec.ofNat 16 (code % 16) :: symbolsOf 4 v) := by
  rw [respond, symSrc_ringFrame hsrc, symTag_ringFrame htag]

theorem ringReq_ringFrame (dst : Nat) (payload : List (BitVec 16)) (hsrc : src < 64) :
    ringReq (ringFrame dst src kind tag payload) = ⟨true, src⟩ := by
  rw [ringReq, symSrc_ringFrame hsrc]

end

section
variable {s : State} {src tag i sub : Nat} (hp : s.ao.portsUp = true) (hon : od s 0x9000 0x01 ≠ 0) (hme : nodeId s < 64) (hsrc : src < 64)
  (hother : src ≠ nodeId s) (htag : tag < 256) (hi : i < 65536) (hsub : sub < 256) (hfew : s.crest.askedOld + s.crest.asked < 8)
include hp hon hme hsrc hother htag hi hsub hfew

/-- R397, R399: a READ of an entry reads it, and its answer carries the tag. -/
theorem exec_crestRead_ringFrame :
    let ask := ringFrame (nodeId s) src 1 tag (askHead i sub)
    let rd := dictRead (takeRequest s ask).2 ⟨true, src⟩ i sub
    exec (.crestRead ask) s
      = .next (sendRing (count rd.2.2 0x9000 0x08) src 8 tag (BitVec.ofNat 16 (rd.1 % 16) :: symbolsOf 4 rd.2.1)) := by
  intro ask rd
  have hkind : symKind ask = 1 := symKind_ringFrame (by decide)
  have hfits : symFits ask = true := by
    rw [symFits, hkind]
    exact decide_eq_true (symLen_ringFrame (by simp [askHead]))
  have hindex : (symAt ask 2).toNat = i := symAt_askHead_index (rest := []) hi
  have hentry : bitsOf (symAt ask 3) 15 8 = sub := symAt_askHead_sub (rest := []) hsub
  rw [exec_crestRead hp (frameFate_request hon hme hsrc hother (by simp [askHead]) hfits) hkind, takeRequest_room ask hfew, if_pos rfl, hindex, hentry,
    ringReq_ringFrame _ _ hsrc, respond_ringFrame _ _ _ _ _ _ hsrc htag]

/-- R397, R399: a WRITE of an entry writes it the value it carries, and its answer carries the tag. -/
theorem exec_crestWrite_ringFrame {v : Nat} (hv : v < 2 ^ 64) :
    let put := ringFrame (nodeId s) src 2 tag (askHead i sub ++ symbolsOf 4 v)
    let wr := dictWrite (takeRequest s put).2 ⟨true, src⟩ i sub v
    exec (.crestWrite put) s
      = .next (sendRing (count wr.2 0x9000 0x08) src 8 tag (BitVec.ofNat 16 (wr.1 % 16) :: symbolsOf 4 0)) := by
  intro put wr
  have hlen : (askHead i sub ++ symbolsOf 4 v).length = 6 := by simp [askHead, length_symbolsOf]
  have hkind : symKind put = 2 := symKind_ringFrame (by decide)
  have hfits : symFits put = true := by
    rw [symFits, hkind]
    exact decide_eq_true ((symLen_ringFrame (by omega)).trans hlen)
  have hindex : (symAt put 2).toNat = i := symAt_askHead_index hi
  have hentry : bitsOf (symAt put 3) 15 8 = sub := symAt_askHead_sub hsub
  have hvalue : symWord put 4 = v := symWord_symbolsOf hv fun k hk => by
    rw [show 4 + k = 2 + (2 + k) by omega, symAt_ringFrame_payload (by omega)]
    exact symAt_append_right rfl
  rw [exec_crestWrite hp (frameFate_request hon hme hsrc hother (by omega) hfits) hkind, takeRequest_room put hfew, if_pos rfl, hindex, hentry, hvalue,
    ringReq_ringFrame _ _ hsrc, respond_ringFrame _ _ _ _ _ _ hsrc htag]

end

/-- Settles O52: each field stands in its own bits of its symbol, and a request so built is one of frameFate's. -/
theorem ring_requests_are_read_back : Obligations.Ring_requests_are_read_back := by
  unfold Obligations.Ring_requests_are_read_back
  refine ⟨fun dst src kind tag payload hdst hsrc hkind htag hlen => ?frame,
    fun s src tag i sub v hp hon hme hsrc hother htag hi hsub hv hfew => ?requests⟩
  case frame =>
    exact ⟨symDst_ringFrame hdst, symSrc_ringFrame hsrc, symKind_ringFrame hkind, symTag_ringFrame htag, symLen_ringFrame hlen,
      symWhole_ringFrame hlen, symIntact_ringFrame hlen, fun n => symAt_ringFrame_payload⟩
  case requests =>
    exact ⟨exec_crestRead_ringFrame hp hon hme hsrc hother htag hi hsub hfew,
      exec_crestWrite_ringFrame hp hon hme hsrc hother htag hi hsub hfew hv⟩

end Sys2Proof.Machine
end

section
/-! PROOFS. The power-fail sequence, the closing of ridges and the orderly shutdown (R354, R365, R367, R369). -/

open Sys2Proof.Claims
namespace Sys2Proof.Machine

/-! ### Work of ridges that leaves the queues and the always-on island -/

/-- The submission queues and the always-on island. -/
def steady (s : State) : SMap Queue × Ao := (s.queues, s.ao)

@[simp] theorem steady_emit (s : State) (o : PortOut) : steady (emit s o) = steady s := rfl
@[simp] theorem steady_bus (s : State) (l : Nat) (cs : List BusCyc) : steady (bus s l cs) = steady s := rfl
@[simp] theorem steady_setOd (s : State) (i sub v : Nat) : steady (setOd s i sub v) = steady s := rfl
@[simp] theorem steady_modRidge (s : State) (r : Nat) (f : Ridge → Ridge) : steady (modRidge s r f) = steady s := rfl
@[simp] theorem steady_modSpur (s : State) (p : Nat) (f : Spur → Spur) : steady (modSpur s p f) = steady s := rfl
@[simp] theorem steady_modChan (s : State) (c : Nat) (f : Chan → Chan) : steady (modChan s c f) = steady s := rfl
@[simp] theorem steady_modLun (s : State) (l : Nat) (f : Lun → Lun) : steady (modLun s l f) = steady s := rfl
@[simp] theorem steady_modCorn (s : State) (e : Nat) (f : Corn → Corn) : steady (modCorn s e f) = steady s := rfl

@[simp] theorem steady_countBy (s : State) (i sub n : Nat) : steady (countBy s i sub n) = steady s := by
  rw [countBy_changes_od_only]
  rfl

@[simp] theorem steady_count (s : State) (i sub : Nat) : steady (count s i sub) = steady s := steady_countBy s i sub 1

/-- What each step of a fold leaves steady the fold leaves steady. -/
theorem steady_foldl {α : Type} {f : State → α → State} (h : ∀ s x, steady (f s x) = steady s) (l : List α) (s : State) :
    steady (l.foldl f s) = steady s :=
  foldl_keeps steady f h l s

@[simp] theorem steady_missPulls (s : State) (e : Nat) : steady (missPulls s e) = steady s := by
  unfold missPulls modPort
  dsimp only
  split <;> simp

@[simp] theorem steady_invalidateEntry (s : State) (e : Nat) : steady (invalidateEntry s e) = steady s := by
  unfold invalidateEntry
  split <;> simp

@[simp] theorem steady_invalidateLun (s : State) (l : Nat) : steady (invalidateLun s l) = steady s := by
  unfold invalidateLun invalidatePlanes
  exact steady_foldl (by simp) _ s

@[simp] theorem steady_refugeBus (s : State) (l : Nat) (cs : List BusCyc) : steady (refugeBus s l cs) = steady s := by
  unfold refugeBus
  split <;> simp

@[simp] theorem steady_refugeGo (s : State) (r : Nat) : steady (refugeGo s r) = steady s := by
  unfold refugeGo
  split
  · rfl
  · simp [steady_foldl]

@[simp] theorem steady_ridgeProtect (s : State) (r : Nat) (high : Bool) : steady (ridgeProtect s r high) = steady s := by
  unfold ridgeProtect
  exact steady_foldl (by simp) _ s

@[simp] theorem steady_wakeRidge (s : State) (r : Nat) : steady (wakeRidge s r) = steady s := by
  unfold wakeRidge
  dsimp only
  (repeat' split) <;> simp

@[simp] theorem steady_sequenceSuspend (s : State) (l : Nat) : steady (sequenceSuspend s l) = steady s := by
  unfold sequenceSuspend
  split
  · split <;> rfl
  · rfl

/-! ### Moves abandoned (R51) -/

@[simp] theorem steady_leaveLun (c : Nat) (s : State) (l : Nat) : steady (leaveLun c s l) = steady s := by
  unfold leaveLun
  (repeat' split) <;> simp

@[simp] theorem steady_leaveSusp (s : State) (l c : Nat) : steady (leaveSusp s l c) = steady s := by
  unfold leaveSusp
  split <;> simp

@[simp] theorem steady_readBodies (s : State) (p k n : Nat) : steady (readBodies s p k n) = steady s := by
  unfold readBodies modScree
  split <;> simp

@[simp] theorem steady_dropPhases (s : State) (p c : Nat) : steady (dropPhases s p c) = steady s := rfl

@[simp] theorem steady_freeCtx (s : State) (p c : Nat) : steady (freeCtx s p c) = steady s := by
  unfold freeCtx leaveLuns
  dsimp only
  split <;> simp [steady_foldl]

@[simp] theorem steady_dropMoveUnits (s : State) (m : Move) : steady (dropMoveUnits s m) = steady s := by
  unfold dropMoveUnits
  exact steady_foldl (by intros; rfl) _ s

@[simp] theorem steady_releaseAbandoned (s : State) : steady (releaseAbandoned s) = steady s := by
  unfold releaseAbandoned
  exact steady_foldl (by intros; rfl) _ s

@[simp] theorem steady_abandonMove (s : State) (m : Move) : steady (abandonMove s m) = steady s := by
  unfold abandonMove
  dsimp only
  split
  · rw [steady_freeCtx, steady_releaseAbandoned, steady_dropMoveUnits]
    rfl
  · rw [steady_releaseAbandoned, steady_dropMoveUnits]
    rfl

@[simp] theorem steady_abandonMoves (s : State) : steady (abandonMoves s) = steady s := by
  unfold abandonMoves
  exact steady_foldl steady_abandonMove _ s

/-! ### Refuge pages (R362, R364, R365) -/

@[simp] theorem steady_countPages (s : State) (rg n : Nat) : steady (countPages s rg n) = steady s := by simp [countPages]

@[simp] theorem steady_addRecordPage (s : State) (r pg kind n : Nat) (clean orderly : Bool) (payload : List Byte) :
    steady (addRecordPage s r pg kind n clean orderly payload) = steady s := by
  simp [addRecordPage]

@[simp] theorem steady_writeRecords (r kind : Nat) (clean orderly : Bool) (k : Nat) (s : State) (es : List Nat) :
    steady (writeRecords r kind clean orderly k s es) = steady s := by
  induction k generalizing s es with
  | zero => rfl
  | succ k ih =>
    rw [writeRecords]
    generalize (if entryBytes kind = 0 then 0 else 16320 / entryBytes kind) = per
    split <;> simp [ih]

@[simp] theorem steady_writeOpening (s : State) (r : Nat) : steady (writeOpening s r) = steady s := by
  unfold writeOpening
  (repeat' split) <;> simp

@[simp] theorem steady_flushGranule (u : Nat) (s : State) (k : Nat) : steady (flushGranule u s k) = steady s := by
  unfold flushGranule
  dsimp only
  split <;> simp

@[simp] theorem steady_flushUnit (s : State) (u : Nat) : steady (flushUnit s u) = steady s := by
  unfold flushUnit
  exact steady_foldl (steady_flushGranule u) _ s

@[simp] theorem steady_programRun (r : Nat) (s : State) (run : List GranulePage) : steady (programRun r s run) = steady s := by
  unfold programRun
  split <;> simp

@[simp] theorem steady_flushOut (s : State) (r : Nat) (us : List Nat) : steady (flushOut s r us) = steady s := by
  simp [flushOut, steady_foldl]

/-- R365: the closing of a ridge leaves the queues and the always-on island. -/
@[simp] theorem steady_closeRefuge (s : State) (r : Nat) (clean orderly : Bool) : steady (closeRefuge s r clean orderly) = steady s := by
  unfold closeRefuge
  dsimp only
  rw [steady_modRidge]
  split
  · simp
  · rw [steady_foldl (by intros; rfl)]
    simp

/-! ### Notices of the rail (R354, R380) -/

/-- R380: of the always-on island a RAIL notice touches the records raised alone. -/
theorem ao_railNotice (s : State) (event extra : Nat) : (railNotice s event extra).ao = { s.ao with cairnIn := (railNotice s event extra).ao.cairnIn } := by
  have hnote : (if s.ao.inBlkReset = true then s else blockNotice s 0x39 (event * 4096 + s.ao.samples.headD 0 % 4096) extra).ao = s.ao := by
    split
    · rfl
    · rw [blockNotice, postAuto_changes_rings_od]
  unfold railNotice
  dsimp only
  split
  · rw [cairnLoud, modAo, hnote]
  · rw [cairn, modAo, hnote]

theorem queues_railNotice (s : State) (event extra : Nat) : (railNotice s event extra).queues = s.queues :=
  congrArg Prod.fst (railView_railNotice s event extra)

/-! ### The commands -/

/-- R365: what is steady since the sequence began holds its state, its start and the queues. -/
theorem begun_of_steady {t a : State} (h : steady t = steady (modAo a (fun x => { x with pf := .sequence, seqStart := x.timeUs }))) :
    t.ao.pf = .sequence ∧ t.ao.seqStart = a.ao.timeUs ∧ t.queues = a.queues := by
  obtain ⟨hqueues, hao⟩ := Prod.mk.inj h
  rw [hqueues, hao]
  exact ⟨rfl, rfl, rfl⟩

section
variable {s : State} (hp : s.ao.portsUp = true)
include hp

/-- R354, R365: enough low samples begin the sequence, with its steps so far. -/
theorem exec_railWarning (hlow : od s 0x7000 0x06 ≤ s.ao.warnRun) (hpf : s.ao.pf = .armed ∨ s.ao.pf = .shutdown) :
    ∃ t, exec .railWarning s = .next t ∧ t.ao.pf = .sequence ∧ t.ao.seqStart = s.ao.timeUs ∧ t.queues = s.queues := by
  have hnoticed : (if s.ao.pf = .armed then railNotice s 2 (demand s) else s).queues = s.queues
      ∧ (if s.ao.pf = .armed then railNotice s 2 (demand s) else s).ao.timeUs = s.ao.timeUs := by
    split
    · exact ⟨queues_railNotice .., congrArg (fun a => a.timeUs) (ao_railNotice ..)⟩
    · exact ⟨rfl, rfl⟩
  obtain ⟨hqueues, htime⟩ := hnoticed
  refine ⟨_, gate_up hp _, ?_⟩
  rw [if_pos ⟨hlow, hpf⟩]
  dsimp only
  generalize hwarned : (if s.ao.pf = .armed then railNotice s 2 (demand s) else s) = a at hqueues htime
  rw [← htime, ← hqueues]
  refine begun_of_steady ?_
  exact (steady_foldl (by simp) _ _).trans ((steady_abandonMoves _).trans ((steady_foldl steady_sequenceSuspend _ _).trans
    ((steady_foldl steady_refugeGo _ _).trans (steady_foldl steady_wakeRidge _ _))))

/-- R365: with every ridge closed the sequence ends in HALTED. -/
theorem exec_sequenceComplete (hpf : s.ao.pf = .sequence) (hall : allClosed s = true) : ∃ t, exec .sequenceComplete s = .next t
    ∧ t.ao.pf = .halted ∧ t.ao.goodRun = 0 ∧ t.sent.head? = some (.halted true) ∧ t.ao.haltClean = s.ao.haltClean ∧ t.queues = s.queues := by
  refine ⟨_, gate_up hp _, ?_⟩
  rw [if_pos ⟨hpf, hall⟩]
  exact ⟨rfl, rfl, rfl, (congrArg Ao.haltClean (ao_railNotice (cairn s 0x51 0 0xFFFF 6 0 (s.ao.timeUs - s.ao.seqStart) 0 0) 3 _) :),
    (queues_railNotice (cairn s 0x51 0 0xFFFF 6 0 (s.ao.timeUs - s.ao.seqStart) 0 0) 3 _ :)⟩

theorem exec_shutdownComplete (hpf : s.ao.pf = .shutdown) (hall : allClosed s = true) (hdone : admittedDone s = true) : exec .shutdownComplete s
    = .next (emit (modAo s (fun a => { a with pf := .halted, haltClean := true, goodRun := 0 })) (.halted true)) := by
  show execShutdownComplete s = _
  rw [execShutdownComplete, gate_up hp, if_pos ⟨hpf, hall, hdone⟩]

end

/-! ### The closing of a ridge (R123, R365, R367, R369) -/

/-- Nothing defers a refuge program of the ridge. -/
def ClosesNow (s : State) (r : Nat) : Prop :=
  (ridge s r).refugeWait = [] ∧ holdDefers s (ridge s r).manifest = false ∧ ∀ x ∈ refugePairs s r, holdDefers s x.1 = false

theorem not_deferred_of_closesNow {s : State} {r : Nat} (h : ClosesNow s r) :
    ¬ (decide ((ridge s r).refugeWait ≠ []) || holdDefers s (ridge s r).manifest || (refugePairs s r).any (fun x => holdDefers s x.1)) = true := by
  obtain ⟨hwait, hmanifest, hpairs⟩ := h
  simpa [hwait, hmanifest] using hpairs

section
variable {s : State} {r : Nat} (hp : s.ao.portsUp = true) (hpart : takesPart s r = true) (hopen : (ridge s r).closed = false)
  (hspurs : spursOut s r = false) (hnow : ClosesNow s r)
include hp hpart hopen hspurs hnow

/-- R365: in the sequence a ridge closes once no program is in flight, and the time it took is recorded. -/
theorem exec_ridgeClosingDone_sequence (hpf : s.ao.pf = .sequence) (hdies : dieWorkDone s r = true) (hnone : unitsIn s r .programming = 0) :
    exec (.ridgeClosingDone r) s = .next (
      let b := closeRefuge (writeOpening s r) r false s.ao.orderly
      cairn b 0x51 (cu 2 r) 0xFFFF (ridge b r).step 0 (b.ao.timeUs - b.ao.seqStart) 0 0) := by
  have hstill : (closeRefuge (writeOpening s r) r false s.ao.orderly).ao.pf = .sequence :=
    (congrArg (fun x => Ao.pf x.2) ((steady_closeRefuge (writeOpening s r) r false s.ao.orderly).trans (steady_writeOpening s r))).trans hpf
  have hspurs' : ¬ spursOut s r = true := Bool.eq_false_iff.1 hspurs
  show execRidgeClosingDone r s = _
  rw [execRidgeClosingDone, gate_up hp]
  refine congrArg _ ((if_pos ⟨?ready, hpart, Bool.eq_false_iff.1 hopen, .inr (not_deferred_of_closesNow hnow)⟩).trans ?_)
  case ready =>
    rw [hpf]
    simp [hdies, hnone]
  dsimp only
  rw [if_neg hspurs', if_pos hpf, hpf, show decide (Pf.sequence = Pf.shutdown) = false from rfl, if_pos hstill]

/-- R369: in a shutdown a ridge closes once its work is done, below thermal level 3. -/
theorem exec_ridgeClosingDone_shutdown (hpf : s.ao.pf = .shutdown) (hdone : admittedDone s = true) (hquiet : ridgeQuiet s r = true)
    (hcool : thermalLevel s r < 3) : exec (.ridgeClosingDone r) s = .next (closeRefuge s r true s.ao.orderly) := by
  have hstill : ¬ (closeRefuge s r true s.ao.orderly).ao.pf = .sequence := by
    have hsame : (closeRefuge s r true s.ao.orderly).ao.pf = .shutdown := (congrArg (fun x => Ao.pf x.2) (steady_closeRefuge s r true s.ao.orderly)).trans hpf
    rw [hsame]
    decide
  have hspurs' : ¬ spursOut s r = true := Bool.eq_false_iff.1 hspurs
  have hpf' : ¬ s.ao.pf = .sequence := by rw [hpf]; decide
  show execRidgeClosingDone r s = _
  rw [execRidgeClosingDone, gate_up hp]
  refine congrArg _ ((if_pos ⟨?ready, hpart, Bool.eq_false_iff.1 hopen, .inr (not_deferred_of_closesNow hnow)⟩).trans ?_)
  case ready =>
    rw [hpf]
    simp [hdone, hquiet, hcool]
  dsimp only
  rw [if_neg hspurs', if_neg hpf', hpf, show decide (Pf.shutdown = Pf.shutdown) = true from rfl, if_neg hstill]

end

/-- Settles O41: each command by the power state it meets. -/
theorem the_power_fail_sequence_and_shutdown : Obligations.The_power_fail_sequence_and_shutdown := by
  unfold Obligations.The_power_fail_sequence_and_shutdown
  intro s hp
  refine ⟨exec_railWarning hp, fun r hpf hdies hnone hpart hopen hspurs hwait hmanifest hpairs => ?sequence,
    fun r hpf hdone hquiet hpart hopen hspurs hcool hwait hmanifest hpairs => ?shutdown, exec_sequenceComplete hp, exec_shutdownComplete hp⟩
  case sequence =>
    exact ⟨_, exec_ridgeClosingDone_sequence hp hpart hopen hspurs ⟨hwait, hmanifest, hpairs⟩ hpf hdies hnone, rfl⟩
  case shutdown => exact exec_ridgeClosingDone_shutdown hp hpart hopen hspurs ⟨hwait, hmanifest, hpairs⟩ hpf hdone hquiet hcool

end Sys2Proof.Machine
end

section
/-! PROOFS. Bring-up of channels, tracking passes and full training (R341, R342, R345, R346, R347). -/

open Sys2Proof.Claims
namespace Sys2Proof.Machine

/-! ### What leaves the channels -/

@[simp] theorem chan_count (s : State) (i sub c : Nat) : chan (count s i sub) c = chan s c := by
  rw [count, countBy_changes_od_only]
  rfl

@[simp] theorem chan_bus (s : State) (l : Nat) (cs : List BusCyc) (c : Nat) : chan (bus s l cs) c = chan s c := rfl

@[simp] theorem chan_tookTurn (s : State) (l k c : Nat) : chan (tookTurn s l k) c = chan s c := rfl

@[simp] theorem chan_trackBus (s : State) (c ce k : Nat) : chan (trackBus s c ce) k = chan s k := by
  simp only [trackBus, chan_bus, chan_tookTurn]

@[simp] theorem chan_trainBus (s : State) (c k : Nat) : chan (trainBus s c) k = chan s k := rfl

/-- The counting of a training leaves the CEs with a LUN found. -/
theorem foundCes_eyeStored (s : State) (c e : Nat) :
    foundCes (count (setOd s (0x4400 + c) 0x06 e) (0x4400 + c) 0x07) c = foundCes s c := by
  rw [count, countBy_changes_od_only]
  rfl

/-! ### Bring-up (R342) -/

theorem rediscover_setAnalog (s : State) (c b : Nat) : (chan (setAnalog s c b) c).rediscover = (chan s c).rediscover := by
  rw [setAnalog, chan_modChan]
  rfl

theorem rediscover_noteTrained (s : State) (c : Nat) (ces : List Nat) :
    (chan (noteTrained s c ces) c).rediscover = (chan s c).rediscover := by
  rw [noteTrained, chan_modChan]
  rfl

/-- The settings and delays of a bring-up that trained leave REDISCOVER. -/
theorem rediscover_trainedIf (p : Prop) [Decidable p] (s : State) (c b : Nat) (ces : List Nat) :
    (chan (if p then noteTrained (setAnalog s c b) c ces else s) c).rediscover = (chan s c).rediscover := by
  split
  · rw [rediscover_noteTrained, rediscover_setAnalog]
  · rfl

/-- So do its eye, its count and its record. -/
theorem rediscover_recordedUnless (p : Prop) [Decidable p] (s : State) (c e detail arg : Nat) :
    (chan (if p then s else cairn (count (setOd s (0x4400 + c) 0x06 e) (0x4400 + c) 0x07) 0x49 (cu 8 c) 0xFFFF detail 0 arg 0 0) c).rediscover
      = (chan s c).rediscover := by
  split
  · rfl
  · exact congrArg Chan.rediscover (chan_count ..)

/-- R342: a bring-up ends the wish for one. -/
theorem rediscover_bringUp (s : State) (c : Nat) (dies : List DieReport) (eyes : List EyeReport) :
    (chan (bringUp s c dies eyes) c).rediscover = false := by
  unfold bringUp
  refine (rediscover_recordedUnless ..).trans ((rediscover_trainedIf ..).trans ?_)
  exact congrArg Chan.rediscover (chan_modChan ..)

theorem exec_bringupDone {s : State} {c : Nat} (hp : s.ao.portsUp = true) (dies : List DieReport) (eyes : List EyeReport)
    (hspur : (spur s (c / 2)).svc = .returning) (hchan : (chan s c).rediscover = true) :
    exec (.bringupDone c dies eyes) s = .next (bringUp s c dies eyes) := by
  show execBringupDone c dies eyes s = _
  rw [execBringupDone, gate_up hp, if_pos ⟨hspur, hchan⟩]

/-! ### Tracking (R346, R347) -/

/-- The time and the temperature a tracking pass of a CE stores. -/
def passNoted (s : State) (c ce : Nat) (x : Chan) : Chan :=
  { x with trackUs := x.trackUs.set 0 ce s.ao.timeUs, trackTemps := x.trackTemps.set 0 ce (signed 16 (od s (0x7210 + c / 8) 0x01)) }

/-- The state after the bursts of a pass, before any loss. -/
def passTaken (s : State) (c ce : Nat) (bursts : List TrackBurst) : State :=
  modChan (trackBus s c ce) c (fun x => passNoted s c ce ((passMoves bursts).foldl (trackBit ce) x))

/-- Has a bit of a CE moved too far? -/
def movedFar (s : State) (c ce : Nat) : Bool :=
  (chan s c).delays.entries.any (fun d => decide (d.1 / 64 = ce) && decide (d.2.natAbs > od s 0x4300 0x0A))

/-- Delays of other CEs alone are not too far for this one. -/
theorem movedFar_of_none {s : State} {c ce : Nat} (h : ∀ d ∈ (chan s c).delays.entries, d.1 / 64 ≠ ce) : movedFar s c ce = false := by
  rw [movedFar, List.any_eq_false]
  intro d hd
  simp [h d hd]

/-- R346: a pass that is due takes its turn; a bit moved too far or a failing centre burst loses the training. -/
theorem exec_trackingPass {s : State} {c ce : Nat} (hp : s.ao.portsUp = true) (bursts : List TrackBurst) (hstate : (chan s c).state = 1)
    (htracked : tracked s c (ce % 8) = true) (hdue : trackDue s c (ce % 8) = true)
    (hturn : portTurn s (c * 16 + 2 * (ce % 8)) 3 (s.turns + 1) = true) :
    exec (.trackingPass c ce bursts) s = .next (
      let t := passTaken s c (ce % 8) bursts
      if movedFar t c (ce % 8) = true ∨ bursts.any (fun b => !b.centre) = true then trainingLost t c else t) := by
  show execTrackingPass c ce bursts s = _
  rw [execTrackingPass, gate_up hp]
  exact congrArg _ (if_neg (by simp [hstate, htracked, hdue, hturn]))

/-- R346: without bursts to judge a pass stores its time and temperature. -/
theorem passTaken_nil (s : State) (c ce : Nat) : passTaken s c ce [] = modChan (trackBus s c ce) c (passNoted s c ce) := rfl

theorem movedFar_passTaken_nil {s : State} {c ce : Nat} (h : ∀ d ∈ (chan s c).delays.entries, d.1 / 64 ≠ ce) :
    movedFar (passTaken s c ce []) c ce = false := by
  refine movedFar_of_none ?_
  rw [passTaken_nil, chan_modChan, chan_trackBus]
  exact h

/-! ### Full training (R345, R347) -/

/-- R345: the state once full training leaves a channel at a bin, before its record. -/
def trainedTo (s : State) (c : Nat) (eyes : List EyeReport) (b : Nat) : State :=
  noteTrained (setAnalog (modChan (count (setOd s (0x4400 + c) 0x06 (eyeMin eyes (foundCes s c) b)) (0x4400 + c) 0x07) c
    (fun x => { x with bin := b, lost := false })) c b) c (foundCes s c)

/-- R345, R347: what full training comes to, by the best bin and by whether the training was lost. -/
def trainingOutcome (s : State) (c : Nat) (eyes : List EyeReport) (kind : Nat) : Option Nat → State
  | some b =>
    let t := cairn (trainedTo s c eyes b) 0x49 (cu 8 c) 0xFFFF (b * 16 + kind) 0 (eyeMin eyes (foundCes s c) b) 0 0
    if kind = 1 then channelRestart t c else t
  | none => cairn (count (setOd (channelFailed s c) (0x4400 + c) 0x06 0) (0x4400 + c) 0x07) 0x49 (cu 8 c) 0xFFFF 2 0 0 0 0

/-- The best bin of a channel: the first it may go down to that every CE passes. -/
def bestBin (s : State) (c : Nat) (eyes : List EyeReport) : Option Nat :=
  (lowerBins s c).find? (fun b => (foundCes s c).all (fun ce => trains eyes ce b))

section
variable {s : State} {c : Nat} {eyes : List EyeReport} (hp : s.ao.portsUp = true) (hstate : (chan s c).state = 1)
include hp hstate

/-- R347: after a loss. -/
theorem exec_fullTrainingDone_lost (hlost : (chan s c).lost = true) :
    exec (.fullTrainingDone c eyes) s = .next (trainingOutcome (trainBus s c) c eyes 1 (bestBin (trainBus s c) c eyes)) := by
  show execFullTrainingDone c eyes s = _
  rw [execFullTrainingDone, gate_up hp]
  dsimp only
  rw [if_neg (by simp [hstate, hlost]), hlost, if_neg (by simp), chan_trainBus, hlost, if_pos rfl]
  unfold trainingOutcome bestBin
  cases (lowerBins (trainBus s c) c).find? _ with
  | none => rfl
  | some b =>
    dsimp only
    rw [foundCes_eyeStored, trainedTo]

/-- R345: out of Dormant, every CE passing at the channel's own bin. -/
theorem exec_fullTrainingDone_dormant (hlost : (chan s c).lost = false) (hun : (chan s c).untrained = true)
    (hwake : (ridge s (c / 8)).waking = true) (hall : (foundCes s c).all (fun ce => trains eyes ce (chan s c).bin) = true) :
    exec (.fullTrainingDone c eyes) s = .next (trainingOutcome (trainBus s c) c eyes 0 (bestBin (trainBus s c) c eyes)) := by
  have hces : foundCes (trainBus s c) c = foundCes s c := rfl
  show execFullTrainingDone c eyes s = _
  rw [execFullTrainingDone, gate_up hp]
  dsimp only
  rw [if_neg (by simp [hstate, hun, hwake]), hces, hall, hlost, if_neg (by decide), chan_trainBus, hlost, if_neg Bool.false_ne_true]
  unfold trainingOutcome bestBin
  rw [hces]
  cases (lowerBins (trainBus s c) c).find? _ with
  | none => rfl
  | some b =>
    dsimp only
    rw [foundCes_eyeStored, trainedTo, hces]

end

/-- Settles O39: bring-up, tracking and full training, each by the state it meets. -/
theorem channels_come_up_and_train : Obligations.Channels_come_up_and_train := by
  unfold Obligations.Channels_come_up_and_train
  intro s c hp
  refine ⟨fun dies eyes hspur hchan => ⟨_, exec_bringupDone hp dies eyes hspur hchan, rfl, rediscover_bringUp s c dies eyes⟩,
    fun ce hstate htracked hdue hturn => ⟨fun hdelays => ?clean, fun b bursts hb hcentre => ?failing⟩,
    fun eyes hstate => ⟨fun b hlost hbest => ?restarted, fun b hlost hun hwake hall hbest => ?woken, fun hlost hbest => ?failed⟩⟩
  case clean =>
    rw [exec_trackingPass hp [] hstate htracked hdue hturn]
    refine congrArg _ (if_neg ?_)
    simp [movedFar_passTaken_nil hdelays]
  case failing =>
    have hany : bursts.any (fun b => !b.centre) = true := List.any_eq_true.2 ⟨b, hb, by simp [hcentre]⟩
    rw [exec_trackingPass hp bursts hstate htracked hdue hturn]
    exact congrArg _ (if_pos (.inr hany))
  case restarted =>
    have hbin : bestBin (trainBus s c) c eyes = some b := hbest
    rw [exec_fullTrainingDone_lost hp hstate hlost, hbin]
    rfl
  case woken =>
    have hbin : bestBin (trainBus s c) c eyes = some b := hbest
    rw [exec_fullTrainingDone_dormant hp hstate hlost hun hwake hall, hbin]
    rfl
  case failed =>
    have hbin : bestBin (trainBus s c) c eyes = none := hbest
    rw [exec_fullTrainingDone_lost hp hstate hlost, hbin]
    rfl

end Sys2Proof.Machine
end
